-- ==== Sys2Proof/Word.lean ====
section
/-! DEFINITION. The plainest types of the model: the CSR and register word, the
byte, and the sparse map that every table of the machine is kept in. -/

namespace Sys2Proof

/-- A 32-bit register or CSR word (R6, R32). -/
abbrev Word := BitVec 32

/-- A byte of memory, of a cell or of a frame. -/
abbrev Byte := BitVec 8

/-- A sparse table: pairs of a key and a value, keys strictly rising, holding no
pair whose value is the one an unlisted key has. -/
abbrev SMap (α : Type) := List (Nat × α)

end Sys2Proof
end

