-- ==== Sys2Proof/Syntax.lean ====
section
/-! DEFINITION. The commands that the module takes from outside or performs in itself, one
constructor for each row of the table, with what they carry. -/

namespace Sys2Proof

/-- A parallel fetch of a MAC-class word (R74, R119): the G register and the pointer. -/
structure Fetch where
  rd : BitVec 4
  p : BitVec 2
  deriving DecidableEq, Repr
/-- How a frame reaches a MAC under clause 99 (R334, R335): whole, as the first, a
middle or the last fragment of a preempted frame, as a fragment with a sequence or
mCRC error, as a verify or respond frame, or cut off by the clearing of EN (R321). -/
inductive MPacket where
  | whole | first | mid | last | bad | verify | respond | cut
  deriving DecidableEq, Repr
/-- What identification finds at a flash target (R412, R413): whether the CRC of its parameter page
is good, its page in KiB of data and spare bytes, partial programs per page, pages per block,
blocks, the highest NV-DDR2 mode, and the blocks that carry a factory mark (R419). -/
structure NandTarget where
  crcOk : Bool
  pageKib : Nat
  spare : Nat
  mode : Nat
  nop : Nat
  ppb : Nat
  blocks : Nat
  marked : List Nat
  deriving DecidableEq, Repr

/-- A sector that does not read clean: its block, page and number, the bits corrected, and the
read-retry level at which it reads: 0 for the first read; 16 and above for one that reads at no level. -/
structure ReadFault where
  block : Nat
  page : Nat
  sector : Nat
  bits : Nat
  level : Nat
  deriving DecidableEq, Repr

/-- What the meter's crystal does: its deviation in ppb before TC, and the die temperature in °C (R392). -/
structure Crystal where
  ppb : Int
  temp : Int
  deriving DecidableEq, Repr

/-- What the flash does while the controller works: a target that times out, blocks whose
erase fails, blocks in which a program fails, and sectors that do not read clean. -/
structure FlashWorld where
  timeout : Bool
  eraseFails : List Nat
  progFails : List Nat
  faults : List ReadFault
  deriving DecidableEq, Repr

/-- A read that host software makes of the endpoint outside BAR0 and BAR2: what configuration space says of
the function (R472, R473), or bytes of BAR4 (R484). -/
inductive PcieRead where
  | ident | classCode | serial | sizes | barTypes
  | bar4 (o n : Nat)
  deriving DecidableEq, Repr

/-- What host software sets in the endpoint's configuration space and, through BAR4, in the MSI-X
table (R472, R473, R477): the bits, D3hot in place of D0, words of the table by number, and a read it
makes then. -/
structure PcieCfg where
  memEn : Bool
  busMaster : Bool
  msixEn : Bool
  funMask : Bool
  d3 : Bool
  table : List (Nat × BitVec 32)
  read : Option PcieRead
  deriving DecidableEq, Repr

/-- A 32-bit read of a register: by the host through BAR0 or else by a supervisor, the byte enables of the
DW (R474), and the CSR offset. -/
structure RegRead where
  host : Bool
  be : BitVec 4
  o : Nat
  deriving DecidableEq, Repr

/-- IMG_END: its wLength (R488), and what the flash does when the Boot ROM places the image. -/
structure ImgEnd where
  len : Nat
  flash : FlashWorld
  deriving DecidableEq, Repr

/-- A heartwood bank, by group and number, with the corrections it took within the last second (R518). -/
structure BankHot where
  group : Nat
  bank : Nat
  corrections : Nat
  deriving DecidableEq, Repr

/-- A command.  `e` is an engine: 0 to 127, and 128 to 135 for S0 to S7.  A Lemgil instruction
carries the fields of its encoding (R119), and issues in the running context of its engine. -/
inductive Instr where
  /-- R10. A write to a CSR field that has no row of its own sets RW fields, clears W1C bits or
  sets RW1S bits, and updates the configuration fingerprint where the location is covered.
  `host`: by the host through BAR0; else by a supervisor in privileged state. `o`: CSR offset. -/
  | registerWrite (host : Bool) (o : Nat) (v : Word)
  /-- R10. A read of an RC field returns its value and clears it, with same-cycle increments
  carried into the next period. `a`: the read. -/
  | rcRegisterRead (a : RegRead)
  /-- R110. A read of a 64-bit counter's _LO word latches its _HI word until the next read of that
  _LO. `a`: the read. -/
  | counterLoRead (a : RegRead)
  /-- R533. RESET_N held low resets the whole main die, leaving the meter and the island contact
  states untouched. `ns`: length of the low pulse in ns. -/
  | deviceReset (ns : Nat)
  /-- R498. The rising edge of RESET_N latches the straps, locks the PLLs and starts the Boot ROM
  on the lowest-numbered supervisor. `mode`, `pairId`: the straps. -/
  | resetRelease (mode : BitVec 2) (pairId : Bool)
  /-- R56. At each tick boundary NFN advances by one and the tick, with its full NFN, is delivered
  to every consumer. -/
  | tick
  /-- R49. A write to TIME_FREQ sets F at the next 2 ns step, restarts the watchdog period, and is
  ignored in HOLDOVER unless HO_SW is 1. -/
  | timeFreqWrite (v : Word)
  /-- R50. A write of v to TIME_PHASE_ADJ adds v ns to the held phase remainder, saturating and
  setting PHASE_SAT. -/
  | timePhaseAdjWrite (v : Word)
  /-- R50. TIME_SERVO.PHASE_CLR sets TIME_PHASE_REM to zero. -/
  | phaseClr
  /-- R51. TIME_SERVO.STEP adds TIME_STEP to PTP time, with NFN jumping while RUN is 0 or NFN_OFS
  absorbing it while RUN is 1. -/
  | step
  /-- R52. MODE_CMD FREERUN moves the timebase to FREERUN from any state. -/
  | modeCmdFreerun
  /-- R52. MODE_CMD LOCKING moves the timebase from FREERUN or HOLDOVER to LOCKING, otherwise sets
  CMD_IGN. -/
  | modeCmdLocking
  /-- R52. MODE_CMD LOCKED moves the timebase from LOCKING to LOCKED and starts frequency
  averaging, otherwise sets CMD_IGN. -/
  | modeCmdLocked
  /-- R52. MODE_CMD HOLDOVER moves the timebase from LOCKED to HOLDOVER and freezes TIME_FREQ_AVG,
  otherwise sets CMD_IGN. -/
  | modeCmdHoldover
  /-- R54. WDOG × 100 ms without a TIME_FREQ write moves LOCKED to HOLDOVER or LOCKING to FREERUN. -/
  | watchdogExpiry
  /-- R50. The held phase remainder reaches zero, slewing stops exactly there and SLEWING clears. -/
  | phaseSlewEnd
  /-- R57. NFN_OFS becomes non-zero or reaches zero, NFN_ALIGNED changes and an alignment event is
  raised. -/
  | nfnAlignmentChange
  /-- R55. A write of TIME_CTL.FSRC selects the frequency source, entering fallback if CLK10_IN is
  not OK or ending an active fallback. -/
  | fsrcWrite (v : Word)
  /-- R55. C10_OK falling while FSRC is 1 switches to ETHREF at the next tick boundary, sets
  C10_FALLBACK and raises a CLK10 event. -/
  | clk10Fallback
  /-- R55. After C10_OK has been 1 again for 1 s the timebase returns to CLK10_IN, clears
  C10_FALLBACK and raises a CLK10 event. -/
  | clk10Restore
  /-- R58. A read of TIME_NFN_LO latches a snapshot of NFN, TS32, fraction, PTP time and NFN_OFS
  into the snapshot group. -/
  | timeNfnLoRead
  /-- R62. A selected edge on TS_IN[k] is stamped and raises a capture event, or is counted in
  TIME_TSIN_MISSk if too close to the last. `pin`, its direction, and for how many ns the
  level that it begins stands (R62). -/
  | tsInCapture (pin : Nat) (rising : Bool) (width : Nat)
  /-- R64. PPS_OUT rises once per PTP or NFN second, offset by TIME_PPS_OFS, unless gated low. -/
  | ppsRise
  /-- R64. PPS_OUT falls after WIDTH ticks high. -/
  | ppsFall
  /-- R122. Gd := Gs + Gt, wrapping, setting Z N C V. -/
  | add (e : Nat) (rd rs rt : BitVec 4)
  /-- R122. Gd := Gs + Gt, saturated on overflow, setting Z N C V. -/
  | adds (e : Nat) (rd rs rt : BitVec 4)
  /-- R122. Gd := Gs − Gt, wrapping, setting Z N C V. -/
  | sub (e : Nat) (rd rs rt : BitVec 4)
  /-- R122. Gd := Gs − Gt, saturated on overflow, setting Z N C V. -/
  | subs (e : Nat) (rd rs rt : BitVec 4)
  /-- R122. Sets the flags of Gs − Gt. -/
  | cmp (e : Nat) (rs rt : BitVec 4)
  /-- R122. Gd := Gs and Gt, setting Z N. -/
  | and (e : Nat) (rd rs rt : BitVec 4)
  /-- R122. Gd := Gs or Gt, setting Z N. -/
  | or (e : Nat) (rd rs rt : BitVec 4)
  /-- R122. Gd := Gs xor Gt, setting Z N. -/
  | xor (e : Nat) (rd rs rt : BitVec 4)
  /-- R122. Gd := Gs and not Gt, setting Z N. -/
  | andn (e : Nat) (rd rs rt : BitVec 4)
  /-- R122. Sets Z N from Gs and Gt. -/
  | tst (e : Nat) (rs rt : BitVec 4)
  /-- R122. Gd := Gs shifted left by Gt[5:0]. -/
  | shl (e : Nat) (rd rs rt : BitVec 4)
  /-- R122. Gd := Gs logically shifted right by Gt[5:0]. -/
  | shr (e : Nat) (rd rs rt : BitVec 4)
  /-- R122. Gd := Gs arithmetically shifted right by Gt[5:0]. -/
  | sar (e : Nat) (rd rs rt : BitVec 4)
  /-- R122. Gd := signed minimum of Gs and Gt. -/
  | min (e : Nat) (rd rs rt : BitVec 4)
  /-- R122. Gd := signed maximum of Gs and Gt. -/
  | max (e : Nat) (rd rs rt : BitVec 4)
  /-- R122. Gd := 0 − Gs, setting Z N C V. -/
  | neg (e : Nat) (rd rs : BitVec 4)
  /-- R122. Gd := |Gs|, with 0x8000_0000 giving 0x7FFF_FFFF and V 1. -/
  | abs (e : Nat) (rd rs : BitVec 4)
  /-- R122. Gd := count of leading zeros of Gs. -/
  | clz (e : Nat) (rd rs : BitVec 4)
  /-- R122. Gd := low 32 bits of Gs × Gt. -/
  | mul (e : Nat) (rd rs rt : BitVec 4)
  /-- R122. Gd := Gs[15:0] sign-extended. -/
  | sexh (e : Nat) (rd rs : BitVec 4)
  /-- R122. Gd := Gs + sign-extended immediate, setting Z N C V. -/
  | addi (e : Nat) (rd rs : BitVec 4) (imm : BitVec 16)
  /-- R122. Gd := Gs and zero-extended immediate. -/
  | andi (e : Nat) (rd rs : BitVec 4) (imm : BitVec 16)
  /-- R122. Gd := Gs or zero-extended immediate. -/
  | ori (e : Nat) (rd rs : BitVec 4) (imm : BitVec 16)
  /-- R122. Gd := Gs xor zero-extended immediate. -/
  | xori (e : Nat) (rd rs : BitVec 4) (imm : BitVec 16)
  /-- R122. Sets the flags of Gs − sign-extended immediate. -/
  | cmpi (e : Nat) (rs : BitVec 4) (imm : BitVec 16)
  /-- R122. Gd := Gs shifted left by IMM[4:0]. -/
  | shli (e : Nat) (rd rs : BitVec 4) (sh : BitVec 5)
  /-- R122. Gd := Gs logically shifted right by IMM[4:0]. -/
  | shri (e : Nat) (rd rs : BitVec 4) (sh : BitVec 5)
  /-- R122. Gd := Gs arithmetically shifted right by IMM[4:0]. -/
  | sari (e : Nat) (rd rs : BitVec 4) (sh : BitVec 5)
  /-- R123. Writes IMM to bits 15:0 of a G, P or M register and clears bits 31:16. -/
  | movi (e : Nat) (rd : BitVec 4) (cl : BitVec 3) (imm : BitVec 16)
  /-- R123. Writes IMM to bits 31:16 of a G, P or M register and keeps bits 15:0. -/
  | movhi (e : Nat) (rd : BitVec 4) (cl : BitVec 3) (imm : BitVec 16)
  /-- R124. Copies between register classes, including writes and reads of ST, loop and exception
  registers. -/
  | mov (e : Nat) (rd : BitVec 4) (dcl : BitVec 3) (rs : BitVec 4) (scl : BitVec 3)
  /-- R126. Gd := the rounded and saturated 16-bit value of an accumulator, sign-extended. -/
  | movh (e : Nat) (rd : BitVec 4) (as_ : BitVec 2) (rnd : Bool)
  /-- R126. Gd := an accumulator saturated to 32 bits. -/
  | movw (e : Nat) (rd : BitVec 4) (as_ : BitVec 2)
  /-- R126. Gd := the accumulator guard bits sign-extended. -/
  | movx (e : Nat) (rd : BitVec 4) (as_ : BitVec 2)
  /-- R126. Ad := Ad + As under the 40-bit overflow rule. -/
  | adda (e : Nat) (ad as_ : BitVec 2)
  /-- R126. Ad := Ad − As under the 40-bit overflow rule. -/
  | suba (e : Nat) (ad as_ : BitVec 2)
  /-- R126. Ad := As shifted arithmetically by signed SH. -/
  | ash (e : Nat) (ad as_ : BitVec 2) (sh : BitVec 6)
  /-- R126. Ad := −As under the 40-bit overflow rule. -/
  | aneg (e : Nat) (ad as_ : BitVec 2)
  /-- R127. Adds a 16 × 16 product to an accumulator, with optional X and Y fetches. -/
  | mac (e : Nat) (ad : BitVec 2) (gs gt : BitVec 4) (hs ht : Bool) (x y : Option Fetch)
  /-- R127. Subtracts a 16 × 16 product from an accumulator, with optional fetches. -/
  | msu (e : Nat) (ad : BitVec 2) (gs gt : BitVec 4) (hs ht : Bool) (x y : Option Fetch)
  /-- R127. Sets an accumulator to a 16 × 16 product, with optional fetches. -/
  | mpy (e : Nat) (ad : BitVec 2) (gs gt : BitVec 4) (hs ht : Bool) (x y : Option Fetch)
  /-- R127. Clears an accumulator, with optional fetches. -/
  | aclr (e : Nat) (ad : BitVec 2) (x y : Option Fetch)
  /-- R127. Performs only the parallel X and Y fetches. -/
  | fet (e : Nat) (x y : Option Fetch)
  /-- R129. Loads a sign-extended 16-bit value, suspending the context when the address is far. -/
  | ldh (e : Nat) (rd : BitVec 4) (pn : BitVec 3) (md : Bool) (ofs : BitVec 14)
  /-- R129. Loads a zero-extended 16-bit value. -/
  | ldhu (e : Nat) (rd : BitVec 4) (pn : BitVec 3) (md : Bool) (ofs : BitVec 14)
  /-- R129. Loads a 32-bit value into a G, P or M register. -/
  | ldw (e : Nat) (rd : BitVec 4) (cl : BitVec 2) (pn : BitVec 3) (md : Bool) (ofs : BitVec 14)
  /-- R129. Loads bits 39:0 of a 64-bit word into an accumulator. -/
  | lda (e : Nat) (rd : BitVec 4) (pn : BitVec 3) (md : Bool) (ofs : BitVec 14)
  /-- R129. Stores 16 bits of a G register or the rounded accumulator value, posted when far. -/
  | sth (e : Nat) (rs : BitVec 4) (cl : BitVec 2) (rnd : Bool) (pn : BitVec 3) (md : Bool) (ofs : BitVec 14)
  /-- R129. Stores 32 bits of a register or the saturated accumulator. -/
  | stw (e : Nat) (rs : BitVec 4) (cl : BitVec 2) (pn : BitVec 3) (md : Bool) (ofs : BitVec 14)
  /-- R129. Stores an accumulator sign-extended to 64 bits. -/
  | sta (e : Nat) (rs : BitVec 4) (pn : BitVec 3) (md : Bool) (ofs : BitVec 14)
  /-- R131. Atomically adds Gs to a grove-memory or heartwood word and returns the old value. -/
  | aadd (e : Nat) (rd rs : BitVec 4) (pn : BitVec 3)
  /-- R131. Atomically compares a word with Gd and swaps in Gs on equality, returning the old
  value and Z. -/
  | acas (e : Nat) (rd rs : BitVec 4) (pn : BitVec 3)
  /-- R133. Conditional PC-relative branch with two delay slots and optional annul. -/
  | b (e : Nat) (cond : BitVec 4) (an : Bool) (ofs : BitVec 20)
  /-- R133. PC-relative call that writes the link into G15. -/
  | call (e : Nat) (an : Bool) (ofs : BitVec 20)
  /-- R133. Conditional branch to the address in Gs. -/
  | jr (e : Nat) (cond : BitVec 4) (an : Bool) (rs : BitVec 4)
  /-- R133. Returns to the address in G15. -/
  | ret (e : Nat) (an : Bool)
  /-- R133. Calls the address in Gs and writes the link into G15. -/
  | callr (e : Nat) (an : Bool) (rs : BitVec 4)
  /-- R134. Opens a loop level with an immediate count. -/
  | loopImmediate (e : Nat) (count : BitVec 16) (body : BitVec 9)
  /-- R134. Opens a loop level with a count read from Gs. -/
  | loopRegister (e : Nat) (rs : BitVec 4) (body : BitVec 15)
  /-- R136. Does nothing. -/
  | nop (e : Nat)
  /-- R75. Suspends the context until every earlier far store of the context has been performed. -/
  | fence (e : Nat)
  /-- R100. Sets ST.HOLD from the next slot, deferring involuntary switches. -/
  | hold (e : Nat)
  /-- R100. Clears ST.HOLD from the next slot. -/
  | unhold (e : Nat)
  /-- R98. Passes control to a READY context of equal or higher priority, or continues. -/
  | yield (e : Nat)
  /-- R105. Restores ST from ESTAT and resumes at EPC, executing remaining delay slots then ETGT. -/
  | rte (e : Nat)
  /-- R135. Raises the trap exception with EADDR := n. -/
  | trap (e : Nat) (n : BitVec 16)
  /-- R138. Ends any task in service and waits for a task from the ready lists in MASK. -/
  | take (e : Nat) (mask : BitVec 8)
  /-- R140. Ends the task in service after earlier far stores are performed. -/
  | done (e : Nat)
  /-- R140. Delivers an operand and ends the task in service as one message. -/
  | doneDeliver (e : Nat) (gt gv : BitVec 4)
  /-- R140. Delivers Gv to the target word Gt, to the matching store or a signal queue. -/
  | signal (e : Nat) (gt gv : BitVec 4)
  /-- R141. Returns a signal-queue entry or waits for one until a timeout. -/
  | waitevt (e : Nat) (tmo : BitVec 12)
  /-- R142. Reserves a coprocessor queue entry and sets C, committing a 16-byte command at stage
  C. -/
  | cpx (e : Nat) (unit ga : BitVec 2)
  /-- R144. Privileged read of a register of a stopped or faulted context of the same engine. -/
  | mfc (e : Nat) (rg : BitVec 4) (cl : BitVec 3) (rn : BitVec 4) (cx : BitVec 2)
  /-- R144. Privileged write of a register of a stopped or faulted context of the same engine. -/
  | mtc (e : Nat) (rg : BitVec 4) (cl : BitVec 3) (rn : BitVec 4) (cx : BitVec 2)
  /-- R118. An undefined encoding raises the illegal-instruction exception when it issues. `w`:
  the instruction word. -/
  | undefinedInstruction (e : Nat) (w : Word)
  /-- R75. The response of a far load or atomic arrives, writes its destination and readies the
  context, or raises the far data error. `k`: 4 × engine + context. -/
  | farLoadReturn (k : Nat)
  /-- R75. A buffered far store is performed at its target, freeing its entry and resuming a
  context waiting on a full buffer. `k`: the context whose oldest buffered store it is. -/
  | farStorePerformed (k : Nat)
  /-- R75. All earlier far stores of a fenced context are performed and the context becomes READY.
  `c`: the context. -/
  | fenceComplete (e c : Nat)
  /-- R99. At a slot boundary the engine changes the issuing context, costing one cycle and
  counting in GROVE_ENGe_SW. -/
  | contextSwitch (e : Nat)
  /-- R100. A context holding for more than GROVE_HOLDLIM.LIMIT cycles has HOLD cleared and raises
  the hold-timeout exception. -/
  | holdTimeout (e : Nat)
  /-- R101. A 1 in GROVE_ENGe_CTL.START[c] starts a stopped or faulted context at PCc. `c`: the
  context. -/
  | contextStart (e c : Nat)
  /-- R101. A 1 in GROVE_ENGe_CTL.STOP[c] stops the context, at once, at its next permitted
  boundary or when its wait ends. `c`: the context. -/
  | contextStop (e c : Nat)
  /-- R101. A write to GROVE_ENGe_PCc of a stopped or faulted context sets its PC and discards its
  pending branch. `c`: the context. -/
  | pcWrite (e c : Nat) (v : Word)
  /-- R109. GROVE_LD_CTL.GO starts a load-unit transfer, refusing with codes 1, 2, 3 or 5 before
  any byte moves. `g`: the grove; `v`: the word written. -/
  | loadUnitGo (g : Nat) (v : Word)
  /-- R111. A load-unit transfer ends, setting DONE and CODE and raising a load-unit done event.
  `g`: the grove. -/
  | loadUnitDone (g : Nat)
  /-- R152. DISP_TMPL_CMD install places the staged A and B words as a template or reports a
  failure code. -/
  | tmplInstall
  /-- R152. DISP_TMPL_CMD read copies an installed template into DISP_TMPL_A and B. -/
  | tmplRead
  /-- R152. DISP_TMPL_CMD remove uninstalls a template not in use. -/
  | tmplRemove
  /-- R156. The dispatcher places an offered operand into an OPEN instance of its key, opening one
  if the back-pressure level grants an entry. `k`: the context whose operand waits. -/
  | operandPlace (k : Nat)
  /-- R166. A HELD instance becomes LISTED once its flow is free and its list has room. `entry`:
  matching-store entry. -/
  | instanceList (entry : Nat)
  /-- R167. The dispatcher hands the chosen listed task to the longest-waiting eligible TAKE
  context and frees its entry. -/
  | taskHand
  /-- R140. After earlier far stores are performed, the service end of DONE or TAKE reaches the
  dispatcher and frees the flow. `k`: the context. -/
  | doneComplete (k : Nat)
  /-- R164. An enabled dispatcher timer delivers its NFN operand to its target at each tick with
  NFN mod PERIOD = PHASE. `t`: the timer. -/
  | timerFire (t : Nat)
  /-- R141. An entry arrives in the signal queue of a context waiting in WAITEVT, which returns
  it. `k`: the context. -/
  | waitevtWake (k : Nat)
  /-- R141. The first tick at or after N0 + TMO ends a WAITEVT wait with G0 = 0xFFFF_FFFF. `k`:
  the context. -/
  | waitevtTimeout (k : Nat)
  /-- R169. A write to DISP_FREE ends the task in service of a stopped or faulted context as a
  DONE without delivery. `w`: the word written. -/
  | taskFree (w : Word)
  /-- R169. A write to DISP_PURGE removes every OPEN, HELD and LISTED instance of a channel whose
  release entry is disabled. `n`: the channel. -/
  | channelPurge (n : Nat)
  /-- R176. At T + 8 with set B unchanged and unserved, the detector raises a deadlock event and
  sets DISP_STAT.DLK. -/
  | deadlockDetect
  /-- R178. An uncorrectable matching-store entry is discarded and freed, counted and reported.
  `entry`: matching-store entry. -/
  | matchingStoreError (entry : Nat)
  /-- R193. A cluster processes one block of a channel's access-to-trunk direction against its EC
  record in place. -/
  | ecaBlock
  /-- R210. A cluster writes one or two EC records afresh for a channel. -/
  | ecaInit
  /-- R209. A cluster copies an EC record, or a pair, to heartwood. -/
  | ecaSave
  /-- R210. A cluster checks an EC record image and copies it in. -/
  | ecaRestore
  /-- R209. A cluster zeroes coefficients and bins and returns the record to SEARCH, keeping the
  history. -/
  | ecaReset
  /-- R209. A cluster replaces CFG bits 11:4 of an EC record. -/
  | ecaSetcfg
  /-- R212. The ECA delivers a command's completion to its target, holding it under back-pressure.
  `j`: which of the completions that wait. -/
  | ecaCompletionDeliver (j : Nat)
  /-- R221. A pipe passes one block through the FIFO, resampler, stages, phase delay and
  destination of a chain. -/
  | rsfRun
  /-- R241. A pipe initialises a chain state block from an image and performs a step. -/
  | rsfInit
  /-- R232. A pipe copies a bank image into the inactive bank. -/
  | rsfLoadbank
  /-- R231. A pipe stores a new phase delay, with or without fade, for the next RUN. -/
  | rsfSetdelay
  /-- R230. A pipe writes a clamped TRIM and clears the drift anchor. -/
  | rsfSetratio
  /-- R241. A pipe copies a chain state block to heartwood. -/
  | rsfSave
  /-- R241. A pipe checks a state block image, copies it in and performs a step. -/
  | rsfRestore
  /-- R220. The RSF delivers a command's completion to its target, holding it under back-pressure.
  `j`: which of the completions that wait. -/
  | rsfCompletionDeliver (j : Nat)
  /-- R263. A descriptor CTL write changing EN from 0 to 1 sets STAT.BUSY and queues a consistency
  check. `n`: the channel; `v`: CTL, whose EN is 1. -/
  | channelEnableWrite (n : Nat) (v : Word)
  /-- R264. The device checks a queued channel against the reason-code conditions and the meter,
  in write order. -/
  | consistencyCheck
  /-- R269. A CTL write clearing EN clears the release entry's EN and sets STAT.CLOSING, after any
  pending check. `n`: the channel; `v`: CTL, whose EN is 0. -/
  | channelCloseWrite (n : Nat) (v : Word)
  /-- R290. An accepted write of DEV_HWL_CELL places the cell region and rebuilds the clearing
  with every queue empty. -/
  | hwlCellWrite (v : Word)
  /-- R295. A read of QP_POP unlinks the oldest item of the selected queue or returns the last
  value with UNDER. `p`: the portal, none for the host and some context else. -/
  | queuePop (p : Option Nat)
  /-- R291. A read of QP_ALLOC takes one cell from the clearing above the engine reserve or
  returns EMPTY. `p`: the portal. -/
  | cellAlloc (p : Option Nat)
  /-- R296. A write of QP_FREE returns an item's cells to the clearing after validating the chain.
  `p`: the portal; `w`: the item. -/
  | cellFree (p : Option Nat) (w : Word)
  /-- R294. A write of QP_PUSH_HI pushes the staged item, overwriting the oldest at LIMIT, and
  raises one notice. `p`: the portal; `w`: QP_PUSH_HI. -/
  | queuePush (p : Option Nat) (w : Word)
  /-- R294. A QMGR_QCFG write clearing EN empties the queue, or lowering LIMIT removes the oldest
  items into LOST. -/
  | queueConfigWrite (v : Word)
  /-- R297. A queue's held notice is delivered to the dispatcher or the host when accepted. `q`:
  the queue. -/
  | noticeDeliver (q : Nat)
  /-- R316. An uncorrectable queue-descriptor error disables the queue and raises an event. `q`:
  the queue. -/
  | queueDescError (q : Nat)
  /-- R305. The packet engine takes a frame from a receive FIFO into cells, classifies it and
  delivers or drops it. `n`: the port. -/
  | pktReceive (n : Nat)
  /-- R315. The packet engine takes an item from an enabled input queue, sends, holds or frees it. -/
  | pktTxTake
  /-- R314. A held item's DEP is reached and it begins transmission. -/
  | pktDeparture
  /-- R310. A pseudowire packet is built when every position is filled or at its departure D. `p`:
  the PSEUDOWIRE flow entry. -/
  | cesPacketBuild (p : Nat)
  /-- R312. At a bundle departure tick the placed member frames are sent in datagrams. `b`: the
  BUNDLE flow entry. -/
  | bundleDeparture (b : Nat)
  /-- R318. PKT_FCMD write installs the staged flow entry or refuses it with a code. -/
  | flowWrite
  /-- R318. PKT_FCMD read returns a flow entry into PKT_FDATA0–3. -/
  | flowRead
  /-- R318. PKT_FCMD invalidate zeroes a flow entry unless it is bound. -/
  | flowInvalidate
  /-- R318. PKT_TCMD write installs a header template or refuses it. -/
  | templateWrite
  /-- R318. PKT_TCMD read returns a header template into PKT_TDATA0–15. -/
  | templateRead
  /-- R316. An uncorrectable flow-table or template error invalidates the entry and raises an
  event. `tmpl`: in the header templates, else in the flow table; `j`: the entry. -/
  | flowTableError (tmpl : Bool) (j : Nat)
  /-- R321. Setting MACn_CTL.EN starts the SerDes and PCS of the port. `n`: port; `v`: the word
  written. -/
  | macEnable (n : Nat) (v : Word)
  /-- R321. Clearing MACn_CTL.EN stops the port at once, losing frames in flight. `n`: port; `v`:
  the word written. -/
  | macDisable (n : Nat) (v : Word)
  /-- R321. After 1 ms of block lock without fault, LINK becomes 1 and a link event is raised. -/
  | linkUp (n : Nat)
  /-- R321. Loss of block lock or a fault clears LINK and raises a link event. `n`: port; block
  lock lost, a local fault, a remote fault. -/
  | linkDown (n : Nat) (lost loc rem : Bool)
  /-- R326. A frame arriving on a port passes the receive steps and is handed up, consumed or
  dropped. `n`: port; `kind`: how it came (R334); `sym`: symbol errors; `corr`, `unc`: FEC
  codewords corrected and not; `f`: the frame with its FCS. -/
  | macFrameReceive (n : Nat) (kind : MPacket) (sym corr unc : Nat) (f : List Byte)
  /-- R332. A priority's pause timer expires and its frames may be sent. `n`: port; `p`: priority. -/
  | pfcPauseExpire (n p : Nat)
  /-- R332. A paused frame that has waited HOLD µs is discarded and counted in TXPAUSEDROP. -/
  | pfcHoldDiscard (n : Nat)
  /-- R332. The port enters XOFF and sends a PFC frame with time QUANTA. -/
  | pfcXoff (n : Nat)
  /-- R332. In XOFF the PFC frame is repeated each time half of QUANTA has elapsed. -/
  | pfcRepeat (n : Nat)
  /-- R332. The port leaves XOFF and sends one PFC frame with time 0. -/
  | pfcXon (n : Nat)
  /-- R331. A frame handed to the MAC is sent with FCS and padding, counted when its last octet
  leaves, or discarded. `n`: port; `part`: octets of the frame in flight that have left, 0 for
  its end or a new frame. -/
  | macFrameTransmit (n part : Nat)
  /-- R334. A verify frame is sent, up to three VTIME apart, and verification succeeds or fails. -/
  | preemptVerify (n : Nat)
  /-- R338. A read of a MAC counter's _LO returns bits 31:0, latches bits 39:32 and clears the
  counter. `n`: port; `c`: counter. -/
  | macCounterRead (n c : Nat)
  /-- R336. The mirror controller's ungating takes effect at the next frame boundary. -/
  | macUngate (n : Nat)
  /-- R353. An AES core protects an SRTP packet under its send slot and pushes or returns it.
  `par`: a parity error meets the slot. -/
  | ciphProtect (par : Bool)
  /-- R351. An AES core protects an SRTCP packet under its send slot. `par`: a parity error meets
  the slot. -/
  | ciphProtectRtcp (par : Bool)
  /-- R352. An AES core unprotects an SRTP packet, checking index, replay and tag. `par`: a parity
  error meets the slot. -/
  | ciphUnprotect (par : Bool)
  /-- R352. An AES core unprotects an SRTCP packet for supervisor firmware. `par`: a parity error
  meets the slot. -/
  | ciphUnprotectRtcp (par : Bool)
  /-- R350. A privileged CPX unwraps a key blob into a slot. -/
  | ciphImport
  /-- R348. A privileged CPX returns an unbound slot to EMPTY. -/
  | ciphErase
  /-- R351. A privileged CPX makes a slot RETIRED. -/
  | ciphRetire
  /-- R350. CIPH_IMP_CMD import unwraps a host blob into a slot. -/
  | ciphImpImport
  /-- R348. CIPH_IMP_CMD erase returns an unbound slot to EMPTY. -/
  | ciphImpErase
  /-- R348. CIPH_IMP_CMD retire makes a slot RETIRED. -/
  | ciphImpRetire
  /-- R352. The cipher engine unprotects a received SRTP packet from the packet engine's queue and
  pushes or drops it. `par`: a parity error meets the slot. -/
  | ciphRxUnprotect (par : Bool)
  /-- R349. CIPH_KEKCMD.DERIVE starts ECDH and HKDF derivation of the key-encryption key. -/
  | kekDerive
  /-- R349. Derivation ends, setting the KEK, incrementing KEKGEN and raising a KEK event, or
  failing with BADPT. -/
  | kekDeriveDone
  /-- R354. The cipher engine delivers a request's completion, holding it under back-pressure.
  `j`: which of the completions that wait. -/
  | ciphCompletionDeliver (j : Nat)
  /-- R368. The crucible core compresses a descriptor's input into a DEFLATE or dictionary stream. -/
  | crucCompress
  /-- R370. The crucible core decompresses a descriptor's input. -/
  | crucDecompress
  /-- R367. The crucible writes a stream context afresh. -/
  | crucInit
  /-- R367. The crucible copies a context whole to heartwood. -/
  | crucSave
  /-- R367. The crucible checks a context image and copies it in. -/
  | crucRestore
  /-- R378. CRUC_HCMD.GO queues the host request words. -/
  | crucHostGo
  /-- R375. The crucible delivers a completion in acceptance order, holding it under
  back-pressure. `j`: which of the completions that wait. -/
  | crucCompletionDeliver (j : Nat)
  /-- R383. METER_CMDGO sends the command words to the meter's queue, or is ignored when 16 are
  queued. -/
  | meterCmdGo
  /-- R387. The meter opens a channel's call and writes a START record. -/
  | callStart
  /-- R388. The meter closes a call and writes an END record with its duration and bands. -/
  | callEnd
  /-- R387. The meter opens a call adopted from the peer and writes an ADOPT record. -/
  | callAdopt
  /-- R397. The meter stages one calendar parameter. -/
  | param
  /-- R405. The meter makes the staged set committed, burning an audit entry after sealing and
  writing a PARAM record. -/
  | commit
  /-- R386. The meter resets the staged set to the committed set. -/
  | discard
  /-- R402. The meter frees journal space up to a record and writes a RELEASE record. -/
  | release
  /-- R402. The meter hands every buffered record to the storage controller at once. -/
  | flush
  /-- R406. The meter runs its self-test, entering FAULT or RUN. `failed`: what the test finds
  wrong, as bits of R406. -/
  | selftest (failed : Nat)
  /-- R382. The meter reports its state over the status link into the METER block. -/
  | meterStatusRefresh
  /-- R382. After 10 ms of status-link silence PRESENT clears and NEWCALL shows 0x80. -/
  | meterLinkSilent
  /-- R394. An NFN second tick reaches the meter, which validates it and slews, steps or marks its
  time. `n`: the NFN that comes; `skew`: what the crystal does from here on. -/
  | meterTick (n : Nat) (skew : Crystal)
  /-- R393. 2 s without a valid tick puts the meter in NOREF and writes a TIME record. -/
  | meterNoref
  /-- R387. Each 24 h of a call's interval count writes a PARTIAL record. `n`: the channel. -/
  | meterPartial (n : Nat)
  /-- R402. The meter hands 32 records, or those older than 1 s, to the storage controller. -/
  | meterHandover
  /-- R396. VMETER fails, the meter notes the instant and runs on VMETER_BU alone. -/
  | meterPowerFail
  /-- R396. VMETER returns and the meter self-tests, writes a POWER record and closes every open
  call. `lost`: VMETER_BU failed too; the strap; what the self-test finds wrong. -/
  | meterPowerReturn (lost pairId : Bool) (failed : Nat)
  /-- R406. Every 24 h of meter time the meter runs its self-test. `failed`: what the test finds
  wrong. -/
  | meterPeriodicSelftest (failed : Nat)
  /-- R404. METER_SEALCMD ARM arms sealing for 1 s. `low`: METER_PROG_N is low. -/
  | meterArm (low : Bool)
  /-- R404. METER_SEALCMD SEAL burns the hallmark key, audit entry 0 and the SEALED fuse and
  writes the SEAL record. `low`: METER_PROG_N is low. -/
  | meterSeal (low : Bool)
  /-- R404. A write of a SEAL register is passed to the meter, and ignored after sealing. `o`: CSR
  offset. -/
  | sealRegisterWrite (o : Nat) (v : Word)
  /-- R410. A read of METER_TNS latches METER_TSEC_LO and _HI. -/
  | meterTnsRead
  /-- R421. NAND_CMDGO queues the command words, or is refused when 32 are queued. -/
  | nandCmdGo
  /-- R423. The storage controller writes data as a new append in a partition. `j`: which of the
  queued commands; `w`: what the flash does. -/
  | append (j : Nat) (w : FlashWorld)
  /-- R422. The storage controller reads units from an LPA to heartwood. As `append`. -/
  | read (j : Nat) (w : FlashWorld)
  /-- R422. The storage controller gives up every unit below an LPA. As `append`. -/
  | trim (j : Nat) (w : FlashWorld)
  /-- R422. The storage controller erases a whole partition. As `append`. -/
  | erasepart (j : Nat) (w : FlashWorld)
  /-- R422. The storage controller copies meter records from an RSEQ onwards. As `append`. -/
  | readrec (j : Nat) (w : FlashWorld)
  /-- R422. The storage controller reads a page, data and spare, without correction. As `append`. -/
  | rawread (j : Nat) (w : FlashWorld)
  /-- R433. The storage controller starts a patrol pass at once. `j`: which of the queued
  commands. -/
  | patrol (j : Nat)
  /-- R422. The storage controller saves the block table to the anchor. `j`: which of the queued
  commands. -/
  | sync (j : Nat)
  /-- R418. The storage controller installs a new partition table and erases changed partitions.
  As `append`. -/
  | setpart (j : Nat) (w : FlashWorld)
  /-- R420. After reset the controller identifies targets and rebuilds the map from unit headers.
  `ts`: what identification finds at each target. -/
  | nandMount (ts : List (Option NandTarget))
  /-- R427. A meter handover is programmed into the next free slot and JRSEQ is reported. `w`:
  what the flash does. -/
  | nandHandover (w : FlashWorld)
  /-- R429. A meter parameter image is written into the parameter block not holding the latest.
  `w`: what the flash does. -/
  | nandParamImage (w : FlashWorld)
  /-- R428. When free slots fall to the kept-back amount, short slots are copied into full slots.
  `w`: what the flash does. -/
  | nandCompact (w : FlashWorld)
  /-- R431. Static wear levelling moves the lowest-count block's data once per INTERVAL. `p`: the
  partition. -/
  | nandWlMove (p : Nat) (w : FlashWorld)
  /-- R432. A block is copied to a fresh block and erased after read disturb or heavy correction.
  `g`: the block. -/
  | nandRefresh (g : Nat) (w : FlashWorld)
  /-- R433. A scheduled patrol read checks one programmed page. `w`: what the flash does. -/
  | nandPatrolRead (w : FlashWorld)
  /-- R444. MIRR_CMD START_ACTIVE promotes after three peer slots without an active peer. -/
  | startActive
  /-- R444. MIRR_CMD START_STANDBY waits up to 1 s for an active heartbeat to become STANDBY. -/
  | startStandby
  /-- R444. No active heartbeat within 1 s refuses START_STANDBY with 0xAA. -/
  | startStandbyTimeout
  /-- R444. MIRR_CMD PROMOTE promotes a standby, with or without FORCE. `force`: MIRR_CMD.FORCE. -/
  | promote (force : Bool)
  /-- R444. MIRR_CMD DEMOTE gates the active and sends ROLE DEMOTING. -/
  | demote
  /-- R444. MIRR_CMD REJOIN returns a fenced unit to STANDBY. -/
  | rejoin
  /-- R457. MIRR_CMD SYNC starts a bulk sync. -/
  | mirrSync
  /-- R444. No active peer within three slots after DEMOTE raises a role event with cause 5. -/
  | demoteTimeout
  /-- R444. Clearing MIRR_CTL.EN returns the unit to INIT, keeping the epoch. `v`: the word
  written, whose EN is 0. -/
  | mirrDisable (v : Word)
  /-- R446. At each own slot the unit sends a HEARTBEAT frame and pulses PEER_HB_OUT. -/
  | heartbeatSend
  /-- R447. A pulse on PEER_HB_IN is measured and judged against the peer slot. `w`: width in µs. -/
  | peerHbPulse (w : Nat)
  /-- R447. At a peer slot's link deadline each path is judged heard or silent. -/
  | peerSlotJudge
  /-- R454. A HEARTBEAT frame from the peer is taken, judged for the slot, epoch and sync
  requests. -/
  | mirrRxHeartbeat
  /-- R456. An ACK frame advances the sender's acknowledged window. -/
  | mirrRxAck
  /-- R445. A ROLE frame, REFUSE or DEMOTING, fences or promotes the receiver. -/
  | mirrRxRole
  /-- R459. The standby applies a mirrored descriptor and answers DESCRES. -/
  | mirrRxDesc
  /-- R459. A DESCRES refusal raises a peer-refusal event on the active. -/
  | mirrRxDescres
  /-- R458. The standby updates its mirrored open-call table. -/
  | mirrRxCall
  /-- R457. The standby closes channels and calls the sync did not name and may set INSYNC. -/
  | mirrRxSyncend
  /-- R460. The standby applies STATE entries and keeps their cipher indexes. -/
  | mirrRxState
  /-- R461. The standby applies an EC record through the ECA record port. -/
  | mirrRxEcrec
  /-- R452. The standby keeps the latest cipher horizons and indexes. -/
  | mirrRxHorizon
  /-- R466. The receiver compares the peer's fingerprint with its own for the same NFN. -/
  | mirrRxFinger
  /-- R454. A USER frame's item is delivered to the MIRR_USERRX queue. -/
  | mirrRxUser
  /-- R456. The oldest unacknowledged frame waits TMO ticks and every unacknowledged frame is
  resent. -/
  | retxTimeout
  /-- R456. A pure ACK is sent when no frame leaves within ACKDLY of a sequenced arrival. -/
  | ackSend
  /-- R460. At a channel's STATE tick the mirror reads its state as a flow member and sends the
  entry. `ns`: the channels whose entries share the frame. -/
  | stateSnapshot (ns : List Nat)
  /-- R462. An EC record is sent in the sweep or ahead of it at the age limit. `r`: the head EC
  record. -/
  | mirrEcrecSend (r : Nat)
  /-- R466. At NFN mod 8,000 = 0 the unit snapshots its fingerprint and sends a FINGER frame. -/
  | fingerSend
  /-- R450. A sleeping standby wakes GUARD before a slot and sleeps again after LAST or the
  window. -/
  | sleepWake
  /-- R453. A missed window makes the standby listen continuously and recentre on the next
  heartbeat, or degrade after 1 s. -/
  | sleepResync
  /-- R475. A host read through BAR2 returns heartwood bytes, or zero outside heartwood. `o`:
  offset in the BAR; `n`: bytes. -/
  | bar2Read (o n : Nat)
  /-- R475. A host write through BAR2 writes heartwood cell by cell, or is discarded with WINERR.
  `o`: offset in the BAR; `bs`: the bytes. -/
  | bar2Write (o : Nat) (bs : List Byte)
  /-- R474. A BAR0 DW write with partial byte enables is discarded and sets PARTWR. -/
  | bar0PartialWrite
  /-- R480. A host write of a ring doorbell sets PROD, or is a ring error when out of range. `r`:
  ring; `v`: the value. -/
  | ringDoorbell (r : Nat) (v : Word)
  /-- R481. An H2D MSG descriptor reads host bytes into cells and pushes one item to the ring's
  queue. `r`: ring; `d`: the descriptor; `data`: the bytes read from host memory; `err`: a
  PCIe error; `commit`: the descriptor is committed, else only begun. -/
  | ringH2dMsg (r : Nat) (d data : List Byte) (err commit : Bool)
  /-- R481. An H2D WRITE descriptor copies host memory to heartwood. As `ringH2dMsg`. -/
  | ringH2dWrite (r : Nat) (d data : List Byte) (err commit : Bool)
  /-- R481. An H2D READ descriptor copies heartwood to host memory. As `ringH2dMsg`. -/
  | ringH2dRead (r : Nat) (d : List Byte) (err commit : Bool)
  /-- R481. A D2H MSG descriptor pops an item into a host buffer, waiting for one if needed. As
  `ringH2dMsg`. -/
  | ringD2hMsg (r : Nat) (d : List Byte) (err commit : Bool)
  /-- R484. A host write to a signal doorbell delivers its value to the doorbell's target word.
  `k`: doorbell; `v`: the value. -/
  | signalDoorbell (k : Nat) (v : Word)
  /-- R477. A pending unmasked vector whose moderation interval has passed sends its message. `v`:
  the vector. -/
  | msixSend (v : Nat)
  /-- R485. A hot reset resets the PCIe core and rolls back uncommitted descriptors. -/
  | pcieHotReset
  /-- R485. Link down or PERST resets the PCIe core and rolls back uncommitted descriptors. -/
  | pcieLinkDown
  /-- R485. A Function Level Reset resets the PCIe core and rolls back uncommitted descriptors. -/
  | pcieFlr
  /-- R493. The PCIe link comes up or changes and a link-change event is raised. `speed`, `width`
  as HOST_STAT codes them, 0 for down; `c`: configuration space as the host leaves it. -/
  | pcieLinkChange (speed width : Nat) (c : PcieCfg)
  /-- R486. VBUS presence with EN set pulls D+ up, and its loss detaches. `vbus`: VBUS is present. -/
  | usbAttach (vbus : Bool)
  /-- R490. A USB bus reset abandons staged control writes and returns the image state to idle.
  `hs`: the hub allows high speed. -/
  | usbBusReset (hs : Bool)
  /-- R486. A standard USB request on EP0 is answered. The four fields of the SETUP packet. -/
  | usbStandardRequest (type req value len : Nat)
  /-- R488. Returns 32 bytes of identity, boot state and key hash. `len`: wLength. -/
  | getInfo (len : Nat)
  /-- R489. Opens an image download of a given length to a target. `target`: wValue; `n`: bytes of
  the data stage; `len`: the length they give. -/
  | imgBegin (target n len : Nat)
  /-- R489. Ends a download and raises an image event. `w`: its wLength, and what the flash does. -/
  | imgEnd (w : ImgEnd)
  /-- R488. Returns the image state, last code and bytes received. `len`: wLength. -/
  | getStatus (len : Nat)
  /-- R490. Stages a CSR write for commit at the status stage. `n`: bytes of the data stage; `o`,
  `v`: what they give. -/
  | regWrite (n : Nat) (o v : Word)
  /-- R490. A staged REG_WRITE is committed at the status ACK or the next SETUP. -/
  | regWriteCommit
  /-- R488. Returns the CSR value at the offset given by REG_ADDR. `index`: wIndex; `len`:
  wLength. -/
  | regRead (index len : Nat)
  /-- R488. Sets the CSR offset for REG_READ. `n`: bytes of the data stage; `o`: what they give. -/
  | regAddr (n : Nat) (o : Word)
  /-- R487. An EP1 OUT transfer becomes one item on the USB_CONRX queue. `bs`: the bytes. -/
  | usbConsoleOut (bs : List Byte)
  /-- R487. An EP1 IN token sends the next USB_CONTX item or NAK. -/
  | usbConsoleIn
  /-- R489. EP2 OUT data is written to the image buffer or stalled beyond its bounds. `bs`: the
  bytes. -/
  | usbImageData (bs : List Byte)
  /-- R491. Firmware queues the alarm report, replacing any pending one. -/
  | usbAlmgo
  /-- R491. An EP3 IN token sends and clears the pending alarm report. -/
  | usbAlarmIn
  /-- R492. After 3 ms of bus idle the device suspends. -/
  | usbSuspend
  /-- R492. Host resume signalling ends suspend, winning over a device wake. -/
  | usbResume
  /-- R492. A pending report in suspend drives 2 ms of resume signalling after 5 ms idle. `still`:
  the bus is still in resume at their end. -/
  | usbRemoteWake (still : Bool)
  /-- R499. In MODE 0b00 the Boot ROM orders the boot partitions' packages and verifies each until
  one starts. `w`: what the flash does. -/
  | bootSelect (w : FlashWorld)
  /-- R500. DEV_BOOTGO verifies and starts the package at DEV_BOOTADDR. -/
  | bootGo
  /-- R515. The boot assay tests engines, memories and coprocessors and zeroes the tested
  memories. `engs`: engines that fail, with the code of R526; `banks`: banks that fail, by
  group and bank. -/
  | quickAssay (engs banks : List (Nat × Nat))
  /-- R515. In MODE 0b11 the full assay runs once within 4 s. As `quickAssay`. -/
  | fullAssay (engs banks : List (Nat × Nat))
  /-- R505. A write setting DEV_CTL.RUN starts the device check. -/
  | runSet
  /-- R505. The device check accepts and sets RUN, or refuses with a code, and raises a RUN event. -/
  | runCheck
  /-- R505. A write clearing RUN is refused with channels enabled, or takes effect at the next
  tick. -/
  | runClear
  /-- R504. DEV_OTPCMD program writes an empty OTP key slot. -/
  | otpProgram (slot : BitVec 2)
  /-- R504. DEV_OTPCMD revoke revokes an OTP key slot. -/
  | otpRevoke (slot : BitVec 2)
  /-- R504. DEV_OTPCMD raises the OTP minimum SEQ. -/
  | otpRaiseMin
  /-- R521. A write of DEV_CFGKEY3 applies the fingerprint key and starts recomputation. -/
  | cfgkeyApply (v : Word)
  /-- R521. Fingerprint recomputation ends, clearing CFG_BUSY and raising the key-applied event. -/
  | cfgRecomputeDone
  /-- R521. A read of DEV_CFGDIG0 latches DEV_CFGDIG1–3. -/
  | cfgdigRead
  /-- R507. The Boot ROM enters reflector mode, shrinks the cell region, sets RUN and drives the
  minor alarm. -/
  | reflectorEnter
  /-- R508. MAC0 alternates between 25GBASE-R and 10GBASE-R every 2 s until link. -/
  | reflectorLinkTry
  /-- R508. The reflector sends DHCP discovers and falls back to a link-local address. `hear`: it takes
  the frame at the head of MAC0's FIFO; else its timers act. -/
  | reflectorDhcp (hear : Bool)
  /-- R510. A TWAMP-light test packet is reflected with compensated stamps. -/
  | twampReflect
  /-- R511. An RTP packet to a port 40,000–40,999 opens a reflector channel. -/
  | reflectorChannelOpen
  /-- R511. A reflector channel silent for 10 s closes. `c`: the channel. -/
  | reflectorChannelClose (c : Nat)
  /-- R512. Every 5 s each reflector channel sends an RTCP SR and XR. `c`: the channel. -/
  | reflectorRtcp (c : Nat)
  /-- R507. Every 10 s the craft console prints one status line. -/
  | reflectorStatusLine
  /-- R516. Every ENGINT seconds one voice engine is drained, saved, tested and restored, or
  skipped. `fail`: 0 passed, else the code of R526. -/
  | engineTest (fail : Nat)
  /-- R517. A 4 KiB grove-memory slice is saved, tested and restored. `g`: grove; `slice`: slice
  of 4 KiB. -/
  | groveSliceTest (g slice : Nat)
  /-- R518. A heartwood bank is copied to the spare, swapped in and tested. `at_`: the bank chosen
  by corrections, if any; `fail`: the old bank fails its test. -/
  | bankMigrate (at_ : Option BankHot) (fail : Bool)
  /-- R520. The unlock key and nonce complement written within 1 ms unlock ASSAY for the host. -/
  | assayUnlock (v : Word)
  /-- R520. The ASSAY unlock ends after 10 s without a host write. -/
  | assayUnlockExpire
  /-- R543. The island samples both feeds and updates their filtered values and states. `a`, `b`:
  the samples. -/
  | hvsFeedSample (a b : Nat)
  /-- R541. An island frame carries feed, contact and input state to the main die every 1 ms. -/
  | hvsIslandFrame
  /-- R541. 5 ms without an island frame clears ISLAND, sets LINKLOST and raises a link event. -/
  | hvsLinkLost
  /-- R541. Island frames resume, ISLAND is set, a link event raised and HVS_ALMOUT rewritten. -/
  | hvsLinkRestored
  /-- R541. After 1 s of link silence with LOSS_CRIT the island puts the critical output ON. -/
  | hvsLossCrit
  /-- R546. A write of HVS_ALMOUT commands the contacts within 50 µs, ending retries when opened. -/
  | hvsAlmoutWrite (v : Word)
  /-- R545. An output limiting for 2 ms opens, sets FAULT and may begin a fault episode. `n`:
  output. -/
  | outputLimitShutdown (n : Nat)
  /-- R545. An output switch reaching 150 °C opens at once and sets THERMAL and FAULT. `n`:
  output. -/
  | outputThermalShutdown (n : Nat)
  /-- R545. 100 ms after a fault opening the contact closes for up to 2 ms. `n`: output. -/
  | outputRetry (n : Nat)
  /-- R545. A retry running 2 ms without limiting recovers the output and raises an event. `n`:
  output. -/
  | outputRecovered (n : Nat)
  /-- R548. A debounced alarm input change updates STATE, sets CHG and may raise an event. `k`:
  input; `on`: its new state; `ms`: for how long it has stood. -/
  | alarmInputChange (k : Nat) (on : Bool) (ms : Nat)
  /-- R531. Both feeds falling below 30 V power the island off and open every contact, and their
  return powers it on. `on`: a feed is at 30 V or more. -/
  | islandPower (on : Bool)
  /-- R55. CLK10_IN appears, vanishes or crosses ±50 ppm, and TIME_STATE.C10_OK changes while no
  fallback action applies. `edge`: edges are there; `err`: error in 10⁻¹². -/
  | c10OkChange (edge : Bool) (err : Int)
  /-- R321. The PCS gains block lock on a running port, setting MACn_STAT.BLOCK_LOCK and starting
  the 1 ms that leads to LINK_UP. `n`: port. -/
  | pcsBlockLock (n : Nat)
  /-- R404. Sealing armed by ARM lapses when no SEAL follows within 1 s, clearing METER_STAT.ARMED
  and raising a state-change event. -/
  | meterArmExpire
  /-- R454. The mirror controller takes an item from the MIRR_USERQ queue and sends it to the peer
  as a sequenced USER frame. -/
  | mirrUserSend
  /-- R498. 20 ms after RESET_N rises the PCIe endpoint is enabled, and in MODE 0b10 USB_CTL.EN
  and REGEN are set. -/
  | pcieEndpointEnable
  /-- R545. The load current on an alarm output reaches or falls below its limit, setting or
  clearing HVS_ALMSTAT.LIMITINGn and starting or ending the 2 ms limit count. `n`: output;
  `on`: it limits. -/
  | outputCurrentLimit (n : Nat) (on : Bool)
  /-- R545. An output switch cools below 130 °C, clearing HVS_ALMSTAT.THERMALn so that retries may
  resume. `n`: output. -/
  | thermalLimitCleared (n : Nat)
  deriving DecidableEq, Repr

end Sys2Proof
end

