-- ==== Sys2Proof/Decode.lean ====
section
/-! DEFINITION. The command a word spells.  The block takes commands, not words: no row of the
table has bits, so no word spells one. -/

namespace Sys2Proof

/-- The command that `w`, of `nbits` bits, spells by the table: none, as the table gives no
row bits. -/
def decodeTableWord (nbits w : Nat) : Option Instr :=
  match nbits, w with
  | _, _ => none

end Sys2Proof
end

