-- ==== Sys2Proof/Machine/Base.lean ====
section
/-! DEFINITION. Operations that need no machine: sparse tables, bit fields of a
word, bytes in either order, sign extension, saturation and rounding. -/

namespace Sys2Proof.Machine

/-! ## Sparse tables -/

/-- The value at `k`: the listed one, else the default `d`. -/
def smapGet {α : Type} (d : α) (m : SMap α) (k : Nat) : α :=
  match m with
  | [] => d
  | (k', v) :: r => if k' = k then v else smapGet d r k

/-- The table without any pair at `k`. -/
def smapErase {α : Type} (m : SMap α) (k : Nat) : SMap α :=
  match m with
  | [] => []
  | (k', v) :: r => if k' = k then smapErase r k else (k', v) :: smapErase r k

/-- The table with the pair `(k, v)` before the first pair of a higher key. -/
def smapInsert {α : Type} (m : SMap α) (k : Nat) (v : α) : SMap α :=
  match m with
  | [] => [(k, v)]
  | (k', v') :: r => if k < k' then (k, v) :: (k', v') :: r else (k', v') :: smapInsert r k v

/-- The table with `v` at `k`: a default value is not listed, so equal tables are
equal lists. -/
def smapPut {α : Type} [DecidableEq α] (d : α) (m : SMap α) (k : Nat) (v : α) : SMap α :=
  if v = d then smapErase m k else smapInsert (smapErase m k) k v

/-- Keys strictly rising from `lo` on, and no listed value equal to its default. -/
def smapWfFrom {α : Type} [DecidableEq α] (d : Nat → α) (lo : Nat) (m : SMap α) : Bool :=
  match m with
  | [] => true
  | (k, v) :: r => decide (lo ≤ k) && decide (v ≠ d k) && smapWfFrom d (k + 1) r

/-- The canonical form of a sparse table. -/
def smapWf {α : Type} [DecidableEq α] (d : Nat → α) (m : SMap α) : Bool := smapWfFrom d 0 m

/-- The pairs of a table whose key lies in `lo ≤ k < hi`. -/
def smapRange {α : Type} (m : SMap α) (lo hi : Nat) : SMap α :=
  m.filter fun kv => decide (lo ≤ kv.1 ∧ kv.1 < hi)

/-! ## Bit fields -/

/-- Bits `hi`:`lo` of a word as a number (R5). -/
def fld (w : Word) (hi lo : Nat) : Nat := (w.toNat / 2 ^ lo) % 2 ^ (hi + 1 - lo)

/-- Bit `i` of a word. -/
def bitOf (w : Word) (i : Nat) : Bool := w.getLsbD i

/-- The word with ones in bits `hi`:`lo`. -/
def maskOf (hi lo : Nat) : Word := BitVec.ofNat 32 ((2 ^ (hi + 1 - lo) - 1) * 2 ^ lo)

/-- The word with bits `hi`:`lo` replaced by `v`. -/
def setFld (w : Word) (hi lo v : Nat) : Word :=
  (w &&& ~~~ maskOf hi lo) ||| BitVec.ofNat 32 ((v % 2 ^ (hi + 1 - lo)) * 2 ^ lo)

/-- The word with bit `i` set to `b`. -/
def setBit (w : Word) (i : Nat) (b : Bool) : Word := setFld w i i b.toNat

/-- 1 for true, shifted to bit `i`. -/
def boolBit (b : Bool) (i : Nat) : Nat := b.toNat * 2 ^ i

/-- A word from a number. -/
def wordOf (n : Nat) : Word := BitVec.ofNat 32 n

/-- A word from an integer, two's complement. -/
def wordOfInt (i : Int) : Word := BitVec.ofInt 32 i

/-- The `n`-bit two's complement value of a number. -/
def signed (n x : Nat) : Int := (BitVec.ofNat n x).toInt

/-- An integer held to the range `lo` to `hi`. -/
def clampInt (lo hi x : Int) : Int := if x < lo then lo else if hi < x then hi else x

/-- Quotient rounded to nearest, halves away from zero (R50, R53, R57). -/
def roundDiv (a : Int) (b : Nat) : Int :=
  if a < 0 then - ((2 * (-a) + b) / (2 * b)) else (2 * a + b) / (2 * b)

/-- A count that stops at `top`. -/
def satAdd (top a b : Nat) : Nat := min (a + b) top

/-! ## Bytes -/

/-- The low `n` bytes of a number, least significant first (R6). -/
def leBytes (n x : Nat) : List Byte :=
  match n with
  | 0 => []
  | n + 1 => BitVec.ofNat 8 x :: leBytes n (x / 256)

/-- The low `n` bytes of a number, most significant first (R6). -/
def beBytes (n x : Nat) : List Byte := (leBytes n x).reverse

/-- The number of a list of bytes, least significant first. -/
def leNat (l : List Byte) : Nat :=
  match l with
  | [] => 0
  | b :: r => b.toNat + 256 * leNat r

/-- The number of a list of bytes, most significant first. -/
def beNat (l : List Byte) : Nat := leNat l.reverse

/-- `n` zero bytes. -/
def zeros (n : Nat) : List Byte := List.replicate n 0

/-- The list cut or padded with zeros to `n` bytes. -/
def padTo (n : Nat) (l : List Byte) : List Byte := l.take n ++ zeros (n - l.length)

/-- Byte `i` of a list as a number, zero past its end. -/
def byteAt (l : List Byte) (i : Nat) : Nat := (l.getD i 0).toNat

/-- `n` bytes at `i`, least significant first, as a number. -/
def leAt (l : List Byte) (i n : Nat) : Nat := leNat (padTo n (l.drop i))

/-- `n` bytes at `i`, most significant first, as a number. -/
def beAt (l : List Byte) (i n : Nat) : Nat := beNat (padTo n (l.drop i))

/-- The list with the bytes `v` from position `i` on. -/
def putBytes (l : List Byte) (i : Nat) (v : List Byte) : List Byte :=
  l.take i ++ v ++ l.drop (i + v.length)

/-! ## Other list helpers -/

/-- A number put into a rising list. -/
def insertRising (l : List Nat) (n : Nat) : List Nat :=
  match l with
  | [] => [n]
  | x :: r => if n < x then n :: x :: r else if n = x then x :: r else x :: insertRising r n

/-- The list cut into groups of `n`, with fuel. -/
def chunksFuel {α : Type} (fuel n : Nat) (l : List α) : List (List α) :=
  match fuel with
  | 0 => []
  | f + 1 => if l.isEmpty then [] else l.take n :: chunksFuel f n (l.drop n)

/-- The list cut into groups of `n`. -/
def chunks {α : Type} (n : Nat) (l : List α) : List (List α) := chunksFuel l.length n l

/-- A 64-bit NFN or address extended from its low 32 bits: the value with those
low bits from `c` − 2³¹ to `c` + 2³¹ − 1 (R41). -/
def extend32 (c : Nat) (low : Nat) : Int :=
  let d : Int := ((low : Int) - (c : Int)) % 4294967296
  if d ≥ 2147483648 then (c : Int) + d - 4294967296 else (c : Int) + d

/-! ## Numbers found by halving -/

/-- The largest of the 2^`k` numbers from `lo` on for which `p` holds, where `p` holds at
`lo` and, once false, stays false. -/
def lastWith (p : Nat → Bool) (k lo : Nat) : Nat :=
  match k with
  | 0 => lo
  | k + 1 => if p (lo + 2 ^ k) then lastWith p k (lo + 2 ^ k) else lastWith p k lo

/-- The square root of a number below 2⁶⁴, rounded down. -/
def rootOf (n : Nat) : Nat := lastWith (fun x => decide (x * x ≤ n)) 32 0

/-- The power of a level of `l` dB below 0 dBm0 in units of 2⁻³⁰ of full scale, rounded
down: a full-scale sine, of mean square 2²⁹, is +3.14 dBm0 (R282), so it is
2²⁹ × 10^(−(157 + 50 l)/500).
DEDUCED, log entry 166. -/
def levelPower (l : Nat) : Nat := lastWith (fun p => decide (p ^ 500 * 10 ^ (157 + 50 * l) ≤ 2 ^ 14500)) 29 0

/-- 10 log10 (a / b) in units of 1/256 dB, rounded down, for powers of at most 32 bits
above 0. -/
def decibels (a b : Nat) : Int :=
  (lastWith (fun m => decide (10 ^ m * b ^ 2560 ≤ a ^ 2560 * 10 ^ 32768)) 16 0 : Nat) - 32768

end Sys2Proof.Machine
end

