-- ==== Sys2Proof/Machine/Flags.lean ====
section
/-! DEFINITION. What Lemgil arithmetic computes: results with their flags (R80, R81,
R122), the 40-bit accumulator rules (R82, R83), rounding and saturation of accumulator
stores (R84), and the branch conditions (R132). -/

namespace Sys2Proof.Machine

/-- The flags an instruction writes; `none` leaves a flag as it is (R122). -/
structure FlagWrite where
  z : Option Bool
  n : Option Bool
  c : Option Bool
  v : Option Bool
  deriving DecidableEq, Repr

/-- No flag written. -/
def noFlags : FlagWrite := ⟨none, none, none, none⟩

/-- Z and N of a result. -/
def flagsZN (r : Word) : FlagWrite := ⟨some (r == 0), some r.msb, none, none⟩

/-- Z, N, C and V of a result. -/
def flagsZNCV (r : Word) (c v : Bool) : FlagWrite := ⟨some (r == 0), some r.msb, some c, some v⟩

/-- One flag of ST. -/
def putFlag (st : Word) (i : Nat) (f : Option Bool) : Word :=
  match f with
  | none => st
  | some b => setBit st i b

/-- ST with the flags written: Z bit 0, N bit 1, C bit 2, V bit 3 (R80). -/
def putFlags (st : Word) (f : FlagWrite) : Word :=
  putFlag (putFlag (putFlag (putFlag st 0 f.z) 1 f.n) 2 f.c) 3 f.v

/-- Whether an integer fits 32 bits signed. -/
def fits32 (x : Int) : Bool := decide (-2147483648 ≤ x) && decide (x < 2147483648)

/-- An integer saturated to 32 bits. -/
def sat32 (x : Int) : Int := clampInt (-2147483648) 2147483647 x

/-- Addition; `sat` saturates on overflow (R122). -/
def aluAdd (sat : Bool) (a b : Word) : Word × FlagWrite :=
  let x := a.toInt + b.toInt
  let v := ! fits32 x
  let r := if sat && v then wordOfInt (sat32 x) else a + b
  (r, flagsZNCV r (decide (a.toNat + b.toNat ≥ 4294967296)) v)

/-- Subtraction; C is 1 when no borrow occurs (R80, R122). -/
def aluSub (sat : Bool) (a b : Word) : Word × FlagWrite :=
  let x := a.toInt - b.toInt
  let v := ! fits32 x
  let r := if sat && v then wordOfInt (sat32 x) else a - b
  (r, flagsZNCV r (decide (b.toNat ≤ a.toNat)) v)

/-- A result that sets Z and N only. -/
def aluZN (r : Word) : Word × FlagWrite := (r, flagsZN r)

/-- Left shift by 0–63 (R122). -/
def shiftLeft (a : Word) (n : Nat) : Word := if n ≥ 32 then 0 else a <<< n

/-- Logical right shift by 0–63. -/
def shiftRight (a : Word) (n : Nat) : Word := if n ≥ 32 then 0 else a >>> n

/-- Arithmetic right shift by 0–63. -/
def shiftArith (a : Word) (n : Nat) : Word := a.sshiftRight (min n 31)

/-- ABS: 0x8000_0000 gives 0x7FFF_FFFF with V 1 (R122). -/
def aluAbs (a : Word) : Word × FlagWrite :=
  let v := a == 0x80000000#32
  let r := if v then 0x7FFFFFFF#32 else if a.msb then 0 - a else a
  (r, ⟨some (r == 0), some r.msb, none, some v⟩)

/-- Count of leading zeros, 0–32. -/
def leadZeros (a : Word) : Nat := if a = 0 then 32 else 31 - Nat.log2 a.toNat

/-- Signed minimum. -/
def sMin (a b : Word) : Word := if a.toInt ≤ b.toInt then a else b

/-- Signed maximum. -/
def sMax (a b : Word) : Word := if a.toInt ≤ b.toInt then b else a

/-- Whether an integer fits the 40-bit accumulator. -/
def fits40 (x : Int) : Bool := decide (-549755813888 ≤ x) && decide (x < 549755813888)

/-- The accumulator rule of R83: the value and whether AV is set. -/
def accum (asat : Bool) (x : Int) : BitVec 40 × Bool :=
  if fits40 x then (BitVec.ofInt 40 x, false)
  else if asat then (if x < 0 then 0x8000000000#40 else 0x7FFFFFFFFF#40, true)
  else (BitVec.ofInt 40 x, true)

/-- The signed 16-bit half of a register that a multiply reads (R82). -/
def halfOf (w : Word) (high : Bool) : Int :=
  signed 16 (if high then w.toNat / 65536 else w.toNat % 65536)

/-- The product of R82, doubled in fractional mode. -/
def product (frac : Bool) (x y : Int) : Int := if frac then 2 * (x * y) else x * y

/-- Rounding at bit 15 (R84). -/
def roundAcc (convergent : Bool) (a : BitVec 40) : Int :=
  if convergent ∧ a.toNat % 65536 = 0x8000 ∧ a.getLsbD 16 = false then a.toInt
  else a.toInt + 0x8000

/-- The 16-bit store value of an accumulator and whether SS is set (R84). -/
def acc16 (round convergent : Bool) (a : BitVec 40) : BitVec 16 × Bool :=
  let x := if round then roundAcc convergent a else a.toInt
  (BitVec.ofInt 16 (sat32 x / 65536), ! fits32 x)

/-- The 32-bit store value of an accumulator and whether SS is set (R84). -/
def acc32 (a : BitVec 40) : Word × Bool := (wordOfInt (sat32 a.toInt), ! fits32 a.toInt)

/-- ASH: As × 2^SH under R83, or floor(As / 2^−SH) (R126). -/
def ashValue (asat : Bool) (a : BitVec 40) (sh : BitVec 6) : BitVec 40 × Bool :=
  if sh.toInt < 0 then (BitVec.ofInt 40 (a.toInt / (2 ^ (-sh.toInt).toNat : Int)), false)
  else accum asat (a.toInt * (2 ^ sh.toInt.toNat : Int))

/-- The branch conditions; `none` for the undefined code 15 (R132). -/
def condHolds (cond : Nat) (st : Word) : Option Bool :=
  let z := bitOf st 0
  let n := bitOf st 1
  let c := bitOf st 2
  let v := bitOf st 3
  match cond with
  | 0 => some true
  | 1 => some z
  | 2 => some (!z)
  | 3 => some c
  | 4 => some (!c)
  | 5 => some n
  | 6 => some (!n)
  | 7 => some v
  | 8 => some (!v)
  | 9 => some (c && !z)
  | 10 => some (!c || z)
  | 11 => some (n == v)
  | 12 => some (n != v)
  | 13 => some (!z && n == v)
  | 14 => some (z || n != v)
  | _ => none

end Sys2Proof.Machine
end

