-- ==== Sys2Proof/Config.lean ====
section
/-! DEFINITION. What the spec leaves to an implementation and the free values: each
is a constant without a body, so nothing proved of the model rests on its value. -/

namespace Sys2Proof.Config

/-- A free number for each use, drawn with a counter of the state: which free cell
the clearing gives out and which free matching-store entry an instance takes, where
R158 and R291 name none (DESIGN CHOICE, log entry 3). -/
opaque freePick : Nat → Nat

/-- The 96-bit RTP header of a CESoPSN packet sent for pseudowire entry and departure
tick, where RTPHDR is 1: R309 says that it comes from a template tail kept by firmware and
not where (DESIGN CHOICE, log entry 18). -/
opaque cesRtp : Nat → Nat → Nat

/-- The device's OTP root secret, from which R349 derives the device's P-256 key; the
spec gives neither the secret nor the derivation (DESIGN CHOICE, log entry 19). -/
opaque otpRoot : Nat

/-- What the crucible puts out and keeps of a V.44 stream, and what a failed request leaves in its
destination, where the spec gives no bytes (DESIGN CHOICE, log entry 20). -/
opaque crucBytes : Nat → List Byte

/-- Free bits for the header of a dynamic block, by draw and block: R368 does not say which
codes a dynamic block uses (DESIGN CHOICE, log entry 20). -/
opaque crucHead : Nat → Nat → List Bool

/-- A free number for each use in the crucible: bytes used and errors of a V.44 stream, CONSUMED
after code 0x07, and busy cycles (DESIGN CHOICE, log entry 20). -/
opaque crucNum : Nat → Nat

/-- The blocks whose erase fails, and whether a target times out, for a command that carries no word
on what the flash does (R404, R422, R428), by draw (DESIGN CHOICE, log entry 190). -/
opaque flashFails : Nat → List Nat
opaque flashTimeout : Nat → Bool

/-- The meter's OTP root secret as the P-256 private key that R407 derives from it; the
spec gives neither the secret nor the derivation (DESIGN CHOICE, log entry 21). -/
opaque meterRoot : Nat

/-- The hallmark key drawn from the meter's random bit generator at sealing (R404), for
each count of free values drawn (DESIGN CHOICE, log entry 21). -/
opaque meterHmk : Nat → Nat

/-- The SHA-256 of the meter's mask ROM (R406), which the spec does not give
(DESIGN CHOICE, log entry 21). -/
opaque meterRom : Nat

/-- A free number for each use in the meter: what is lost with the backup supply, and the
error of a time snapshot within its bound (DESIGN CHOICE, log entry 21). -/
opaque meterNum : Nat → Nat

/-- Bytes of a raw flash page that the spec does not give: BCH parity, and sectors whose
cells hold errors (DESIGN CHOICE, log entry 23). -/
opaque rawBytes : Nat → List Byte

/-- A free number for each use in the echo canceller array: smoothed powers, roundings that
R193 to R207 do not give, the precision of the gain, and busy cycles (DESIGN CHOICE, log entry 24). -/
opaque ecaNum : Nat → Nat

/-- 10 log10 in Q8.8 dB of the ratio of two powers one of which is zero, for which R202
states no result (DESIGN CHOICE, log entry 24). -/
opaque ecaDb : Nat → Nat → Int

/-- A decimated sample of the bulk-delay estimator: of the decimation factor and the last
16 samples, newest first; R197 does not give the filter (DESIGN CHOICE, log entry 24). -/
opaque ecaDecim : Nat → List Int → Int

/-- The frequency in millihertz that the tone disabler reads in a block at a rate in kHz;
R207 does not give the detector (DESIGN CHOICE, log entry 24). -/
opaque toneHz : Nat → List Int → Nat

/-- The step of the tone's phase in degrees that the tone disabler sees in a block against
the state it keeps, and that state after the block (DESIGN CHOICE, log entry 24). -/
opaque toneStep : Nat → List Int → Nat
opaque toneKeep : Nat → List Int → Nat

/-- The prototype of the resampler in Q1.15, by INRATE, OUTRATE, phase and tap: R227 gives its
response and not its coefficients (DESIGN CHOICE, log entry 25). -/
opaque rsfProto : Nat → Nat → Nat → Nat → Int

/-- A free number for each use in the resampler: busy cycles and words of a state block that
could not be read (DESIGN CHOICE, log entry 25). -/
opaque rsfNum : Nat → Nat

/-- Bytes of the Media ROM that the spec does not give: the code of the kernels and the
default chain images (DESIGN CHOICE, log entry 26). -/
opaque romByte : Nat → Byte

/-- Where the Media ROM's directory places what it lists: 0 the template records, 1 the
default chain images, 2 + i the kernel in row i of R281 (DESIGN CHOICE, log entry 26). -/
opaque romPlace : Nat → Nat

/-- What a kernel of the Media ROM makes of its state and its input in a mode: its output, and its
new state (R281; DESIGN CHOICE, log entry 26). -/
opaque kernelOut : Nat → Nat → List Byte → List Byte → List Byte
opaque kernelNext : Nat → Nat → List Byte → List Byte → List Byte

/-- A block of a tone: its frequencies in Hz, the power of each, a kind (0 steady, 1 modulated, 2
modulated with its phase reversed, 3 by a cadence table), the table, and its number since the tone
began.  R281 gives level and frequency within limits and no waveform (DESIGN CHOICE, log entry 26). -/
opaque toneWave : List Nat → Nat → Nat → List Byte → Nat → List Byte

/-- A free number for each draw and use by a kernel: registers it does not preserve, its error
codes, and the sequence numbers, timestamps and SSRC that the standard templates begin with
(R116, R280; DESIGN CHOICE, log entry 26). -/
opaque kernelTemp : Nat → Nat → Nat

/-- What a close that was not orderly leaves in an EC record (R270; DESIGN CHOICE, log entry 176). -/
opaque ecLeft : Nat → List Byte

/-- What R281 leaves open of row i of the kernel table: its version, its state size and its
cycles (DESIGN CHOICE, log entry 26). -/
opaque romNum : Nat → Nat → Nat

/-- The bitwise secret of the unlock sequence: ASSAY_NONCE after so many attempts, which
R528 calls random (DESIGN CHOICE, log entry 27). -/
opaque assayNonce : Nat → BitVec 32

/-- The eye height that SERDES_RX.EYE estimates on a port with block lock at an elapsed time:
R340 gives its scale and not its value (DESIGN CHOICE, log entry 168). -/
opaque macEye : Nat → Nat → Nat

/-- The station address of MAC0 in OTP (R508; DESIGN CHOICE, log entry 28). -/
opaque stationAddr : Nat

/-- A free number for each use in reflector mode: the address taken under RFC 3927, the
SSRC of a channel, the error estimate of TWAMP, and report figures (DESIGN CHOICE, log entry 28). -/
opaque reflNum : Nat → Nat

/-- A free number for each draw and use by the PTP slave of reflector mode: the frequency
its servo writes, and whether it locks (R509; DESIGN CHOICE, log entry 177). -/
opaque ptpServo : Nat → Nat → Nat

/-- The text of a status line of reflector mode (DESIGN CHOICE, log entry 28). -/
opaque reflLine : Nat → List Byte

/-- What a reader without a rule for it sees of a byte whose protected word is uncorrectable
(R557): a free value for each draw and address (DESIGN CHOICE, log entry 29). -/
opaque badByte : Nat → Nat → Byte

/-- The 32 bytes of GET_INFO, whose layout R488 does not give, as a function of DEV_ID,
DEV_BOOT, the Media ROM version and the first 8 bytes of the key hash (PRESUMED, log entry 30). -/
opaque usbInfo : Word → Word → Nat → List Byte → List Byte

/-- Bytes of the standard USB descriptors that R486 does not give: bcdDevice, bInterval of
the bulk endpoints and string indices (PRESUMED, log entry 30). -/
opaque usbNum : Nat → Nat

/-- The Device Serial Number that OTP gives the PCIe function (R472; PRESUMED, log entry 191). -/
opaque pcieSerial : BitVec 64

end Sys2Proof.Config
end

