-- ==== Sys2Proof/Machine/Regs.lean ====
section
/-! DEFINITION. The register map: for every CSR the spec describes, its offset in
CSR space (R34), the count and spacing of its copies, its reset value and the bits of
each register type (R10).  The rule that names each register stands beside its row;
the offsets also have names. -/

namespace Sys2Proof.Machine

/-- A row of the register map.  `rw`, `w1c`, `rc` and `seals` are the bits of those
types; bits of type WO read zero and are not stored, and every other bit is RO or
reserved (R10, R11).  `cnt64` marks the _LO word of a 64-bit counter, whose _HI word
follows it. -/
structure RegRow where
  off : Nat
  count : Nat
  stride : Nat
  reset : Nat
  rw : Nat
  w1c : Nat
  rc : Nat
  seals : Nat
  cnt64 : Bool
  deriving DecidableEq, Repr

/-- A row of an ordinary register. -/
def regRow (off count stride reset rw w1c rc seals : Nat) : RegRow :=
  ⟨off, count, stride, reset, rw, w1c, rc, seals, false⟩

/-- A row of a 64-bit counter. -/
def cntRow (off count stride : Nat) : RegRow := ⟨off, count, stride, 0, 0, 0, 0, 0, true⟩

/-! ### DEV (17_boot_assay_faults.md) -/

/-- DEV_ID: R527. -/
def offDevId : Nat := 0x000000
/-- DEV_CTL: R527. -/
def offDevCtl : Nat := 0x000004
/-- DEV_STAT: R527. -/
def offDevStat : Nat := 0x000008
/-- DEV_BOOT: R527. -/
def offDevBoot : Nat := 0x00000C
/-- DEV_BOOTADDR: R527. -/
def offDevBootaddr : Nat := 0x000010
/-- DEV_BOOTGO: R527. -/
def offDevBootgo : Nat := 0x000014
/-- DEV_CAP_CHAN: R527. -/
def offDevCapChan : Nat := 0x000020
/-- DEV_CAP_ECU: R527. -/
def offDevCapEcu : Nat := 0x000024
/-- DEV_CAP_ECREC: R527. -/
def offDevCapEcrec : Nat := 0x000028
/-- DEV_CAP_MR: R527. -/
def offDevCapMr : Nat := 0x00002C
/-- DEV_USE_CHAN: R527. -/
def offDevUseChan : Nat := 0x000030
/-- DEV_USE_ECU: R527. -/
def offDevUseEcu : Nat := 0x000034
/-- DEV_USE_ECREC: R527. -/
def offDevUseEcrec : Nat := 0x000038
/-- DEV_USE_MR: R527. -/
def offDevUseMr : Nat := 0x00003C
/-- DEV_CFGDIG: R527. -/
def offDevCfgdig : Nat := 0x000040
/-- DEV_CFGKEY: R527. -/
def offDevCfgkey : Nat := 0x000050
/-- DEV_FSUM: R527. -/
def offDevFsum : Nat := 0x000060
/-- DEV_OTPINFO: R527. -/
def offDevOtpinfo : Nat := 0x000070
/-- DEV_OTPMIN: R527. -/
def offDevOtpmin : Nat := 0x000074
/-- DEV_OTPDATA: R527. -/
def offDevOtpdata : Nat := 0x000080
/-- DEV_OTPCMD: R527. -/
def offDevOtpcmd : Nat := 0x0000A0
/-- DEV_OTPSTAT: R527. -/
def offDevOtpstat : Nat := 0x0000A4
/-- DEV_KEYSEL: R527. -/
def offDevKeysel : Nat := 0x0000B0
/-- DEV_KEYHASH: R527. -/
def offDevKeyhash : Nat := 0x0000B4
/-- DEV_HWL_CHAN: R28. -/
def offDevHwlChan : Nat := 0x000100
/-- DEV_HWL_EC: R28. -/
def offDevHwlEc : Nat := 0x000104
/-- DEV_HWL_CELL: R28. -/
def offDevHwlCell : Nat := 0x000108

/-- Rows of the DEV block, offsets within the block. -/
def regsDev0 : List RegRow := [
  regRow 0x0 1 0x0 0x71600100 0x0 0x0 0x0 0x0,
  regRow 0x4 1 0x0 0x0 0x1 0x0 0x0 0x0,
  regRow 0x8 1 0x0 0x0 0x0 0x0 0x0 0x0,
  regRow 0xC 1 0x0 0xF0000000 0x0 0x0 0x0 0x0,
  regRow 0x10 1 0x0 0x0 0xFFFFFFFF 0x0 0x0 0x0,
  regRow 0x14 1 0x0 0x0 0x0 0x0 0x0 0x0,
  regRow 0x20 1 0x0 0x4000 0x0 0x0 0x0 0x0,
  regRow 0x24 1 0x0 0x1C2000 0x0 0x0 0x0 0x0,
  regRow 0x28 1 0x0 0x4000 0x0 0x0 0x0 0x0,
  regRow 0x2C 1 0x0 0x100 0x0 0x0 0x0 0x0,
  regRow 0x30 1 0x0 0x0 0x0 0x0 0x0 0x0,
  regRow 0x34 1 0x0 0x0 0x0 0x0 0x0 0x0,
  regRow 0x38 1 0x0 0x0 0x0 0x0 0x0 0x0,
  regRow 0x3C 1 0x0 0x0 0x0 0x0 0x0 0x0,
  regRow 0x40 4 0x4 0x0 0x0 0x0 0x0 0x0,
  regRow 0x50 4 0x4 0x0 0x0 0x0 0x0 0x0,
  regRow 0x60 1 0x0 0x0 0x0 0xFFFFFF 0x0 0x0,
  regRow 0x70 1 0x0 0x0 0x0 0x0 0x0 0x0,
  regRow 0x74 1 0x0 0x0 0x0 0x0 0x0 0x0,
  regRow 0x80 8 0x4 0x0 0xFFFFFFFF 0x0 0x0 0x0,
  regRow 0xA0 1 0x0 0x0 0x0 0x0 0x0 0x0,
  regRow 0xA4 1 0x0 0x0 0x0 0x80000000 0x0 0x0,
  regRow 0xB0 1 0x0 0x0 0x3 0x0 0x0 0x0,
  regRow 0xB4 8 0x4 0x0 0x0 0x0 0x0 0x0]

/-- Rows of the DEV block, offsets within the block. -/
def regsDev1 : List RegRow := [
  regRow 0x100 1 0x0 0x4000000 0xFFF0FFF 0x0 0x0 0x0,
  regRow 0x104 1 0x0 0x4000400 0xFFF0FFF 0x0 0x0 0x0,
  regRow 0x108 1 0x0 0x2000800 0xFFF0FFF 0x0 0x0 0x0]

/-- Every row of the DEV block. -/
def regsDev : List RegRow := regsDev0 ++ regsDev1

/-! ### TIME (02_timebase.md) -/

/-- TIME_CTL: R67. -/
def offTimeCtl : Nat := 0x020000
/-- TIME_STATE: R67. -/
def offTimeState : Nat := 0x020004
/-- TIME_SERVO: R67. -/
def offTimeServo : Nat := 0x020008
/-- TIME_FREQ: R67. -/
def offTimeFreq : Nat := 0x020010
/-- TIME_FREQ_AVG: R67. -/
def offTimeFreqAvg : Nat := 0x020014
/-- TIME_PHASE_ADJ: R67. -/
def offTimePhaseAdj : Nat := 0x020018
/-- TIME_PHASE_REM: R67. -/
def offTimePhaseRem : Nat := 0x02001C
/-- TIME_SLEW: R67. -/
def offTimeSlew : Nat := 0x020020
/-- TIME_STEP_LO: R67. -/
def offTimeStepLo : Nat := 0x020028
/-- TIME_STEP_HI: R67. -/
def offTimeStepHi : Nat := 0x02002C
/-- TIME_NFN_LO: R58. -/
def offTimeNfnLo : Nat := 0x020030
/-- TIME_NFN_HI: R58. -/
def offTimeNfnHi : Nat := 0x020034
/-- TIME_SNAP_TS32: R58. -/
def offTimeSnapTs32 : Nat := 0x020038
/-- TIME_SNAP_FRAC: R58. -/
def offTimeSnapFrac : Nat := 0x02003C
/-- TIME_SNAP_PTP_NS: R58. -/
def offTimeSnapPtpNs : Nat := 0x020040
/-- TIME_SNAP_PTP_SEC_LO: R58. -/
def offTimeSnapPtpSecLo : Nat := 0x020044
/-- TIME_SNAP_PTP_SEC_HI: R58. -/
def offTimeSnapPtpSecHi : Nat := 0x020048
/-- TIME_NFN_OFS_LO: R58. -/
def offTimeNfnOfsLo : Nat := 0x020050
/-- TIME_NFN_OFS_HI: R58. -/
def offTimeNfnOfsHi : Nat := 0x020054
/-- TIME_C10_STAT: R67. -/
def offTimeC10Stat : Nat := 0x020060
/-- TIME_PPS_CTL: R67. -/
def offTimePpsCtl : Nat := 0x020070
/-- TIME_PPS_OFS: R67. -/
def offTimePpsOfs : Nat := 0x020074
/-- TIME_TSIN_CTL: R67. -/
def offTimeTsinCtl : Nat := 0x020080
/-- TIME_TSIN_MISS: R67. -/
def offTimeTsinMiss : Nat := 0x020084
/-- TIME_PORT_TXLAT: R67. -/
def offTimePortTxlat : Nat := 0x020100
/-- TIME_PORT_RXLAT: R67. -/
def offTimePortRxlat : Nat := 0x020104
/-- TIME_PORT_ASYM: R67. -/
def offTimePortAsym : Nat := 0x020108
/-- TIME_PTPQ: R67. -/
def offTimePtpq : Nat := 0x020200

/-- Rows of the TIME block, offsets within the block. -/
def regsTime0 : List RegRow := [
  regRow 0x0 1 0x0 0x14000000 0xFF03010F 0x0 0x0 0x0,
  regRow 0x4 1 0x0 0x200 0x0 0xC000 0x0 0x0,
  regRow 0x8 1 0x0 0x0 0x0 0x0 0x0 0x0,
  regRow 0x10 1 0x0 0x0 0xFFFFFFFF 0x0 0x0 0x0,
  regRow 0x14 1 0x0 0x0 0x0 0x0 0x0 0x0,
  regRow 0x18 1 0x0 0x0 0x0 0x0 0x0 0x0,
  regRow 0x1C 1 0x0 0x0 0x0 0x0 0x0 0x0,
  regRow 0x20 1 0x0 0x640064 0x3FF03FF 0x0 0x0 0x0,
  regRow 0x28 1 0x0 0x0 0xFFFFFFFF 0x0 0x0 0x0,
  regRow 0x2C 1 0x0 0x0 0xFFFFFFFF 0x0 0x0 0x0,
  regRow 0x30 1 0x0 0x0 0x0 0x0 0x0 0x0,
  regRow 0x34 1 0x0 0x0 0x0 0x0 0x0 0x0,
  regRow 0x38 1 0x0 0x0 0x0 0x0 0x0 0x0,
  regRow 0x3C 1 0x0 0x0 0x0 0x0 0x0 0x0,
  regRow 0x40 1 0x0 0x0 0x0 0x0 0x0 0x0,
  regRow 0x44 1 0x0 0x0 0x0 0x0 0x0 0x0,
  regRow 0x48 1 0x0 0x0 0x0 0x0 0x0 0x0,
  regRow 0x50 1 0x0 0x0 0x0 0x0 0x0 0x0,
  regRow 0x54 1 0x0 0x0 0x0 0x0 0x0 0x0,
  regRow 0x60 1 0x0 0x0 0x0 0x0 0x0 0x0,
  regRow 0x70 1 0x0 0x3200004 0x1FFF0007 0x0 0x0 0x0,
  regRow 0x74 1 0x0 0x0 0xFFFFFFFF 0x0 0x0 0x0,
  regRow 0x80 4 0x8 0x0 0xFF07 0x0 0x0 0x0,
  regRow 0x84 4 0x8 0x0 0x0 0x0 0xFFFF 0x0]

/-- Rows of the TIME block, offsets within the block. -/
def regsTime1 : List RegRow := [
  regRow 0x100 4 0x10 0x268 0xFFFF 0x0 0x0 0x0,
  regRow 0x104 4 0x10 0x34C 0xFFFF 0x0 0x0 0x0,
  regRow 0x108 4 0x10 0x0 0xFFFFFFFF 0x0 0x0 0x0,
  regRow 0x200 1 0x0 0x0 0x8000FFFF 0x0 0x0 0x0]

/-- Every row of the TIME block. -/
def regsTime : List RegRow := regsTime0 ++ regsTime1

/-! ### DISP (05_dispatcher.md) -/

/-- DISP_CTL: R179. -/
def offDispCtl : Nat := 0x030000
/-- DISP_STAT: R179. -/
def offDispStat : Nat := 0x030004
/-- DISP_BP: R179. -/
def offDispBp : Nat := 0x030008
/-- DISP_MS_FREE: R179. -/
def offDispMsFree : Nat := 0x03000C
/-- DISP_MS_HWM: R179. -/
def offDispMsHwm : Nat := 0x030010
/-- DISP_MS_ECC: R179. -/
def offDispMsEcc : Nat := 0x030014
/-- DISP_LIST: R179. -/
def offDispList : Nat := 0x030020
/-- DISP_CLASS: R179. -/
def offDispClass : Nat := 0x030040
/-- DISP_TMPL_SEL: R179. -/
def offDispTmplSel : Nat := 0x030060
/-- DISP_TMPL_A: R179. -/
def offDispTmplA : Nat := 0x030064
/-- DISP_TMPL_B: R179. -/
def offDispTmplB : Nat := 0x030068
/-- DISP_TMPL_CMD: R179. -/
def offDispTmplCmd : Nat := 0x03006C
/-- DISP_TMPL_STAT: R179. -/
def offDispTmplStat : Nat := 0x030070
/-- DISP_RELSEL: R179. -/
def offDispRelsel : Nat := 0x030080
/-- DISP_REL: R179. -/
def offDispRel : Nat := 0x030084
/-- DISP_PURGE: R179. -/
def offDispPurge : Nat := 0x0300A0
/-- DISP_PURGE_STAT: R179. -/
def offDispPurgeStat : Nat := 0x0300A4
/-- DISP_FREE: R179. -/
def offDispFree : Nat := 0x0300B0
/-- DISP_FREE_STAT: R179. -/
def offDispFreeStat : Nat := 0x0300B4
/-- DISP_TMR_CTL: R179. -/
def offDispTmrCtl : Nat := 0x030100
/-- DISP_TMR_PHASE: R179. -/
def offDispTmrPhase : Nat := 0x030104
/-- DISP_TMR_TGT: R179. -/
def offDispTmrTgt : Nat := 0x030108
/-- DISP_TMR_SKIP: R179. -/
def offDispTmrSkip : Nat := 0x03010C
/-- DISP_DLK_SET: R179. -/
def offDispDlkSet : Nat := 0x030400
/-- DISP_TAKEN: R179. -/
def offDispTaken : Nat := 0x030800
/-- DISP_RELS: R179. -/
def offDispRels : Nat := 0x030808
/-- DISP_SKIP: R179. -/
def offDispSkip : Nat := 0x030810
/-- DISP_UNDEL: R179. -/
def offDispUndel : Nat := 0x030818
/-- DISP_MERGE: R179. -/
def offDispMerge : Nat := 0x030820
/-- DISP_BPCYC: R179. -/
def offDispBpcyc : Nat := 0x030828
/-- DISP_MSERR: R179. -/
def offDispMserr : Nat := 0x030830
/-- DISP_LATE: R179. -/
def offDispLate : Nat := 0x030900
/-- DISP_OVR: R179. -/
def offDispOvr : Nat := 0x030908
/-- DISP_CHK_ACC: R287. -/
def offDispChkAcc : Nat := 0x030A00
/-- DISP_CHK_REF: R287. -/
def offDispChkRef : Nat := 0x030A08
/-- DISP_CHK_LAST: R287. -/
def offDispChkLast : Nat := 0x030A10
/-- DISP_CHK_PEND: R287. -/
def offDispChkPend : Nat := 0x030A14
/-- DISP_CHK_CLOSE: R287. -/
def offDispChkClose : Nat := 0x030A18

/-- Rows of the DISP block, offsets within the block. -/
def regsDisp0 : List RegRow := [
  regRow 0x0 1 0x0 0xA0000004 0xE000000F 0x0 0x0 0x0,
  regRow 0x4 1 0x0 0x0 0x0 0x0 0x0 0x0,
  regRow 0x8 1 0x0 0x4001000 0xFFFFFFFF 0x0 0x0 0x0,
  regRow 0xC 1 0x0 0x10000 0x0 0x0 0x0 0x0,
  regRow 0x10 1 0x0 0x0 0x0 0x0 0x1FFFF 0x0,
  regRow 0x14 1 0x0 0x0 0x0 0x0 0xFFFF 0x0,
  regRow 0x20 8 0x4 0xFFFF 0xFFFF 0x0 0x0 0x0,
  regRow 0x40 8 0x4 0x0 0xFFFF 0x0 0x0 0x0,
  regRow 0x60 1 0x0 0x0 0xFF 0x0 0x0 0x0,
  regRow 0x64 1 0x0 0x0 0x177FFFF 0x0 0x0 0x0,
  regRow 0x68 1 0x0 0x0 0x1FFFF 0x0 0x0 0x0,
  regRow 0x6C 1 0x0 0x0 0x0 0x0 0x0 0x0,
  regRow 0x70 1 0x0 0x0 0x0 0x80000000 0x0 0x0,
  regRow 0x80 1 0x0 0x0 0x3FFF 0x0 0x0 0x0,
  regRow 0x84 1 0x0 0x0 0x0 0x0 0x0 0x0,
  regRow 0xA0 1 0x0 0x0 0x0 0x0 0x0 0x0,
  regRow 0xA4 1 0x0 0x0 0x0 0x80000000 0x0 0x0,
  regRow 0xB0 1 0x0 0x0 0x0 0x0 0x0 0x0,
  regRow 0xB4 1 0x0 0x0 0x0 0x80000000 0x0 0x0,
  regRow 0x100 32 0x10 0x0 0x800FFFFF 0x0 0x0 0x0,
  regRow 0x104 32 0x10 0x0 0xFFFFF 0x0 0x0 0x0,
  regRow 0x108 32 0x10 0x0 0xFFFFFFFF 0x0 0x0 0x0,
  regRow 0x10C 32 0x10 0x0 0x0 0x0 0xFFFF 0x0,
  regRow 0x400 17 0x4 0x0 0x0 0x0 0x0 0x0]

/-- Rows of the DISP block, offsets within the block. -/
def regsDisp1 : List RegRow := [
  cntRow 0x800 1 0x0,
  cntRow 0x808 1 0x0,
  cntRow 0x810 1 0x0,
  cntRow 0x818 1 0x0,
  cntRow 0x820 1 0x0,
  cntRow 0x828 1 0x0,
  cntRow 0x830 1 0x0,
  cntRow 0x900 8 0x10,
  cntRow 0x908 8 0x10,
  cntRow 0xA00 1 0x0,
  cntRow 0xA08 1 0x0,
  regRow 0xA10 1 0x0 0x0 0x0 0x0 0x0 0x0,
  regRow 0xA14 1 0x0 0x0 0x0 0x0 0x0 0x0,
  cntRow 0xA18 1 0x0]

/-- Every row of the DISP block. -/
def regsDisp : List RegRow := regsDisp0 ++ regsDisp1

/-! ### ECA (06_echo_canceller.md) -/

/-- ECA_CTL: R217. -/
def offEcaCtl : Nat := 0x040000
/-- ECA_STAT: R217. -/
def offEcaStat : Nat := 0x040004
/-- ECA_STEP: R217. -/
def offEcaStep : Nat := 0x040008
/-- ECA_ADAPT: R217. -/
def offEcaAdapt : Nat := 0x04000C
/-- ECA_DTD: R217. -/
def offEcaDtd : Nat := 0x040010
/-- ECA_NLP: R217. -/
def offEcaNlp : Nat := 0x040014
/-- ECA_REPL: R217. -/
def offEcaRepl : Nat := 0x040018
/-- ECA_TONE: R217. -/
def offEcaTone : Nat := 0x04001C
/-- ECA_ECC: R217. -/
def offEcaEcc : Nat := 0x040020
/-- ECA_BLK: R217. -/
def offEcaBlk : Nat := 0x040100
/-- ECA_NOREF: R217. -/
def offEcaNoref : Nat := 0x040108
/-- ECA_GAP: R217. -/
def offEcaGap : Nat := 0x040110
/-- ECA_REPLC: R217. -/
def offEcaReplc : Nat := 0x040118
/-- ECA_DIVRG: R217. -/
def offEcaDivrg : Nat := 0x040120
/-- ECA_RECERR: R217. -/
def offEcaRecerr : Nat := 0x040128
/-- ECA_QFULL: R217. -/
def offEcaQfull : Nat := 0x040130
/-- ECA_SATC: R217. -/
def offEcaSatc : Nat := 0x040138
/-- ECA_CLCYC: R217. -/
def offEcaClcyc : Nat := 0x040140

/-- Rows of the ECA block, offsets within the block. -/
def regsEca0 : List RegRow := [
  regRow 0x0 1 0x0 0xC 0xF 0x0 0x0 0x0,
  regRow 0x4 1 0x0 0x0 0x0 0x0 0x0 0x0,
  regRow 0x8 1 0x0 0x40001000 0xFFFFFFFF 0x0 0x0 0x0,
  regRow 0xC 1 0x0 0x100180A 0xFFFFFFFF 0x0 0x0 0x0,
  regRow 0x10 1 0x0 0x400000F0 0xFFFFFFFF 0x0 0x0 0x0,
  regRow 0x14 1 0x0 0x46281E 0xFFFFFF 0x0 0x0 0x0,
  regRow 0x18 1 0x0 0x199A0614 0xFFFFFFFF 0x0 0x0 0x0,
  regRow 0x1C 1 0x0 0x32241F 0xFFFFFFFF 0x0 0x0 0x0,
  regRow 0x20 1 0x0 0x0 0x0 0x0 0xFFFF 0x0,
  cntRow 0x100 1 0x0,
  cntRow 0x108 1 0x0,
  cntRow 0x110 1 0x0,
  cntRow 0x118 1 0x0,
  cntRow 0x120 1 0x0,
  cntRow 0x128 1 0x0,
  cntRow 0x130 1 0x0,
  cntRow 0x138 1 0x0,
  cntRow 0x140 4 0x8]

/-- Every row of the ECA block. -/
def regsEca : List RegRow := regsEca0

/-! ### RSF (07_resampler_filters.md) -/

/-- RSF_CTL: R248. -/
def offRsfCtl : Nat := 0x050000
/-- RSF_STAT: R248. -/
def offRsfStat : Nat := 0x050004
/-- RSF_DRIFT: R248. -/
def offRsfDrift : Nat := 0x050008
/-- RSF_DRIFTJ: R248. -/
def offRsfDriftj : Nat := 0x05000C
/-- RSF_SETTLE: R248. -/
def offRsfSettle : Nat := 0x050010
/-- RSF_ECC: R248. -/
def offRsfEcc : Nat := 0x050014
/-- RSF_RUN: R248. -/
def offRsfRun : Nat := 0x050100
/-- RSF_SHORT: R248. -/
def offRsfShort : Nat := 0x050108
/-- RSF_OVER: R248. -/
def offRsfOver : Nat := 0x050110
/-- RSF_SETTLE_CNT: R248. -/
def offRsfSettleCnt : Nat := 0x050118
/-- RSF_CLAMP: R248. -/
def offRsfClamp : Nat := 0x050120
/-- RSF_SATC: R248. -/
def offRsfSatc : Nat := 0x050128
/-- RSF_QFULL: R248. -/
def offRsfQfull : Nat := 0x050130
/-- RSF_RECERR: R248. -/
def offRsfRecerr : Nat := 0x050138
/-- RSF_PCYC: R248. -/
def offRsfPcyc : Nat := 0x050140

/-- Rows of the RSF block, offsets within the block. -/
def regsRsf0 : List RegRow := [
  regRow 0x0 1 0x0 0x1 0x3 0x0 0x0 0x0,
  regRow 0x4 1 0x0 0x0 0x0 0x0 0x0 0x0,
  regRow 0x8 1 0x0 0x8020096 0xFF0F03FF 0x0 0x0 0x0,
  regRow 0xC 1 0x0 0x64 0xFFFF 0x0 0x0 0x0,
  regRow 0x10 1 0x0 0x20 0xFF 0x0 0x0 0x0,
  regRow 0x14 1 0x0 0x0 0x0 0x0 0xFFFF 0x0,
  cntRow 0x100 1 0x0,
  cntRow 0x108 1 0x0,
  cntRow 0x110 1 0x0,
  cntRow 0x118 1 0x0,
  cntRow 0x120 1 0x0,
  cntRow 0x128 1 0x0,
  cntRow 0x130 1 0x0,
  cntRow 0x138 1 0x0,
  cntRow 0x140 2 0x8]

/-- Every row of the RSF block. -/
def regsRsf : List RegRow := regsRsf0

/-! ### QMGR (09_queues_packet_engine.md) -/

/-- QMGR_CLR_FREE: R317. -/
def offQmgrClrFree : Nat := 0x060000
/-- QMGR_CLR_HWM: R317. -/
def offQmgrClrHwm : Nat := 0x060004
/-- QMGR_CLR_RES: R317. -/
def offQmgrClrRes : Nat := 0x060008
/-- QMGR_CLR_LOWEV: R317. -/
def offQmgrClrLowev : Nat := 0x06000C
/-- QMGR_QSEL: R317. -/
def offQmgrQsel : Nat := 0x060010
/-- QMGR_QCFG: R317. -/
def offQmgrQcfg : Nat := 0x060014
/-- QMGR_QNOTE: R317. -/
def offQmgrQnote : Nat := 0x060018
/-- QMGR_QSTAT: R317. -/
def offQmgrQstat : Nat := 0x06001C
/-- QMGR_QLOST: R317. -/
def offQmgrQlost : Nat := 0x060020
/-- QMGR_EVROUTE: R317. -/
def offQmgrEvroute : Nat := 0x060100
/-- QMGR_PUSH: R317. -/
def offQmgrPush : Nat := 0x060800
/-- QMGR_POP: R317. -/
def offQmgrPop : Nat := 0x060808
/-- QMGR_OVWR: R317. -/
def offQmgrOvwr : Nat := 0x060810
/-- QMGR_UNDER: R317. -/
def offQmgrUnder : Nat := 0x060818
/-- QMGR_ALLOCF: R317. -/
def offQmgrAllocf : Nat := 0x060820
/-- QMGR_EVDISC: R317. -/
def offQmgrEvdisc : Nat := 0x060828
/-- QP_SEL: R317. -/
def offQpSel : Nat := 0x061000
/-- QP_POP: R317. -/
def offQpPop : Nat := 0x061004
/-- QP_ALLOC: R317. -/
def offQpAlloc : Nat := 0x061008
/-- QP_FREE: R317. -/
def offQpFree : Nat := 0x06100C
/-- QP_PUSH_LO: R317. -/
def offQpPushLo : Nat := 0x061010
/-- QP_PUSH_HI: R317. -/
def offQpPushHi : Nat := 0x061014
/-- QP_STAT: R317. -/
def offQpStat : Nat := 0x061018

/-- Rows of the QMGR block, offsets within the block. -/
def regsQmgr0 : List RegRow := [
  regRow 0x0 1 0x0 0x40000 0x0 0x0 0x0 0x0,
  regRow 0x4 1 0x0 0x0 0x0 0x0 0x7FFFF 0x0,
  regRow 0x8 1 0x0 0x400 0x7FFFF 0x0 0x0 0x0,
  regRow 0xC 1 0x0 0x80001000 0x8007FFFF 0x0 0x0 0x0,
  regRow 0x10 1 0x0 0x0 0xFFFF 0x0 0x0 0x0,
  regRow 0x14 1 0x0 0x0 0xF0000FFF 0x0 0x0 0x0,
  regRow 0x18 1 0x0 0x0 0xFFFFFFFF 0x0 0x0 0x0,
  regRow 0x1C 1 0x0 0x0 0x0 0x40000000 0x0 0x0,
  regRow 0x20 1 0x0 0x0 0x0 0x0 0xFFFFFFFF 0x0,
  regRow 0x100 49 0x4 0x0 0x8000FFFF 0x0 0x0 0x0,
  cntRow 0x800 1 0x0,
  cntRow 0x808 1 0x0,
  cntRow 0x810 1 0x0,
  cntRow 0x818 1 0x0,
  cntRow 0x820 1 0x0,
  cntRow 0x828 1 0x0,
  regRow 0x1000 1 0x0 0x0 0xFFFF 0x0 0x0 0x0,
  regRow 0x1004 1 0x0 0x0 0x0 0x0 0x0 0x0,
  regRow 0x1008 1 0x0 0x0 0x0 0x0 0x0 0x0,
  regRow 0x100C 1 0x0 0x0 0x0 0x0 0x0 0x0,
  regRow 0x1010 1 0x0 0x0 0x0 0x0 0x0 0x0,
  regRow 0x1014 1 0x0 0x0 0x0 0x0 0x0 0x0,
  regRow 0x1018 1 0x0 0x0 0x0 0x0 0x0 0x0]

/-- Every row of the QMGR block. -/
def regsQmgr : List RegRow := regsQmgr0

/-! ### PKT (09_queues_packet_engine.md) -/

/-- PKT_CTL: R318. -/
def offPktCtl : Nat := 0x070000
/-- PKT_MISSQ: R318. -/
def offPktMissq : Nat := 0x070004
/-- PKT_RTCPQ: R318. -/
def offPktRtcpq : Nat := 0x070008
/-- PKT_TXQ: R318. -/
def offPktTxq : Nat := 0x070010
/-- PKT_FSEL: R318. -/
def offPktFsel : Nat := 0x070040
/-- PKT_FDATA: R318. -/
def offPktFdata : Nat := 0x070044
/-- PKT_FCMD: R318. -/
def offPktFcmd : Nat := 0x070054
/-- PKT_FSTAT: R318. -/
def offPktFstat : Nat := 0x070058
/-- PKT_TSEL: R318. -/
def offPktTsel : Nat := 0x070080
/-- PKT_TCMD: R318. -/
def offPktTcmd : Nat := 0x070084
/-- PKT_TSTAT: R318. -/
def offPktTstat : Nat := 0x070088
/-- PKT_TDATA: R318. -/
def offPktTdata : Nat := 0x0700C0
/-- PKT_PEND: R318. -/
def offPktPend : Nat := 0x070100
/-- PKT_DROP: R318. -/
def offPktDrop : Nat := 0x070200
/-- PKT_RXPKT: R318. -/
def offPktRxpkt : Nat := 0x070300
/-- PKT_TXPKT: R318. -/
def offPktTxpkt : Nat := 0x070308
/-- PKT_LATEDEP: R318. -/
def offPktLatedep : Nat := 0x070310
/-- PKT_FARDEP: R318. -/
def offPktFardep : Nat := 0x070318
/-- PKT_BLATE: R318. -/
def offPktBlate : Nat := 0x070320
/-- PKT_CESMISS: R318. -/
def offPktCesmiss : Nat := 0x070328
/-- PKT_CESRRX: R318. -/
def offPktCesrrx : Nat := 0x070330
/-- PKT_RTCPDISC: R318. -/
def offPktRtcpdisc : Nat := 0x070338

/-- Rows of the PKT block, offsets within the block. -/
def regsPkt0 : List RegRow := [
  regRow 0x0 1 0x0 0x8 0x3FF 0x0 0x0 0x0,
  regRow 0x4 1 0x0 0x0 0xFFFF 0x0 0x0 0x0,
  regRow 0x8 1 0x0 0x0 0xFFFF 0x0 0x0 0x0,
  regRow 0x10 8 0x4 0x0 0x8000FFFF 0x0 0x0 0x0,
  regRow 0x40 1 0x0 0x0 0xFFFF 0x0 0x0 0x0,
  regRow 0x44 4 0x4 0x0 0xFFFFFFFF 0x0 0x0 0x0,
  regRow 0x54 1 0x0 0x0 0x0 0x0 0x0 0x0,
  regRow 0x58 1 0x0 0x0 0x0 0x80000000 0x0 0x0,
  regRow 0x80 1 0x0 0x0 0x3FFF 0x0 0x0 0x0,
  regRow 0x84 1 0x0 0x0 0x0 0x0 0x0 0x0,
  regRow 0x88 1 0x0 0x0 0x0 0x80000000 0x0 0x0,
  regRow 0xC0 16 0x4 0x0 0xFFFFFFFF 0x0 0x0 0x0,
  regRow 0x100 1 0x0 0x0 0x0 0x0 0x0 0x0,
  cntRow 0x200 16 0x8,
  cntRow 0x300 1 0x0,
  cntRow 0x308 1 0x0,
  cntRow 0x310 1 0x0,
  cntRow 0x318 1 0x0,
  cntRow 0x320 1 0x0,
  cntRow 0x328 1 0x0,
  cntRow 0x330 1 0x0,
  cntRow 0x338 1 0x0]

/-- Every row of the PKT block. -/
def regsPkt : List RegRow := regsPkt0

/-! ### MAC (10_ethernet.md) -/

/-- MAC_CTL: R340. -/
def offMacCtl : Nat := 0x080000
/-- MAC_STAT: R340. -/
def offMacStat : Nat := 0x080004
/-- MAC_ADDR_LO: R340. -/
def offMacAddrLo : Nat := 0x080008
/-- MAC_ADDR_HI: R340. -/
def offMacAddrHi : Nat := 0x08000C
/-- MAC_MAXLEN: R340. -/
def offMacMaxlen : Nat := 0x080010
/-- MAC_SERDES_TX: R340. -/
def offMacSerdesTx : Nat := 0x080014
/-- MAC_SERDES_RX: R340. -/
def offMacSerdesRx : Nat := 0x080018
/-- MAC_PREEMPT: R340. -/
def offMacPreempt : Nat := 0x080020
/-- MAC_PFC: R340. -/
def offMacPfc : Nat := 0x080024
/-- MAC_PFC_THR: R340. -/
def offMacPfcThr : Nat := 0x080028
/-- MAC_PFC_HOLD: R340. -/
def offMacPfcHold : Nat := 0x08002C
/-- MAC_MCAST_LO: R340. -/
def offMacMcastLo : Nat := 0x080040
/-- MAC_MCAST_HI: R340. -/
def offMacMcastHi : Nat := 0x080044
/-- MAC_OVF: R340. -/
def offMacOvf : Nat := 0x0800C0
/-- MAC_CNT_LO: R340. -/
def offMacCntLo : Nat := 0x080100
/-- MAC_CNT_HI: R340. -/
def offMacCntHi : Nat := 0x080104

/-- Rows of the MAC block, offsets within the block. -/
def regsMac0 : List RegRow := [
  regRow 0x0 1 0x0 0x2000 0xFF3FF000 0x0 0x0 0x0,
  regRow 0x4 1 0x0 0x0 0x0 0x0 0x0 0x0,
  regRow 0x8 1 0x0 0x0 0xFFFFFFFF 0x0 0x0 0x0,
  regRow 0xC 1 0x0 0x0 0xFFFF 0x0 0x0 0x0,
  regRow 0x10 1 0x0 0x5F2 0x3FFF 0x0 0x0 0x0,
  regRow 0x14 1 0x0 0x30000000 0x3F0F1F00 0x0 0x0 0x0,
  regRow 0x18 1 0x0 0x80080000 0x801F0000 0x0 0x0 0x0,
  regRow 0x20 1 0x0 0xA00E0 0xC3FF00FF 0x0 0x0 0x0,
  regRow 0x24 1 0x0 0xFFFF 0xC0FFFFFF 0x0 0x0 0x0,
  regRow 0x28 1 0x0 0x2000300 0x7FF07FF 0x0 0x0 0x0,
  regRow 0x2C 1 0x0 0x3E8 0xFFFF 0x0 0x0 0x0,
  regRow 0x40 16 0x8 0x0 0xFFFFFFFF 0x0 0x0 0x0,
  regRow 0x44 16 0x8 0x0 0x8000FFFF 0x0 0x0 0x0,
  regRow 0xC0 1 0x0 0x0 0x0 0x1FFFFFF 0x0 0x0,
  regRow 0x100 25 0x8 0x0 0x0 0x0 0xFFFFFFFF 0x0,
  regRow 0x104 25 0x8 0x0 0x0 0x0 0x0 0x0]

/-- Every row of the MAC block. -/
def regsMac : List RegRow := regsMac0

/-! ### CIPH (11_cipher.md) -/

/-- CIPH_CTL: R360. -/
def offCiphCtl : Nat := 0x0D0000
/-- CIPH_STAT: R360. -/
def offCiphStat : Nat := 0x0D0004
/-- CIPH_KEKGEN: R360. -/
def offCiphKekgen : Nat := 0x0D0008
/-- CIPH_PARERR: R360. -/
def offCiphParerr : Nat := 0x0D000C
/-- CIPH_KEKCMD: R360. -/
def offCiphKekcmd : Nat := 0x0D0010
/-- CIPH_KEKSTAT: R360. -/
def offCiphKekstat : Nat := 0x0D0014
/-- CIPH_KEKPUB: R360. -/
def offCiphKekpub : Nat := 0x0D0040
/-- CIPH_DEVPUB: R360. -/
def offCiphDevpub : Nat := 0x0D0080
/-- CIPH_IMP_SLOT: R360. -/
def offCiphImpSlot : Nat := 0x0D0100
/-- CIPH_IMP_ADDR: R360. -/
def offCiphImpAddr : Nat := 0x0D0104
/-- CIPH_IMP_LEN: R360. -/
def offCiphImpLen : Nat := 0x0D0108
/-- CIPH_IMP_CMD: R360. -/
def offCiphImpCmd : Nat := 0x0D010C
/-- CIPH_IMP_STAT: R360. -/
def offCiphImpStat : Nat := 0x0D0110
/-- CIPH_SSEL: R360. -/
def offCiphSsel : Nat := 0x0D0200
/-- CIPH_SINFO: R360. -/
def offCiphSinfo : Nat := 0x0D0204
/-- CIPH_SIDX_LO: R360. -/
def offCiphSidxLo : Nat := 0x0D0208
/-- CIPH_SIDX_HI: R360. -/
def offCiphSidxHi : Nat := 0x0D020C
/-- CIPH_SCIDX: R360. -/
def offCiphScidx : Nat := 0x0D0210
/-- CIPH_PROT: R360. -/
def offCiphProt : Nat := 0x0D0800
/-- CIPH_UNPROT: R360. -/
def offCiphUnprot : Nat := 0x0D0808
/-- CIPH_QFULL: R360. -/
def offCiphQfull : Nat := 0x0D0810
/-- CIPH_REF: R360. -/
def offCiphRef : Nat := 0x0D0900

/-- Rows of the CIPH block, offsets within the block. -/
def regsCiph0 : List RegRow := [
  regRow 0x0 1 0x0 0xC0000400 0xC0007FFF 0x0 0x0 0x0,
  regRow 0x4 1 0x0 0x0 0x0 0x0 0x0 0x0,
  regRow 0x8 1 0x0 0x0 0x0 0x0 0x0 0x0,
  regRow 0xC 1 0x0 0x0 0x0 0x0 0xFFFF 0x0,
  regRow 0x10 1 0x0 0x0 0x0 0x0 0x0 0x0,
  regRow 0x14 1 0x0 0x0 0x0 0x80000000 0x0 0x0,
  regRow 0x40 16 0x4 0x0 0xFFFFFFFF 0x0 0x0 0x0,
  regRow 0x80 16 0x4 0x0 0x0 0x0 0x0 0x0,
  regRow 0x100 1 0x0 0x0 0xFFFF 0x0 0x0 0x0,
  regRow 0x104 1 0x0 0x0 0xFFFFFFFF 0x0 0x0 0x0,
  regRow 0x108 1 0x0 0x0 0x7F 0x0 0x0 0x0,
  regRow 0x10C 1 0x0 0x0 0x0 0x0 0x0 0x0,
  regRow 0x110 1 0x0 0x0 0x0 0x80000000 0x0 0x0,
  regRow 0x200 1 0x0 0x0 0xFFFF 0x0 0x0 0x0,
  regRow 0x204 1 0x0 0x0 0x0 0x0 0x0 0x0,
  regRow 0x208 1 0x0 0x0 0x0 0x0 0x0 0x0,
  regRow 0x20C 1 0x0 0x0 0x0 0x0 0x0 0x0,
  regRow 0x210 1 0x0 0x0 0x0 0x0 0x0 0x0,
  cntRow 0x800 1 0x0,
  cntRow 0x808 1 0x0,
  cntRow 0x810 1 0x0,
  cntRow 0x900 22 0x8]

/-- Every row of the CIPH block. -/
def regsCiph : List RegRow := regsCiph0

/-! ### CRUC (12_crucible.md) -/

/-- CRUC_CTL: R378. -/
def offCrucCtl : Nat := 0x0E0000
/-- CRUC_STAT: R378. -/
def offCrucStat : Nat := 0x0E0004
/-- CRUC_ECC: R378. -/
def offCrucEcc : Nat := 0x0E0008
/-- CRUC_HREQ: R378. -/
def offCrucHreq : Nat := 0x0E0010
/-- CRUC_HCMD: R378. -/
def offCrucHcmd : Nat := 0x0E0020
/-- CRUC_HSTAT: R378. -/
def offCrucHstat : Nat := 0x0E0024
/-- CRUC_HCOMP: R378. -/
def offCrucHcomp : Nat := 0x0E0028
/-- CRUC_REQ: R378. -/
def offCrucReq : Nat := 0x0E0100
/-- CRUC_INB: R378. -/
def offCrucInb : Nat := 0x0E0108
/-- CRUC_OUTB: R378. -/
def offCrucOutb : Nat := 0x0E0110
/-- CRUC_NOSHRINK: R378. -/
def offCrucNoshrink : Nat := 0x0E0118
/-- CRUC_DATAERR: R378. -/
def offCrucDataerr : Nat := 0x0E0120
/-- CRUC_QFULL: R378. -/
def offCrucQfull : Nat := 0x0E0128
/-- CRUC_RECERR: R378. -/
def offCrucRecerr : Nat := 0x0E0130
/-- CRUC_CYC: R378. -/
def offCrucCyc : Nat := 0x0E0138

/-- Rows of the CRUC block, offsets within the block. -/
def regsCruc0 : List RegRow := [
  regRow 0x0 1 0x0 0x1 0x1 0x0 0x0 0x0,
  regRow 0x4 1 0x0 0x0 0x0 0x0 0x0 0x0,
  regRow 0x8 1 0x0 0x0 0x0 0x0 0xFFFF 0x0,
  regRow 0x10 4 0x4 0x0 0xFFFFFFFF 0x0 0x0 0x0,
  regRow 0x20 1 0x0 0x0 0x0 0x0 0x0 0x0,
  regRow 0x24 1 0x0 0x0 0x0 0x80000000 0x0 0x0,
  regRow 0x28 1 0x0 0x0 0x0 0x0 0x0 0x0,
  cntRow 0x100 1 0x0,
  cntRow 0x108 1 0x0,
  cntRow 0x110 1 0x0,
  cntRow 0x118 1 0x0,
  cntRow 0x120 1 0x0,
  cntRow 0x128 1 0x0,
  cntRow 0x130 1 0x0,
  cntRow 0x138 1 0x0]

/-- Every row of the CRUC block. -/
def regsCruc : List RegRow := regsCruc0

/-! ### METER (13_tariff_meter.md) -/

/-- METER_CTL: R410. -/
def offMeterCtl : Nat := 0x0F0000
/-- METER_STAT: R410. -/
def offMeterStat : Nat := 0x0F0004
/-- METER_NEWCALL: R410. -/
def offMeterNewcall : Nat := 0x0F0008
/-- METER_BADTICK: R410. -/
def offMeterBadtick : Nat := 0x0F000C
/-- METER_CMD: R410. -/
def offMeterCmd : Nat := 0x0F0010
/-- METER_CMDGO: R410. -/
def offMeterCmdgo : Nat := 0x0F0030
/-- METER_CSENT: R410. -/
def offMeterCsent : Nat := 0x0F0034
/-- METER_CRES: R410. -/
def offMeterCres : Nat := 0x0F0038
/-- METER_CRSEQ_LO: R410. -/
def offMeterCrseqLo : Nat := 0x0F003C
/-- METER_CRSEQ_HI: R410. -/
def offMeterCrseqHi : Nat := 0x0F0040
/-- METER_TNS: R410. -/
def offMeterTns : Nat := 0x0F0044
/-- METER_TSEC_LO: R410. -/
def offMeterTsecLo : Nat := 0x0F0048
/-- METER_TSEC_HI: R410. -/
def offMeterTsecHi : Nat := 0x0F004C
/-- METER_TOFS: R410. -/
def offMeterTofs : Nat := 0x0F0050
/-- METER_TDRIFT: R410. -/
def offMeterTdrift : Nat := 0x0F0054
/-- METER_TRATE: R410. -/
def offMeterTrate : Nat := 0x0F0058
/-- METER_JRSEQ_LO: R410. -/
def offMeterJrseqLo : Nat := 0x0F0060
/-- METER_JRSEQ_HI: R410. -/
def offMeterJrseqHi : Nat := 0x0F0064
/-- METER_JREL_LO: R410. -/
def offMeterJrelLo : Nat := 0x0F0068
/-- METER_JREL_HI: R410. -/
def offMeterJrelHi : Nat := 0x0F006C
/-- METER_JCAP: R410. -/
def offMeterJcap : Nat := 0x0F0070
/-- METER_JFREE: R410. -/
def offMeterJfree : Nat := 0x0F0074
/-- METER_JLOST: R410. -/
def offMeterJlost : Nat := 0x0F0078
/-- METER_OPEN: R410. -/
def offMeterOpen : Nat := 0x0F007C
/-- METER_OPENSEL: R410. -/
def offMeterOpensel : Nat := 0x0F0080
/-- METER_OPENINFO: R410. -/
def offMeterOpeninfo : Nat := 0x0F0084
/-- METER_OPENREF: R410. -/
def offMeterOpenref : Nat := 0x0F0088
/-- METER_SWID0: R410. -/
def offMeterSwid0 : Nat := 0x0F0090
/-- METER_SWID1: R410. -/
def offMeterSwid1 : Nat := 0x0F0094
/-- METER_SWVER: R410. -/
def offMeterSwver : Nat := 0x0F0098
/-- METER_SWCHK: R410. -/
def offMeterSwchk : Nat := 0x0F00A0
/-- METER_AUDITN: R410. -/
def offMeterAuditn : Nat := 0x0F00C0
/-- METER_AUDSEL: R410. -/
def offMeterAudsel : Nat := 0x0F00C4
/-- METER_AUDIT: R410. -/
def offMeterAudit : Nat := 0x0F00C8
/-- METER_PDIG: R410. -/
def offMeterPdig : Nat := 0x0F0100
/-- METER_SEALCMD: R410. -/
def offMeterSealcmd : Nat := 0x0F0120
/-- METER_OWNER_LO: R410. -/
def offMeterOwnerLo : Nat := 0x0F0124
/-- METER_OWNER_HI: R410. -/
def offMeterOwnerHi : Nat := 0x0F0128
/-- METER_XCOMP: R410. -/
def offMeterXcomp : Nat := 0x0F012C
/-- METER_JRES: R410. -/
def offMeterJres : Nat := 0x0F0130
/-- METER_AUTHPUB: R410. -/
def offMeterAuthpub : Nat := 0x0F0140
/-- METER_PUB: R410. -/
def offMeterPub : Nat := 0x0F0180
/-- METER_HMKBLOB: R410. -/
def offMeterHmkblob : Nat := 0x0F01C0
/-- METER_TOT: R410. -/
def offMeterTot : Nat := 0x0F0200

/-- Rows of the METER block, offsets within the block. -/
def regsMeter0 : List RegRow := [
  regRow 0x0 1 0x0 0x3 0x3 0x0 0x0 0x0,
  regRow 0x4 1 0x0 0x0 0x0 0x200000 0x0 0x0,
  regRow 0x8 1 0x0 0x80 0x0 0x0 0x0 0x0,
  regRow 0xC 1 0x0 0x0 0x0 0x0 0xFFFF 0x0,
  regRow 0x10 8 0x4 0x0 0xFFFFFFFF 0x0 0x0 0x0,
  regRow 0x30 1 0x0 0x0 0x0 0x0 0x0 0x0,
  regRow 0x34 1 0x0 0x0 0x0 0x0 0x0 0x0,
  regRow 0x38 1 0x0 0x0 0x0 0x0 0x0 0x0,
  regRow 0x3C 1 0x0 0x0 0x0 0x0 0x0 0x0,
  regRow 0x40 1 0x0 0x0 0x0 0x0 0x0 0x0,
  regRow 0x44 1 0x0 0x0 0x0 0x0 0x0 0x0,
  regRow 0x48 1 0x0 0x0 0x0 0x0 0x0 0x0,
  regRow 0x4C 1 0x0 0x0 0x0 0x0 0x0 0x0,
  regRow 0x50 1 0x0 0x0 0x0 0x0 0x0 0x0,
  regRow 0x54 1 0x0 0x0 0x0 0x0 0x0 0x0,
  regRow 0x58 1 0x0 0x0 0x0 0x0 0x0 0x0,
  regRow 0x60 1 0x0 0x0 0x0 0x0 0x0 0x0,
  regRow 0x64 1 0x0 0x0 0x0 0x0 0x0 0x0,
  regRow 0x68 1 0x0 0x0 0x0 0x0 0x0 0x0,
  regRow 0x6C 1 0x0 0x0 0x0 0x0 0x0 0x0,
  regRow 0x70 1 0x0 0x0 0x0 0x0 0x0 0x0,
  regRow 0x74 1 0x0 0x0 0x0 0x0 0x0 0x0,
  regRow 0x78 1 0x0 0x0 0x0 0x0 0x0 0x0,
  regRow 0x7C 1 0x0 0x0 0x0 0x0 0x0 0x0]

/-- Rows of the METER block, offsets within the block. -/
def regsMeter1 : List RegRow := [
  regRow 0x80 1 0x0 0x0 0x3FFF 0x0 0x0 0x0,
  regRow 0x84 1 0x0 0x0 0x0 0x0 0x0 0x0,
  regRow 0x88 1 0x0 0x0 0x0 0x0 0x0 0x0,
  regRow 0x90 1 0x0 0x374D484B 0x0 0x0 0x0 0x0,
  regRow 0x94 1 0x0 0x32303631 0x0 0x0 0x0 0x0,
  regRow 0x98 1 0x0 0x201 0x0 0x0 0x0 0x0,
  regRow 0xA0 8 0x4 0x0 0x0 0x0 0x0 0x0,
  regRow 0xC0 1 0x0 0x0 0x0 0x0 0x0 0x0,
  regRow 0xC4 1 0x0 0x0 0x3FF 0x0 0x0 0x0,
  regRow 0xC8 8 0x4 0x0 0x0 0x0 0x0 0x0,
  regRow 0x100 8 0x4 0x0 0x0 0x0 0x0 0x0,
  regRow 0x120 1 0x0 0x0 0x0 0x0 0x0 0x0,
  regRow 0x124 1 0x0 0x0 0x0 0x0 0x0 0xFFFFFFFF,
  regRow 0x128 1 0x0 0x0 0x0 0x0 0x0 0xFFFFFFFF,
  regRow 0x12C 1 0x0 0x220019 0x0 0x0 0x0 0xFFFF00FF,
  regRow 0x130 1 0x0 0x1000 0x0 0x0 0x0 0xFFFFFFFF,
  regRow 0x140 16 0x4 0x0 0x0 0x0 0x0 0xFFFFFFFF,
  regRow 0x180 16 0x4 0x0 0x0 0x0 0x0 0x0,
  regRow 0x1C0 6 0x4 0x0 0x0 0x0 0x0 0x0,
  cntRow 0x200 6 0x8]

/-- Every row of the METER block. -/
def regsMeter : List RegRow := regsMeter0 ++ regsMeter1

/-! ### NAND (14_storage.md) -/

/-- NAND_CTL: R437. -/
def offNandCtl : Nat := 0x100000
/-- NAND_STAT: R437. -/
def offNandStat : Nat := 0x100004
/-- NAND_ENDUR: R437. -/
def offNandEndur : Nat := 0x100008
/-- NAND_WL: R437. -/
def offNandWl : Nat := 0x10000C
/-- NAND_RDLIM: R437. -/
def offNandRdlim : Nat := 0x100010
/-- NAND_PATROL: R437. -/
def offNandPatrol : Nat := 0x100014
/-- NAND_TGT: R437. -/
def offNandTgt : Nat := 0x100020
/-- NAND_PSLC: R437. -/
def offNandPslc : Nat := 0x100030
/-- NAND_CMD: R437. -/
def offNandCmd : Nat := 0x100040
/-- NAND_CMDGO: R437. -/
def offNandCmdgo : Nat := 0x100060
/-- NAND_CSENT: R437. -/
def offNandCsent : Nat := 0x100064
/-- NAND_CRES: R437. -/
def offNandCres : Nat := 0x100068
/-- NAND_PSEL: R437. -/
def offNandPsel : Nat := 0x100070
/-- NAND_PINFO0: R437. -/
def offNandPinfo0 : Nat := 0x100074
/-- NAND_PINFO1: R437. -/
def offNandPinfo1 : Nat := 0x100078
/-- NAND_PINFO2: R437. -/
def offNandPinfo2 : Nat := 0x10007C
/-- NAND_BSEL: R437. -/
def offNandBsel : Nat := 0x100090
/-- NAND_BINFO: R437. -/
def offNandBinfo : Nat := 0x100094
/-- NAND_BERASE: R437. -/
def offNandBerase : Nat := 0x100098
/-- NAND_BREAD: R437. -/
def offNandBread : Nat := 0x10009C
/-- NAND_PROG: R437. -/
def offNandProg : Nat := 0x100100
/-- NAND_ERASE: R437. -/
def offNandErase : Nat := 0x100108
/-- NAND_READ: R437. -/
def offNandRead : Nat := 0x100110
/-- NAND_CORRBITS: R437. -/
def offNandCorrbits : Nat := 0x100118
/-- NAND_UNCORR: R437. -/
def offNandUncorr : Nat := 0x100120
/-- NAND_REFRESH: R437. -/
def offNandRefresh : Nat := 0x100128
/-- NAND_RETIRE: R437. -/
def offNandRetire : Nat := 0x100130
/-- NAND_RELOC: R437. -/
def offNandReloc : Nat := 0x100138

/-- Rows of the NAND block, offsets within the block. -/
def regsNand0 : List RegRow := [
  regRow 0x0 1 0x0 0xC0000047 0xC00000F7 0x0 0x0 0x0,
  regRow 0x4 1 0x0 0x0 0x0 0x0 0x0 0x0,
  regRow 0x8 1 0x0 0x7530 0xFFFFFFFF 0x0 0x0 0x0,
  regRow 0xC 1 0x0 0x3C0200 0xFFFFFFFF 0x0 0x0 0x0,
  regRow 0x10 1 0x0 0x186A0 0xFFFFFFFF 0x0 0x0 0x0,
  regRow 0x14 1 0x0 0xA80024 0xFFFF007F 0x0 0x0 0x0,
  regRow 0x20 4 0x4 0x0 0x0 0x0 0x0 0x0,
  regRow 0x30 4 0x4 0x0 0x8000FFFF 0x0 0x0 0x0,
  regRow 0x40 8 0x4 0x0 0xFFFFFFFF 0x0 0x0 0x0,
  regRow 0x60 1 0x0 0x0 0x0 0x0 0x0 0x0,
  regRow 0x64 1 0x0 0x0 0x0 0x0 0x0 0x0,
  regRow 0x68 1 0x0 0x0 0x0 0x0 0x0 0x0,
  regRow 0x70 1 0x0 0x0 0xF 0x0 0x0 0x0,
  regRow 0x74 1 0x0 0x0 0x0 0x0 0x0 0x0,
  regRow 0x78 1 0x0 0x0 0x0 0x0 0x0 0x0,
  regRow 0x7C 1 0x0 0x0 0x0 0x0 0x0 0x0,
  regRow 0x90 1 0x0 0x0 0xFFFF 0x0 0x0 0x0,
  regRow 0x94 1 0x0 0x0 0x0 0x0 0x0 0x0,
  regRow 0x98 1 0x0 0x0 0x0 0x0 0x0 0x0,
  regRow 0x9C 1 0x0 0x0 0x0 0x0 0x0 0x0,
  cntRow 0x100 1 0x0,
  cntRow 0x108 1 0x0,
  cntRow 0x110 1 0x0,
  cntRow 0x118 1 0x0]

/-- Rows of the NAND block, offsets within the block. -/
def regsNand1 : List RegRow := [
  cntRow 0x120 1 0x0,
  cntRow 0x128 1 0x0,
  cntRow 0x130 1 0x0,
  cntRow 0x138 1 0x0]

/-- Every row of the NAND block. -/
def regsNand : List RegRow := regsNand0 ++ regsNand1

/-! ### MIRR (15_mirror_pair.md) -/

/-- MIRR_CTL: R470. -/
def offMirrCtl : Nat := 0x110000
/-- MIRR_STAT: R470. -/
def offMirrStat : Nat := 0x110004
/-- MIRR_CMD: R470. -/
def offMirrCmd : Nat := 0x110008
/-- MIRR_CMDSTAT: R470. -/
def offMirrCmdstat : Nat := 0x11000C
/-- MIRR_EPOCH: R470. -/
def offMirrEpoch : Nat := 0x110010
/-- MIRR_PEER_EPOCH: R470. -/
def offMirrPeerEpoch : Nat := 0x110014
/-- MIRR_PEER_LO: R470. -/
def offMirrPeerLo : Nat := 0x110018
/-- MIRR_PEER_HI: R470. -/
def offMirrPeerHi : Nat := 0x11001C
/-- MIRR_HB: R470. -/
def offMirrHb : Nat := 0x110020
/-- MIRR_RETX: R470. -/
def offMirrRetx : Nat := 0x110024
/-- MIRR_ECSWEEP: R470. -/
def offMirrEcsweep : Nat := 0x110028
/-- MIRR_SLEEP: R470. -/
def offMirrSleep : Nat := 0x11002C
/-- MIRR_SLEEPOFS: R470. -/
def offMirrSleepofs : Nat := 0x110030
/-- MIRR_PROMO_NFN_LO: R470. -/
def offMirrPromoNfnLo : Nat := 0x110034
/-- MIRR_PROMO_NFN_HI: R470. -/
def offMirrPromoNfnHi : Nat := 0x110038
/-- MIRR_USERQ: R470. -/
def offMirrUserq : Nat := 0x11003C
/-- MIRR_USERRX: R470. -/
def offMirrUserrx : Nat := 0x110040
/-- MIRR_ECAGE: R470. -/
def offMirrEcage : Nat := 0x110044
/-- MIRR_TXFRM: R470. -/
def offMirrTxfrm : Nat := 0x110100
/-- MIRR_RXFRM: R470. -/
def offMirrRxfrm : Nat := 0x110108
/-- MIRR_RETXC: R470. -/
def offMirrRetxc : Nat := 0x110110
/-- MIRR_DUP: R470. -/
def offMirrDup : Nat := 0x110118
/-- MIRR_OOO: R470. -/
def offMirrOoo : Nat := 0x110120
/-- MIRR_STALE: R470. -/
def offMirrStale : Nat := 0x110128
/-- MIRR_BADFRM: R470. -/
def offMirrBadfrm : Nat := 0x110130
/-- MIRR_LINKMISS: R470. -/
def offMirrLinkmiss : Nat := 0x110138
/-- MIRR_PINMISS: R470. -/
def offMirrPinmiss : Nat := 0x110140
/-- MIRR_ECSENT: R470. -/
def offMirrEcsent : Nat := 0x110148
/-- MIRR_ECDROP: R470. -/
def offMirrEcdrop : Nat := 0x110150
/-- MIRR_STDROP: R470. -/
def offMirrStdrop : Nat := 0x110158

/-- Rows of the MIRR block, offsets within the block. -/
def regsMirr0 : List RegRow := [
  regRow 0x0 1 0x0 0x58000000 0xF8000000 0x0 0x0 0x0,
  regRow 0x4 1 0x0 0x700 0x0 0x0 0x0 0x0,
  regRow 0x8 1 0x0 0x0 0x0 0x0 0x0 0x0,
  regRow 0xC 1 0x0 0x0 0x0 0x80000000 0x0 0x0,
  regRow 0x10 1 0x0 0x0 0x0 0x0 0x0 0x0,
  regRow 0x14 1 0x0 0x0 0x0 0x0 0x0 0x0,
  regRow 0x18 1 0x0 0x0 0xFFFFFFFF 0x0 0x0 0x0,
  regRow 0x1C 1 0x0 0x0 0xFFFF 0x0 0x0 0x0,
  regRow 0x20 1 0x0 0x0 0xFF3F 0x0 0x0 0x0,
  regRow 0x24 1 0x0 0x10640008 0xFFFFFFFF 0x0 0x0 0x0,
  regRow 0x28 1 0x0 0x960 0xFFFF 0x0 0x0 0x0,
  regRow 0x2C 1 0x0 0x14 0xFF 0x0 0x0 0x0,
  regRow 0x30 1 0x0 0x0 0x0 0x0 0x0 0x0,
  regRow 0x34 1 0x0 0x0 0x0 0x0 0x0 0x0,
  regRow 0x38 1 0x0 0x0 0x0 0x0 0x0 0x0,
  regRow 0x3C 1 0x0 0x0 0x8000FFFF 0x0 0x0 0x0,
  regRow 0x40 1 0x0 0x0 0x8000FFFF 0x0 0x0 0x0,
  regRow 0x44 1 0x0 0x0 0x0 0x0 0x0 0x0,
  cntRow 0x100 1 0x0,
  cntRow 0x108 1 0x0,
  cntRow 0x110 1 0x0,
  cntRow 0x118 1 0x0,
  cntRow 0x120 1 0x0,
  cntRow 0x128 1 0x0]

/-- Rows of the MIRR block, offsets within the block. -/
def regsMirr1 : List RegRow := [
  cntRow 0x130 1 0x0,
  cntRow 0x138 1 0x0,
  cntRow 0x140 1 0x0,
  cntRow 0x148 1 0x0,
  cntRow 0x150 1 0x0,
  cntRow 0x158 1 0x0]

/-- Every row of the MIRR block. -/
def regsMirr : List RegRow := regsMirr0 ++ regsMirr1

/-! ### HOST (16_host_interfaces.md) -/

/-- HOST_STAT: R494. -/
def offHostStat : Nat := 0x120000
/-- HOST_IMOD: R494. -/
def offHostImod : Nat := 0x120004
/-- HOST_RING_CTL: R494. -/
def offHostRingCtl : Nat := 0x120100
/-- HOST_RING_BASE_LO: R494. -/
def offHostRingBaseLo : Nat := 0x120104
/-- HOST_RING_BASE_HI: R494. -/
def offHostRingBaseHi : Nat := 0x120108
/-- HOST_RING_PROD: R494. -/
def offHostRingProd : Nat := 0x12010C
/-- HOST_RING_CONS: R494. -/
def offHostRingCons : Nat := 0x120110
/-- HOST_RING_STAT: R494. -/
def offHostRingStat : Nat := 0x120114
/-- HOST_DBTGT: R494. -/
def offHostDbtgt : Nat := 0x120400
/-- HOST_H2DB: R494. -/
def offHostH2db : Nat := 0x120800
/-- HOST_D2HB: R494. -/
def offHostD2hb : Nat := 0x120808
/-- HOST_DESC: R494. -/
def offHostDesc : Nat := 0x120810
/-- HOST_DBDROP: R494. -/
def offHostDbdrop : Nat := 0x120818

/-- Rows of the HOST block, offsets within the block. -/
def regsHost0 : List RegRow := [
  regRow 0x0 1 0x0 0x0 0x0 0x3 0x0 0x0,
  regRow 0x4 1 0x0 0xA 0xFFFF 0x0 0x0 0x0,
  regRow 0x100 16 0x20 0x400000 0xFFF0FFFF 0x0 0x0 0x0,
  regRow 0x104 16 0x20 0x0 0xFFFFF000 0x0 0x0 0x0,
  regRow 0x108 16 0x20 0x0 0xFFFFFFFF 0x0 0x0 0x0,
  regRow 0x10C 16 0x20 0x0 0x0 0x0 0x0 0x0,
  regRow 0x110 16 0x20 0x0 0x0 0x0 0x0 0x0,
  regRow 0x114 16 0x20 0x0 0x0 0x80000000 0x0 0x0,
  regRow 0x400 64 0x4 0xFFFFFFFF 0xFFFFFFFF 0x0 0x0 0x0,
  cntRow 0x800 1 0x0,
  cntRow 0x808 1 0x0,
  cntRow 0x810 1 0x0,
  cntRow 0x818 1 0x0]

/-- Every row of the HOST block. -/
def regsHost : List RegRow := regsHost0

/-! ### USB (16_host_interfaces.md) -/

/-- USB_CTL: R495. -/
def offUsbCtl : Nat := 0x130000
/-- USB_STAT: R495. -/
def offUsbStat : Nat := 0x130004
/-- USB_CONRX: R495. -/
def offUsbConrx : Nat := 0x130008
/-- USB_CONTX: R495. -/
def offUsbContx : Nat := 0x13000C
/-- USB_IMG_BASE: R495. -/
def offUsbImgBase : Nat := 0x130010
/-- USB_IMG_SIZE: R495. -/
def offUsbImgSize : Nat := 0x130014
/-- USB_ALM: R495. -/
def offUsbAlm : Nat := 0x130020
/-- USB_ALMGO: R495. -/
def offUsbAlmgo : Nat := 0x130030
/-- USB_ABANDON: R495. -/
def offUsbAbandon : Nat := 0x130100
/-- USB_WAKECOL: R495. -/
def offUsbWakecol : Nat := 0x130108
/-- USB_ALMOVR: R495. -/
def offUsbAlmovr : Nat := 0x130110
/-- USB_RESETS: R495. -/
def offUsbResets : Nat := 0x130118

/-- Rows of the USB block, offsets within the block. -/
def regsUsb0 : List RegRow := [
  regRow 0x0 1 0x0 0x0 0xE0000000 0x0 0x0 0x0,
  regRow 0x4 1 0x0 0x0 0x0 0x0 0x0 0x0,
  regRow 0x8 1 0x0 0x0 0x8000FFFF 0x0 0x0 0x0,
  regRow 0xC 1 0x0 0x0 0x8000FFFF 0x0 0x0 0x0,
  regRow 0x10 1 0x0 0x0 0xFFFFFFFF 0x0 0x0 0x0,
  regRow 0x14 1 0x0 0x0 0x3FFFFF 0x0 0x0 0x0,
  regRow 0x20 4 0x4 0x0 0xFFFFFFFF 0x0 0x0 0x0,
  regRow 0x30 1 0x0 0x0 0x0 0x0 0x0 0x0,
  cntRow 0x100 1 0x0,
  cntRow 0x108 1 0x0,
  cntRow 0x110 1 0x0,
  cntRow 0x118 1 0x0]

/-- Every row of the USB block. -/
def regsUsb : List RegRow := regsUsb0

/-! ### HVS (18_power_isolation_package.md) -/

/-- HVS_CTL: R554. -/
def offHvsCtl : Nat := 0x140000
/-- HVS_STAT: R554. -/
def offHvsStat : Nat := 0x140004
/-- HVS_FTHR: R554. -/
def offHvsFthr : Nat := 0x140008
/-- HVS_FEED: R554. -/
def offHvsFeed : Nat := 0x140010
/-- HVS_FEED_MM: R554. -/
def offHvsFeedMm : Nat := 0x140018
/-- HVS_ALMOUT: R554. -/
def offHvsAlmout : Nat := 0x140020
/-- HVS_ALMSTAT: R554. -/
def offHvsAlmstat : Nat := 0x140024
/-- HVS_AIN: R554. -/
def offHvsAin : Nat := 0x140030
/-- HVS_AINCFG: R554. -/
def offHvsAincfg : Nat := 0x140034
/-- HVS_FEEDEV: R554. -/
def offHvsFeedev : Nat := 0x140100
/-- HVS_OUTFAULT: R554. -/
def offHvsOutfault : Nat := 0x140108
/-- HVS_AINCHG: R554. -/
def offHvsAinchg : Nat := 0x140110
/-- HVS_LINKDROP: R554. -/
def offHvsLinkdrop : Nat := 0x140118

/-- Rows of the HVS block, offsets within the block. -/
def regsHvs0 : List RegRow := [
  regRow 0x0 1 0x0 0xE000000A 0xE00000FF 0x0 0x0 0x0,
  regRow 0x4 1 0x0 0x0 0x0 0x40000000 0x0 0x0,
  regRow 0x8 1 0x0 0x28B905F0 0xFFFFFFFF 0x0 0x0 0x0,
  regRow 0x10 2 0x4 0xC0000000 0x0 0x0 0x0 0x0,
  regRow 0x18 2 0x4 0xFFF 0x0 0x0 0xFFF0FFF 0x0,
  regRow 0x20 1 0x0 0x0 0x707 0x0 0x0 0x0,
  regRow 0x24 1 0x0 0x0 0x0 0x70000 0x0 0x0,
  regRow 0x30 1 0x0 0x0 0x0 0x300 0x0 0x0,
  regRow 0x34 1 0x0 0x30014 0x300FF 0x0 0x0 0x0,
  cntRow 0x100 1 0x0,
  cntRow 0x108 1 0x0,
  cntRow 0x110 1 0x0,
  cntRow 0x118 1 0x0]

/-- Every row of the HVS block. -/
def regsHvs : List RegRow := regsHvs0

/-! ### ASSAY (17_boot_assay_faults.md) -/

/-- ASSAY_CTL: R528. -/
def offAssayCtl : Nat := 0x150000
/-- ASSAY_STAT: R528. -/
def offAssayStat : Nat := 0x150004
/-- ASSAY_UNLOCK: R528. -/
def offAssayUnlock : Nat := 0x150008
/-- ASSAY_NONCE: R528. -/
def offAssayNonce : Nat := 0x15000C
/-- ASSAY_ENGINT: R528. -/
def offAssayEngint : Nat := 0x150010
/-- ASSAY_BGINT: R528. -/
def offAssayBgint : Nat := 0x150014
/-- ASSAY_ENGFAIL: R528. -/
def offAssayEngfail : Nat := 0x150020
/-- ASSAY_SUPFAIL: R528. -/
def offAssaySupfail : Nat := 0x150030
/-- ASSAY_BANK: R528. -/
def offAssayBank : Nat := 0x150040
/-- ASSAY_ENGTESTS: R528. -/
def offAssayEngtests : Nat := 0x150100
/-- ASSAY_SKIPS: R528. -/
def offAssaySkips : Nat := 0x150108
/-- ASSAY_MIGRATIONS: R528. -/
def offAssayMigrations : Nat := 0x150110
/-- ASSAY_FAILURES: R528. -/
def offAssayFailures : Nat := 0x150118

/-- Rows of the ASSAY block, offsets within the block. -/
def regsAssay0 : List RegRow := [
  regRow 0x0 1 0x0 0xE0000040 0xE000FFFF 0x0 0x0 0x0,
  regRow 0x4 1 0x0 0x0 0x0 0x20000000 0x0 0x0,
  regRow 0x8 1 0x0 0x0 0x0 0x0 0x0 0x0,
  regRow 0xC 1 0x0 0x0 0x0 0x0 0x0 0x0,
  regRow 0x10 1 0x0 0x3C 0xFFFF 0x0 0x0 0x0,
  regRow 0x14 1 0x0 0x384 0xFFFF 0x0 0x0 0x0,
  regRow 0x20 4 0x4 0x0 0x0 0x0 0x0 0x0,
  regRow 0x30 1 0x0 0x0 0x0 0x0 0x0 0x0,
  regRow 0x40 16 0x4 0x80000000 0x0 0x0 0x0 0x0,
  cntRow 0x100 1 0x0,
  cntRow 0x108 1 0x0,
  cntRow 0x110 1 0x0,
  cntRow 0x118 1 0x0]

/-- Every row of the ASSAY block. -/
def regsAssay : List RegRow := regsAssay0

/-! ### GROVE (03_engine_programming_model.md) -/

/-- GROVE_ID: R108. -/
def offGroveId : Nat := 0x200000
/-- GROVE_HOLDLIM: R108. -/
def offGroveHoldlim : Nat := 0x200004
/-- GROVE_SGSEL: R108. -/
def offGroveSgsel : Nat := 0x200008
/-- GROVE_MEM_ECC: R108. -/
def offGroveMemEcc : Nat := 0x20000C
/-- GROVE_LD_SRC: R108. -/
def offGroveLdSrc : Nat := 0x200010
/-- GROVE_LD_DST: R108. -/
def offGroveLdDst : Nat := 0x200014
/-- GROVE_LD_LEN: R108. -/
def offGroveLdLen : Nat := 0x200018
/-- GROVE_LD_CTL: R108. -/
def offGroveLdCtl : Nat := 0x20001C
/-- GROVE_LD_STAT: R108. -/
def offGroveLdStat : Nat := 0x200020
/-- GROVE_ENG_CTL: R108. -/
def offGroveEngCtl : Nat := 0x201000
/-- GROVE_ENG_STAT: R108. -/
def offGroveEngStat : Nat := 0x201004
/-- GROVE_ENG_EXCV: R108. -/
def offGroveEngExcv : Nat := 0x201008
/-- GROVE_ENG_PC0: R108. -/
def offGroveEngPc0 : Nat := 0x201010
/-- GROVE_ENG_PC1: R108. -/
def offGroveEngPc1 : Nat := 0x201014
/-- GROVE_ENG_PC2: R108. -/
def offGroveEngPc2 : Nat := 0x201018
/-- GROVE_ENG_PC3: R108. -/
def offGroveEngPc3 : Nat := 0x20101C
/-- GROVE_ENG_CYC: R108. -/
def offGroveEngCyc : Nat := 0x201020
/-- GROVE_ENG_ISS: R108. -/
def offGroveEngIss : Nat := 0x201028
/-- GROVE_ENG_SW: R108. -/
def offGroveEngSw : Nat := 0x201030
/-- GROVE_ENG_ECC: R108. -/
def offGroveEngEcc : Nat := 0x201038
/-- QPC_SEL: R317. -/
def offQpcSel : Nat := 0x204000
/-- QPC_POP: R317. -/
def offQpcPop : Nat := 0x204004
/-- QPC_ALLOC: R317. -/
def offQpcAlloc : Nat := 0x204008
/-- QPC_FREE: R317. -/
def offQpcFree : Nat := 0x20400C
/-- QPC_PUSH_LO: R317. -/
def offQpcPushLo : Nat := 0x204010
/-- QPC_PUSH_HI: R317. -/
def offQpcPushHi : Nat := 0x204014
/-- QPC_STAT: R317. -/
def offQpcStat : Nat := 0x204018

/-- Rows of the GROVE block, offsets within the block. -/
def regsGrove0 : List RegRow := [
  regRow 0x0 1 0x0 0xFF0000 0x0 0x0 0x0 0x0,
  regRow 0x4 1 0x0 0x1000 0xFFFF 0x0 0x0 0x0,
  regRow 0x8 1 0x0 0x0 0xFFFFFFFF 0x0 0x0 0x0,
  regRow 0xC 1 0x0 0x0 0x0 0x0 0xFFFF 0x0,
  regRow 0x10 1 0x0 0x0 0xFFFFFFFF 0x0 0x0 0x0,
  regRow 0x14 1 0x0 0x0 0xFFFFFFFF 0x0 0x0 0x0,
  regRow 0x18 1 0x0 0x0 0xFFFFF 0x0 0x0 0x0,
  regRow 0x1C 1 0x0 0x0 0x307 0x0 0x0 0x0,
  regRow 0x20 1 0x0 0x0 0x0 0x2 0x0 0x0,
  regRow 0x1000 8 0x100 0x0 0xFF0100 0x0 0x0 0x0,
  regRow 0x1004 8 0x100 0x0 0x0 0x0 0x0 0x0,
  regRow 0x1008 8 0x100 0x0 0x1FFFC 0x0 0x0 0x0,
  regRow 0x1010 8 0x100 0x0 0x1FFFC 0x0 0x0 0x0,
  regRow 0x1014 8 0x100 0x0 0x1FFFC 0x0 0x0 0x0,
  regRow 0x1018 8 0x100 0x0 0x1FFFC 0x0 0x0 0x0,
  regRow 0x101C 8 0x100 0x0 0x1FFFC 0x0 0x0 0x0,
  cntRow 0x1020 8 0x100,
  cntRow 0x1028 8 0x100,
  cntRow 0x1030 8 0x100,
  regRow 0x1038 8 0x100 0x0 0x0 0x0 0xFFFF 0x0,
  regRow 0x4000 32 0x20 0x0 0xFFFF 0x0 0x0 0x0,
  regRow 0x4004 32 0x20 0x0 0x0 0x0 0x0 0x0,
  regRow 0x4008 32 0x20 0x0 0x0 0x0 0x0 0x0,
  regRow 0x400C 32 0x20 0x0 0x0 0x0 0x0 0x0]

/-- Rows of the GROVE block, offsets within the block. -/
def regsGrove1 : List RegRow := [
  regRow 0x4010 32 0x20 0x0 0x0 0x0 0x0 0x0,
  regRow 0x4014 32 0x20 0x0 0x0 0x0 0x0 0x0,
  regRow 0x4018 32 0x20 0x0 0x0 0x0 0x0 0x0]

/-- Every row of the GROVE block. -/
def regsGrove : List RegRow := regsGrove0 ++ regsGrove1

/-- The rows of the block that holds CSR offset `o`, by block number (R34). -/
def blockRows (o : Nat) : List RegRow :=
  match o / 0x10000 with
  | 0x0 => regsDev
  | 0x2 => regsTime
  | 0x3 => regsDisp
  | 0x4 => regsEca
  | 0x5 => regsRsf
  | 0x6 => regsQmgr
  | 0x7 => regsPkt
  | 0xD => regsCiph
  | 0xE => regsCruc
  | 0xF => regsMeter
  | 0x10 => regsNand
  | 0x11 => regsMirr
  | 0x12 => regsHost
  | 0x13 => regsUsb
  | 0x14 => regsHvs
  | 0x15 => regsAssay
  | b =>
    if 8 ≤ b ∧ b ≤ 0xC then regsMac
    else if 0x20 ≤ b ∧ b ≤ 0x30 then regsGrove
    else []

/-- Whether a row's copies, one word each or two for a counter, cover offset `o` of
their block. -/
def rowCovers (r : RegRow) (o : Nat) : Bool :=
  decide (r.off ≤ o) &&
    (let d := o - r.off
     if r.count ≤ 1 then decide (d = 0) || (r.cnt64 && decide (d = 4))
     else decide (d / r.stride < r.count) &&
       (decide (d % r.stride = 0) || (r.cnt64 && decide (d % r.stride = 4))))

/-- The row that describes the register at a CSR offset, if the spec defines one there. -/
def rowAt (o : Nat) : Option RegRow :=
  if o % 4 = 0 then (blockRows o).find? fun r => rowCovers r (o % 0x10000) else none

end Sys2Proof.Machine
end

