-- ==== Sys2Proof/Machine/State.lean ====
section
/-! DEFINITION. The state of the module, as plain data, and the state right after
device reset.  Registers stand in one CSR file by their offset; what the spec gives the
machine beyond its registers stands in one structure per block.  What a register shows
of such state is computed when it is read. -/

namespace Sys2Proof.Machine

/-- The register at CSR offset `o` after device reset: its row's reset value, zero where
the spec defines no register, the budgets of R170, and MAC4_CTL, which lacks GATE_PTP. -/
def csrDefault (o : Nat) : Word :=
  if o = offDispClass then 8
  else if o = offDispClass + 4 then 16
  else if o = offDispClass + 8 then 8
  else if o = offDispClass + 12 then 40
  else if o = offDispClass + 16 then 40
  else if o = offDispClass + 20 then 80
  else if o = offDispClass + 24 then 8000
  else if o = offMacCtl + 0x40000 then 0
  else
    match rowAt o with
    | none => 0
    | some r => BitVec.ofNat 32 r.reset

/-! ## Reasons a step stops -/

/-- A fault of the machine. -/
inductive Fault where
  /-- Raised by `DEVICE_RESET` for a low pulse on RESET_N from 1 µs to 10 µs,
  which R533 leaves undefined.  Safe: the model stops where the device goes on. -/
  | undefinedResetPulse
  deriving DecidableEq, Repr

/-- A refusal of the model. -/
inductive Refusal where
  /-- Raised by an arm of `exec` whose command has no meaning yet.  Safe. -/
  | notModelled (mnemonic : String)
  deriving DecidableEq, Repr

/-! ## Timebase (02_timebase.md) -/

/-- State of the timebase, TIME_STATE.MODE (R52). -/
inductive TimeMode where
  | freerun | locking | locked | holdover
  deriving DecidableEq, Repr

/-- The timebase behind its registers.  `ofs` and `rem` are held in units of
a third of 2⁻³² ns, finer than 1 ns as R50 and R57 ask. -/
structure TimeSt where
  /-- Tick boundaries since device reset. -/
  ticks : Nat
  /-- Fabric cycles of the frequency source from device reset to the origin: the last change
  of a rate, or the last step.  They are elapsed time. -/
  cyc : Nat
  /-- Fabric cycles since the origin. -/
  fab : Nat
  /-- F in units of 2⁻⁴⁴, PHASE_RATE and NFN_RATE in ppm as they act from the origin on (R49, R57). -/
  freq : Int
  pRate : Nat
  nRate : Nat
  /-- NFN (R39). -/
  nfn : BitVec 64
  /-- NFN-time of the origin less the start of tick `nfn`. -/
  sub : Int
  /-- Held NFN_OFS at the origin (R39, R57). -/
  ofs : Int
  /-- Held phase remainder at the origin (R50). -/
  rem : Int
  mode : TimeMode
  /-- TIME_FREQ values of the present stay in LOCKED, newest first, each with the
  elapsed time in ns from which it applies (R53). -/
  hist : List (Nat × Int)
  /-- Mean frozen when LOCKED was left (R53). -/
  avg : Int
  /-- LOCKED has been entered since reset (R53). -/
  everLocked : Bool
  /-- Elapsed ns from which the watchdog period counts (R54). -/
  wdStart : Nat
  /-- NFN_ALIGNED as the last alignment event gave it (R57). -/
  alignedTold : Bool
  /-- An edge was seen on CLK10_IN within the last 1 µs (R55). -/
  c10Edge : Bool
  /-- Error of CLK10_IN in 10⁻¹² (R55, TIME_C10_STAT). -/
  c10Err : Int
  /-- Elapsed ns at which C10_OK last became 1 (R55). -/
  c10Since : Nat
  /-- TIME_STATE.C10_FALLBACK. -/
  fallback : Bool
  /-- Frequency source in use: 0 ETHREF, 1 CLK10_IN (R55). -/
  src : Nat
  /-- Source taken at the next tick boundary, when a change waits (R55). -/
  srcNext : Option Nat
  /-- PPS_OUT is high (R64). -/
  pps : Bool
  /-- Time in ticks (`tickTime`) at which PPS_OUT falls, and TIME_PPS_CTL.GATE as it acts since the
  last rise (R64). -/
  ppsFall : Int
  ppsGate : Bool
  /-- The second marked last, and the elapsed ns of its rise. -/
  ppsLast : Option (Int × Nat)
  /-- Stamp in ns of elapsed time of the last captured edge of each TS_IN pin (R62). -/
  tsLast : SMap (Option Nat)
  /-- Edge that began a pulse too short for a TS_IN pin's glitch filter, whose end is still to come:
  true for a rise (R62). -/
  tsShort : SMap (Option Bool)
  deriving DecidableEq, Repr

/-- The timebase after device reset (R38, R52, R67). -/
def TimeSt.reset : TimeSt where
  ticks := 0
  cyc := 0
  fab := 0
  freq := 0
  pRate := 100
  nRate := 100
  nfn := 0
  sub := 0
  ofs := 0
  rem := 0
  mode := .freerun
  hist := []
  avg := 0
  everLocked := false
  wdStart := 0
  alignedTold := true
  c10Edge := false
  c10Err := 0
  c10Since := 0
  fallback := false
  src := 0
  srcNext := none
  pps := false
  ppsFall := 0
  ppsGate := false
  ppsLast := none
  tsLast := []
  tsShort := []

/-! ## Engines and contexts (03_engine_programming_model.md) -/

/-- A register of a context that a result in flight may write (R78, R86). -/
inductive RegId where
  | g (n : Nat)
  | p (n : Nat)
  | m (n : Nat)
  | a (n : Nat)
  /-- ST and the special registers by the numbers of R120. -/
  | sp (n : Nat)
  /-- Sets ST.AV (latency 2, R86). -/
  | stAV
  /-- Sets ST.SS (latency 2, R86). -/
  | stSS
  deriving DecidableEq, Repr

/-- A result in flight: visible from issue slot `due` on (R87).  `mac` marks the
accumulator of a MAC-class instruction, which another MAC-class accumulate input
sees one slot earlier (R86). -/
structure InFlight where
  due : Nat
  reg : RegId
  val : BitVec 40
  mac : Bool
  deriving DecidableEq, Repr

/-- A pending branch (R78): delay slots left, the address after them, whether that
address is a branch target, and whether the delay slots are annulled (R91). -/
structure Pend where
  left : Nat
  target : Nat
  taken : Bool
  annul : Bool
  deriving DecidableEq, Repr

/-- A far access that suspends its context until the response (R75, R76): `addr` is
the address of the R31 map, `pa` the place in the model's own address space. -/
inductive FarOp where
  /-- A load of `size` bytes into `dst`; `ext` sign-extends a 16-bit value; `post` is the
  pointer it post-modifies with its new value. -/
  | load (size : Nat) (ext : Bool) (dst : RegId) (addr : Word) (pa : Nat) (post : Option (Nat × Word))
  | aadd (rd : Nat) (add : Word) (addr : Word) (pa : Nat)
  | acas (rd : Nat) (cmp new : Word) (addr : Word) (pa : Nat)
  deriving DecidableEq, Repr

/-- An entry of an engine's store buffer (R75). -/
structure FarStore where
  ctx : Nat
  pa : Nat
  size : Nat
  val : BitVec 64
  deriving DecidableEq, Repr

/-- What a context in WAIT waits for (R96, R138, R140, R141). -/
inductive Wait where
  /-- TAKE, waiting for a task since `seq`. -/
  | take (mask : Nat) (seq : Nat)
  /-- TAKE whose service end waits for far stores. -/
  | takeEnd (mask : Nat)
  /-- WAITEVT with the NFN that ends the wait, if any. -/
  | waitEvt (limit : Option Nat)
  | fence
  | far (op : FarOp)
  /-- A far store that found the buffer full. -/
  | storeFull (st : FarStore)
  /-- DONE, with its delivery when it carries one. -/
  | done (deliver : Option (Word × Word))
  | signal (target value : Word)
  deriving DecidableEq, Repr

/-- State of a context (R96). -/
inductive CtxState where
  | stopped | ready | running
  | wait (w : Wait)
  | fault
  deriving DecidableEq, Repr

/-- The task in service of a context (R137) with what overrun judging needs (R171). -/
structure Task where
  chan : Nat
  tmpl : Nat
  entry : Nat
  list : Nat
  cls : Nat
  atom : Bool
  readyNfn : BitVec 64
  deriving DecidableEq, Repr

/-- One context (R78). -/
structure Ctx where
  g : SMap Word
  p : SMap Word
  m : SMap Word
  a : SMap (BitVec 40)
  st : Word
  /-- LC0, LS0, LE0, LC1, LS1, LE1, EPC, ETGT, ESTAT, ECAUSE, EADDR by number (R120). -/
  sp : SMap Word
  pc : Nat
  /-- Address of the instruction issued last, which GROVE_ENGe_PCc shows of a running context. -/
  lastPc : Nat
  pend : Option Pend
  /-- Results in flight, oldest issued first. -/
  infl : List InFlight
  /-- Issue slots of this context so far (R85). -/
  slot : Nat
  state : CtxState
  /-- A stop request that waits for its boundary or for the end of a wait (R101). -/
  stopReq : Bool
  task : Option Task
  /-- Signal queue: G0 and G1 of each entry, oldest first (R139, R141). -/
  sigq : List (Word × Word)
  /-- Engine cycles of own issuing with ST.HOLD at 1 (R100). -/
  holdCnt : Nat
  deriving DecidableEq, Repr

/-- ST after device reset: FRAC 1, CTX the context's number, PRIV 1 on a
supervisor (R80).  `k` is 4 × engine + context. -/
def stReset (k : Nat) : Word :=
  BitVec.ofNat 32 (0x400 + (k % 4) * 0x100000 + (if k / 4 ≥ 128 then 0x8000 else 0))

/-- A context after device reset: STOPPED, every register zero but ST (R79). -/
def Ctx.reset (k : Nat) : Ctx where
  g := []
  p := []
  m := []
  a := []
  st := stReset k
  sp := []
  pc := 0
  lastPc := 0
  pend := none
  infl := []
  slot := 0
  state := .stopped
  stopReq := false
  task := none
  sigq := []
  holdCnt := 0

/-- What the four contexts of an engine share. -/
structure Eng where
  /-- Store buffer of up to 16 entries, oldest first (R75). -/
  buf : List FarStore
  /-- Context that issued last (GROVE_ENGe_STAT.LASTCTX). -/
  last : Nat
  /-- Context that became RUNNING last, after which the next is chosen when it has left (R98). -/
  left : Nat
  deriving DecidableEq, Repr

def Eng.reset : Eng where
  buf := []
  last := 0
  left := 0

/-- A load-unit transfer in progress (R108, R109): its parameters and its outcome. -/
structure LoadXfer where
  src : Word
  dst : Word
  len : Nat
  zero : Bool
  dir : Bool
  eng : Nat
  deriving DecidableEq, Repr

/-- A kernel of the Media ROM in PM (R113): engine, place and row of R281. -/
structure KernAt where
  eng : Nat
  at_ : Nat
  row : Nat
  deriving DecidableEq, Repr

/-- Engines, contexts and load units.  Engines are numbered 0–127 and 128–135 for S0–S7. -/
structure CoreSt where
  ctx : SMap Ctx
  eng : SMap Eng
  /-- Load-unit transfer of each grove, while GROVE_LD_STAT.BUSY is 1. -/
  load : SMap (Option LoadXfer)
  /-- Engines removed by assay, rising (R519). -/
  removed : List Nat
  /-- Kernels of the Media ROM that images or load units placed whole in PM. -/
  kern : List KernAt
  deriving DecidableEq, Repr

def CoreSt.reset : CoreSt where
  ctx := []
  eng := []
  load := []
  removed := []
  kern := []

/-! ## Task dispatcher (05_dispatcher.md) -/

/-- State of a task instance (R155); the state Free is the absence of the instance. -/
inductive InstState where
  | open | held | listed
  deriving DecidableEq, Repr

/-- A matching-store entry that holds a task instance (R155, R156). -/
structure Inst where
  entry : Nat
  chan : Nat
  tmpl : Nat
  val : List (Option Word)
  state : InstState
  readyNfn : BitVec 64
  /-- Order in which instances became READY (R166, R167). -/
  readySeq : Nat
  deriving DecidableEq, Repr

/-- A release entry (R161). -/
structure Rel where
  en : Bool
  phase : Nat
  tmpl : Nat
  slot : Nat
  deriving DecidableEq, Repr

def Rel.reset : Rel where
  en := false
  phase := 0
  tmpl := 0
  slot := 0

/-- A device entry for a signal queue: G0, G1 and the target context (R141, R174). -/
structure DevEntry where
  ctx : Nat
  g0 : Word
  g1 : Word
  deriving DecidableEq, Repr

/-- The dispatcher behind its registers. -/
structure DispSt where
  /-- Instances of the matching store, in the order in which they opened (R156). -/
  insts : List Inst
  /-- Installed templates: their A and B words (R152). -/
  tmpl : SMap (Option (Word × Word))
  rel : SMap Rel
  /-- Waiting device entries, at most one per target context (R174). -/
  dev : List DevEntry
  /-- Pending entry of each timer whose KIND 1 target is full: its target context and value (R164). -/
  tmr : SMap (Option (Nat × Word))
  /-- `ticks` plus one at which each timer last fired. -/
  tmrAt : SMap Nat
  /-- Next READY order number. -/
  seq : Nat
  /-- Next TAKE order number (R167). -/
  takeSeq : Nat
  /-- Level last reported (R172). -/
  level : Nat
  /-- Set B at the last tick boundary, rising context numbers (R176). -/
  blocked : List Nat
  /-- B has changed since that boundary. -/
  dlkDirty : Bool
  /-- `ticks` of the boundary T of R176. -/
  dlkT : Nat
  /-- A deadlock event stands (DISP_STAT.DLK). -/
  dlk : Bool
  deriving DecidableEq, Repr

def DispSt.reset : DispSt where
  insts := []
  tmpl := []
  rel := []
  dev := []
  tmr := []
  tmrAt := []
  seq := 0
  takeSeq := 0
  level := 0
  blocked := []
  dlkDirty := false
  dlkT := 0
  dlk := false

/-! ## Queue manager (09_queues_packet_engine.md) -/

/-- An item: its first cell and its number of cells (R289, R295). -/
structure Item where
  head : Nat
  n : Nat
  deriving DecidableEq, Repr

/-- A notice held for a queue: the sum of the values, and the source that pushed (R297). -/
structure Notice where
  value : Nat
  src : Nat
  deriving DecidableEq, Repr

/-- A queue's configuration and state (R292). -/
structure Queue where
  en : Bool
  event : Bool
  ntype : Nat
  limit : Nat
  note : Word
  /-- Items held, oldest first. -/
  items : List Item
  /-- Last value popped; a queue never popped answers 0 with UNDER (R295). -/
  last : Word
  under : Bool
  err : Bool
  lost : Word
  lostFlag : Bool
  bound : Bool
  notice : Option Notice
  deriving DecidableEq, Repr

/-- A queue after device reset: disabled, empty, LOST 0 (R292). -/
def Queue.reset : Queue where
  en := false
  event := false
  ntype := 0
  limit := 0
  note := 0
  items := []
  last := 0
  under := false
  err := false
  lost := 0
  lostFlag := false
  bound := false
  notice := none

/-- The queue manager behind its registers. -/
structure QmgrSt where
  queue : SMap Queue
  /-- Cells out of the clearing, rising (R290). -/
  used : List Nat
  /-- The clearing stands below QMGR_CLR_LOWEV.THR and the fall has been reported (R316). -/
  low : Bool
  /-- Item staged by QP_PUSH_LO at each portal, by the offset of its QP_SEL (R296). -/
  staged : SMap Word
  deriving DecidableEq, Repr

def QmgrSt.reset : QmgrSt where
  queue := []
  used := []
  low := false
  staged := []

/-! ## Channels (08_channels_media_rom.md) -/

/-- What an accepted channel holds (R265): the values it was accepted with. -/
structure Binding where
  /-- Head and tail EC records. -/
  ec : List Nat
  /-- Receive and send key slots, when the channel has SRTP. -/
  keys : List Nat
  /-- SRTP leg: 0 none, 1 trunk, 2 access (R254). -/
  srtp : Nat
  /-- Trunk-to-access and access-to-trunk queues. -/
  qTrunk : Nat
  qAccess : Nat
  /-- Trunk-leg and access-leg flow entries. -/
  fTrunk : Nat
  fAccess : Nat
  wide : Bool
  ecu : Nat
  ecUnits : Nat
  relay : Nat
  /-- Words of the descriptor's fixed half, which the channel's tasks go by (R30). -/
  fixed : List Word
  deriving DecidableEq, Repr

/-- Playout of one direction of a channel by the standard templates (R271–R274), opaque in the
record (log entry 26). -/
structure Play where
  /-- The anchor is set: timestamp or sequence number of its frame, and B_a. -/
  on : Bool
  first : Nat
  ba : Int
  ssrc : Nat
  /-- Depth in blocks; blocks in succession without a frame; blocks since a frame was late or came
  less than two blocks before its B; a decrease of the depth is due (R272, R273). -/
  depth : Nat
  gap : Nat
  good : Nat
  fall : Bool
  /-- The SID frame whose comfort noise is in progress. -/
  sid : Option (List Byte)
  /-- Sequence numbers taken last. -/
  seen : List Nat
  /-- Samples decoded and not yet played. -/
  hand : List Byte
  deriving DecidableEq, Repr

def Play.reset : Play where
  on := false
  first := 0
  ba := 0
  ssrc := 0
  depth := 0
  gap := 0
  good := 0
  fall := false
  sid := none
  seen := []
  hand := []

/-- The packet a leg of a channel is building (R277): RTP fields, coded blocks and how many, half
a frame of samples, whether a block was voice, the SID frame last analysed, and whether the
packet before was silent. -/
structure LegOut where
  seq : Nat
  ts : Nat
  ssrc : Nat
  body : List Byte
  blocks : Nat
  half : List Byte
  voice : Bool
  sid : List Byte
  mute : Bool
  deriving DecidableEq, Repr

def LegOut.reset : LegOut where
  seq := 0
  ts := 0
  ssrc := 0
  body := []
  blocks := 0
  half := []
  voice := false
  sid := []
  mute := false

/-- What the standard templates keep of a channel beside its record: playout towards the access leg
and towards the trunk, the packets in hand, the release served, FIFOLVL of chain T, the orderly
stop (0 none, 1 in its last period, 2 quiesced), the options applied, a RESYNC that is due,
and whether this is the first period after a takeover.  What a playout's bytes of the record hold stands there. -/
structure Media where
  toAccess : Play
  toTrunk : Play
  access : LegOut
  trunk : LegOut
  rel : Nat
  fifo : Nat
  quiet : Nat
  proc : Word
  resync : Bool
  handed : Bool
  deriving DecidableEq, Repr

def Media.reset : Media where
  toAccess := Play.reset
  toTrunk := Play.reset
  access := LegOut.reset
  trunk := LegOut.reset
  rel := 0
  fifo := 0
  quiet := 0
  proc := 0
  resync := false
  handed := false

/-- The channels: bindings of the accepted ones, and the checks that wait, in the order
of their writes (R263): each the channel and the fabric cycle of its write. -/
structure ChanSt where
  bind : SMap (Option Binding)
  checks : List (Nat × Nat)
  /-- Channels with a check pending whose EN has been cleared since (R266). -/
  cleared : List Nat
  /-- What the standard templates keep of each channel. -/
  media : SMap Media
  deriving DecidableEq, Repr

def ChanSt.reset : ChanSt where
  bind := []
  checks := []
  cleared := []
  media := []

/-! ## Packet engine (09_queues_packet_engine.md) -/

/-- A frame handed to a MAC for transmission, without FCS. -/
structure TxFrame where
  bytes : List Byte
  /-- Priority of R332; 8 for the port's own PFC frames, which no pause holds. -/
  prio : Nat
  express : Bool
  /-- Elapsed ns at which it was handed over, for PFC_HOLD (R332). -/
  since : Nat
  /-- Items whose cells return to the clearing once the frame has left (R315). -/
  items : List Item
  deriving DecidableEq, Repr

/-- What the packet engine holds for a departure (R310, R314). -/
inductive Held where
  | item (i : Item)
  | frame (port : Nat) (f : TxFrame)
  deriving DecidableEq, Repr

/-- A held departure: its extended DEP (R314). -/
structure HeldItem where
  dep : Int
  what : Held
  deriving DecidableEq, Repr

/-- A CESoPSN contribution placed in a packet (R310). -/
structure CesPart where
  flow : Nat
  dep : Nat
  slot : Nat
  pos : Nat
  item : Item
  deriving DecidableEq, Repr

/-- A member frame placed in a bundle (R312): the BUNDLE entry, the departure tick,
the tag word and the item. -/
structure BundleFrame where
  flow : Nat
  dep : Nat
  tag : Nat
  item : Item
  deriving DecidableEq, Repr

/-- A request in the packet engine's own path to the cipher engine (R305, R352): the
channel, its leg, and the item that holds the prefix and the SRTP packet. -/
structure RxSecure where
  chan : Nat
  leg : Nat
  item : Item
  deriving DecidableEq, Repr

/-- The packet engine behind its registers. -/
structure PktSt where
  /-- Flow entries of 16 bytes (R303). -/
  flow : SMap (List Byte)
  /-- Entries lost to an uncorrectable error until they are rewritten (R316). -/
  flowBad : SMap Bool
  /-- Header templates of 64 bytes (R304). -/
  tmpl : SMap (List Byte)
  tmplBad : SMap Bool
  /-- Input queue the engine visits next (R315). -/
  txAt : Nat
  /-- Departures held, in the order taken (R314). -/
  held : List HeldItem
  /-- NFN of the last tick boundary, by which a jump is known (R314). -/
  seen : Nat
  ces : List CesPart
  /-- Departure ticks of each pseudowire whose packets are built and have not passed (R310). -/
  cesSent : SMap (List Nat)
  /-- Next CESoPSN sequence number of each pseudowire (R310). -/
  cesSeq : SMap Nat
  /-- Tick plus one at which each pseudowire last received a valid packet (R310). -/
  cesRx : SMap Nat
  bundle : List BundleFrame
  /-- Last departure tick performed of each bundle, plus one (R312). -/
  bunSent : SMap Nat
  /-- Next BSEQ of each bundle (R311). -/
  bunSeq : SMap Nat
  /-- Highest EPOCH seen on each bundle (R313). -/
  bunEpoch : SMap Nat
  /-- The last 64 BSEQ received at that EPOCH, newest first (R313). -/
  bunRec : SMap (List Nat)
  /-- SRTP packets on their way to the cipher engine, oldest first (R305). -/
  secure : List RxSecure
  deriving DecidableEq, Repr

def PktSt.reset : PktSt where
  flow := []
  flowBad := []
  tmpl := []
  tmplBad := []
  txAt := 0
  held := []
  seen := 0
  ces := []
  cesSent := []
  cesSeq := []
  cesRx := []
  bundle := []
  bunSent := []
  bunSeq := []
  bunEpoch := []
  bunRec := []
  secure := []

/-! ## Ethernet ports (10_ethernet.md) -/

/-- A received frame in a port's FIFO, without FCS (R326, R329), with its compensated
stamp (R44): TS32, PTP time in ns, whether ASYM was applied, and whether the timebase was
not LOCKED. -/
structure RxFrame where
  bytes : List Byte
  trunc : Bool
  ts : Nat
  ptp : Int
  asym : Bool
  unlocked : Bool
  deriving DecidableEq, Repr

/-- Verification status of frame preemption, MACn_STAT.VERIFY (R334). -/
inductive Verify where
  | disabled | initial | verifying | succeeded | failed
  deriving DecidableEq, Repr

/-- A preempted frame being received: its bytes, the NFN-time and PTP time of its first
fragment in units of a third of 2⁻³² ns, and whether the timebase was not LOCKED then (R330, R335). -/
structure RxAsm where
  bytes : List Byte
  nt : Int
  pt : Int
  unlocked : Bool
  deriving DecidableEq, Repr

/-- A frame in flight: its octets already sent, whether it has been preempted, the octets sent
before its present fragment, and the times of its first octet as in `RxAsm` (R335, R44). -/
structure TxCur where
  frame : TxFrame
  sent : Nat
  cut : Bool
  start : Nat
  nt : Int
  pt : Int
  unlocked : Bool
  deriving DecidableEq, Repr

/-- One port behind its registers. -/
structure MacSt where
  link : Bool
  lock : Bool
  /-- Elapsed ns since which block lock has held without a fault (R321). -/
  lockSince : Nat
  localFault : Bool
  remoteFault : Bool
  gated : Bool
  /-- The mirror controller has ungated the port; it takes effect at a frame boundary (R336). -/
  ungate : Bool
  verify : Verify
  /-- Verify frames sent and the elapsed ns of the last (R334). -/
  vSent : Nat
  vAt : Nat
  /-- Respond frames sent to the partner's verify frames (R334). -/
  responds : Nat
  /-- End of the pause of each paused priority, in 1/100 ns of elapsed time (R332). -/
  pause : SMap Nat
  xoff : Bool
  /-- Elapsed ns at which the last PFC frame was sent (R332). -/
  pfcAt : Nat
  rx : List RxFrame
  /-- The preempted frame being received (R335). -/
  asm : Option RxAsm
  /-- Frames handed over, oldest first. -/
  tx : List TxFrame
  /-- The frame in flight. -/
  cur : Option TxCur
  /-- The last frame put on the line, FCS included (the model's own). -/
  wire : List Byte
  deriving DecidableEq, Repr

def MacSt.reset : MacSt where
  link := false
  lock := false
  lockSince := 0
  localFault := false
  remoteFault := false
  gated := false
  ungate := false
  verify := .disabled
  vSent := 0
  vAt := 0
  responds := 0
  pause := []
  xoff := false
  pfcAt := 0
  rx := []
  asm := none
  tx := []
  cur := none
  wire := []


/-! ## Coprocessor units (R142, R143) -/

/-- A 16-byte command in a unit's queue, with the context that issued it (4 × engine +
context) and whether it was privileged. -/
structure UnitCmd where
  w0 : Word
  w1 : Word
  w2 : Word
  w3 : Word
  ctx : Nat
  priv : Bool
  deriving DecidableEq, Repr

/-- A completion that waits for delivery: its target, its value, and the number that
orders it among completions of the same number (a key slot, a channel record). -/
structure Completion where
  target : Word
  value : Word
  key : Nat
  deriving DecidableEq, Repr

/-- What every unit keeps: commands not yet begun, oldest first, and completions not yet
delivered, in the order in which the commands ended. -/
structure UnitSt where
  q : List UnitCmd
  done : List Completion
  deriving DecidableEq, Repr

def UnitSt.reset : UnitSt where
  q := []
  done := []

/-! ## SRTP cipher engine (11_cipher.md) -/

/-- State of a key slot (R347). -/
inductive SlotState where
  | empty | loaded | retired | fault
  deriving DecidableEq, Repr

/-- A key slot (R347). -/
structure KeySlot where
  state : SlotState
  profile : Nat
  /-- DIR 1, protect. -/
  send : Bool
  /-- The SSRC is still to be learned (R350). -/
  learn : Bool
  ssrc : Nat
  /-- Session keys and salts for SRTP and SRTCP (R343). -/
  key : List Byte
  salt : List Byte
  ckey : List Byte
  csalt : List Byte
  /-- SRTP index: the next to send, or the highest authenticated. -/
  idx : Nat
  /-- SRTCP index, likewise. -/
  cidx : Nat
  /-- No SRTP packet has been authenticated since the import or a promotion. -/
  fresh : Bool
  /-- Replay windows: bit j stands for the highest index minus j. -/
  win : BitVec 128
  cwin : BitVec 128
  /-- Send horizons that bind, and raises that wait for their ACK (R452). -/
  hor : Option Nat
  chor : Option Nat
  rise : Option Nat
  crise : Option Nat
  deriving DecidableEq, Repr

/-- A key slot after device reset: EMPTY. -/
def KeySlot.reset : KeySlot where
  state := .empty
  profile := 0
  send := false
  learn := false
  ssrc := 0
  key := []
  salt := []
  ckey := []
  csalt := []
  idx := 0
  cidx := 0
  fresh := true
  win := 0
  cwin := 0
  hor := none
  chor := none
  rise := none
  crise := none

/-- The cipher engine behind its registers. -/
structure CiphSt where
  unit : UnitSt
  slot : SMap KeySlot
  /-- The key-encryption key (R349). -/
  kek : Option (List Byte)
  /-- A derivation runs. -/
  deriving_ : Bool
  /-- Slots in which a parity error stands (R356).
  DESIGN CHOICE, log entry 69. -/
  parity : List Nat
  deriving DecidableEq, Repr

def CiphSt.reset : CiphSt where
  unit := UnitSt.reset
  slot := []
  kek := none
  deriving_ := false
  parity := []


/-! ## Crucible (12_crucible.md) -/

/-- The fields of a request descriptor (R365) that the caller writes, and its place. -/
structure CrucData where
  d : Nat
  src : Nat
  len : Nat
  dst : Nat
  cap : Nat
  deriving DecidableEq, Repr

/-- A request of one of the crucible's queues (R362): its words, its queue (0 CPX,
1 storage, 2 host), its place in the order of acceptance, and the issuing context. -/
structure CrucReq where
  w0 : Word
  w1 : Word
  w2 : Word
  w3 : Word
  queue : Nat
  seq : Nat
  ctx : Nat
  /-- What the descriptor at W2 holds where it lies in buffers of the storage controller's own
  (R424, log entry 174); `none` for a descriptor in heartwood. -/
  desc : Option CrucData
  deriving DecidableEq, Repr

/-- A symbol of a DEFLATE block: a byte, or a match of a length at a distance. -/
inductive CrucTok where
  | lit (b : Byte)
  | ref (len dist : Nat)
  deriving DecidableEq, Repr

/-- A block not yet ended: its symbols and the bytes they stand for (R364). -/
structure CrucPart where
  toks : List CrucTok
  bytes : List Byte
  deriving DecidableEq, Repr

/-- A completion that waits for delivery (R375). -/
structure CrucDone where
  target : Word
  value : Word
  queue : Nat
  seq : Nat
  deriving DecidableEq, Repr

/-- The crucible behind its registers. -/
structure CrucSt where
  /-- Requests not yet begun, in the order of acceptance. -/
  q : List CrucReq
  done : List CrucDone
  /-- Next order number. -/
  seq : Nat
  /-- Queue served next (R362). -/
  turn : Nat
  /-- Partial blocks too long for ENGINE, which then holds the block's number, from 1 (log
  entry 172). -/
  parts : List CrucPart
  deriving DecidableEq, Repr

def CrucSt.reset : CrucSt where
  q := []
  done := []
  seq := 0
  turn := 0
  parts := []


/-! ## Sealed tariff meter (13_tariff_meter.md) -/

/-- State of the meter, METER_STAT.STATE. -/
inductive MeterMode where
  | selftest | run | fault
  deriving DecidableEq, Repr

/-- A command in the meter's queue: its words, its CSEQ, and its stamp (R384): meter time
and interval counter. -/
structure MeterCmd where
  w : List Word
  cseq : Nat
  time : Int
  ic : Nat
  /-- Sent by the mirror controller (R463). -/
  mirr : Bool
  /-- SUSPECT and NOREF at the stamp (R395). -/
  suspect : Bool
  noref : Bool
  /-- The new-call reason 0x81 to 0x84 that stood at the stamp, 0 for none (R387). -/
  refuse : Nat
  deriving DecidableEq, Repr

/-- An entry of the open-call table (R387): the start of the interval of its next END or
PARTIAL record, and the call's start stamp and interval count at start. -/
structure OpenCall where
  ref : Word
  adopted : Bool
  time : Int
  ic : Nat
  start : Int
  startIc : Nat
  deriving DecidableEq, Repr

/-- What the METER block keeps of the last report beside its registers (R382): the open calls,
the audit entries, METER_HMKBLOB, and meter time. -/
structure MeterTold where
  open_ : SMap (Option OpenCall)
  audit : List (List Byte)
  blob : List Byte
  time : Int
  deriving DecidableEq, Repr

def MeterTold.reset : MeterTold where
  open_ := []
  audit := []
  blob := []
  time := 0

/-- A stretch of the meter's clock at one rate: meter time and interval counter at its
start and end, what fixed the rate, and whether the meter was SUSPECT or in NOREF. -/
structure Stretch where
  t0 : Int
  i0 : Nat
  t1 : Int
  i1 : Nat
  key : Int × Int × Int
  suspect : Bool
  noref : Bool
  deriving DecidableEq, Repr

/-- The meter die.  Times are in units of 10⁻⁹ ns. -/
structure MeterSt where
  /-- VMETER is present. -/
  power : Bool
  /-- The status link reports (R382). -/
  present : Bool
  /-- METER_PROG_N is low. -/
  prog : Bool
  mode : MeterMode
  pairId : Bool
  q : List MeterCmd
  /-- Elapsed ns for which the clock below stands. -/
  at_ : Nat
  /-- Meter time (R392). -/
  time : Int
  /-- Interval counter (R392). -/
  ic : Nat
  /-- Crystal time with TC applied (R394). -/
  xt : Nat
  /-- What the world does to the crystal: its deviation in ppb from its own parabola, and the die
  temperature in °C (R392). -/
  skew : Int
  temp : Int
  /-- RATE in ppb. -/
  rate : Int
  /-- Offset still to be slewed away (R394). -/
  resid : Int
  valid : Bool
  suspect : Bool
  noref : Bool
  /-- N of the last valid tick and meter time at its arrival. -/
  lastTick : Option (Nat × Int)
  /-- Interval counter at the last valid tick, or when VMETER came up (R393). -/
  refIc : Nat
  /-- Consecutive valid ticks with |o| ≤ 1 s. -/
  goodRun : Nat
  /-- o of the consecutive valid ticks with |o| > 1 s, newest first, the last 16 of them. -/
  farOfs : List Int
  /-- Valid ticks of the present drift measurement, and crystal time at its first. -/
  driftRun : Nat
  driftXt : Nat
  ofs : Int
  drift : Int
  /-- Meter time of the last self-test. -/
  testAt : Int
  /-- The clock since the oldest start that an open call or a queued command needs,
  newest stretch first. -/
  trail : List Stretch
  /-- Committed sets with the interval counter from which each applies, newest first. -/
  cals : List (Nat × SMap (Word × Word))
  open_ : SMap (Option OpenCall)
  /-- RSEQ of the newest record. -/
  rseq : Nat
  /-- The newest record kept, for PREV; none at the start of a sequence. -/
  prev : Option (List Byte)
  /-- The record buffer, oldest first, with the interval counter at each record. -/
  buffer : List (Nat × List Byte)
  jrseq : Nat
  jrel : Nat
  jlost : Nat
  /-- Records lost and not yet told in a LOSS record, and the first of them (R390). -/
  loss : Nat
  lossFirst : Nat
  totCalls : Nat
  totMs : Nat
  totBand : List Nat
  /-- Staged and committed parameters by number 0–106: W6 and W7 (R397). -/
  staged : SMap (Word × Word)
  committed : SMap (Word × Word)
  hasSet : Bool
  sealed_ : Bool
  hmk : Option (List Byte)
  /-- SEAL registers as they were passed to the meter, by CSR offset (R404). -/
  sealReg : SMap Word
  armed : Option Nat
  audit : List (List Byte)
  swchk : Bool
  /-- The instant VMETER failed: meter time and interval counter (R396). -/
  failAt : Int
  failIc : Nat
  /-- JFREE stood below the low mark at the last report (R409). -/
  lowTold : Bool
  /-- JLOST at the last report (R409). -/
  lostTold : Nat
  /-- Ticks discarded and not yet reported in METER_BADTICK (R393). -/
  badTicks : Nat
  /-- Elapsed ns of the last report over the status link, and what it said (R382). -/
  toldAt : Nat
  told : MeterTold
  /-- The COMMIT that a power failure interrupted (R405). -/
  half : Option MeterCmd
  deriving DecidableEq, Repr

/-- A fresh meter that has passed its power-up self-test and has no time yet. -/
def MeterSt.reset : MeterSt where
  power := true
  present := false
  prog := false
  mode := .run
  pairId := false
  q := []
  at_ := 0
  time := 0
  ic := 0
  xt := 0
  skew := 0
  temp := 25
  rate := 0
  resid := 0
  valid := false
  suspect := false
  noref := false
  lastTick := none
  refIc := 0
  goodRun := 0
  farOfs := []
  driftRun := 0
  driftXt := 0
  ofs := 0
  drift := 0
  testAt := 0
  trail := []
  cals := []
  open_ := []
  rseq := 0
  prev := none
  buffer := []
  jrseq := 0
  jrel := 0
  jlost := 0
  loss := 0
  lossFirst := 0
  totCalls := 0
  totMs := 0
  totBand := [0, 0, 0, 0]
  staged := []
  committed := []
  hasSet := false
  sealed_ := false
  hmk := none
  sealReg := []
  armed := none
  audit := []
  swchk := true
  failAt := 0
  failIc := 0
  lowTold := false
  lostTold := 0
  badTicks := 0
  toldAt := 0
  told := MeterTold.reset
  half := none

/-! ## NAND flash storage (14_storage.md) -/

/-- State of a block, NAND_BINFO.STATE. -/
inductive BlkState where
  | free | used | factoryBad | retired
  deriving DecidableEq, Repr

/-- A flash block (R414, R415): its state, its partition and logical block, its
generation, whether relocation is writing it and has not yet programmed its last page (R420), erases,
reads since the last erase, whether a refresh is due, and its erase count as last saved with whether
it was opened since. -/
structure Blk where
  state : BlkState
  part : Nat
  lblk : Nat
  gen : Nat
  reloc : Bool
  erases : Nat
  reads : Nat
  want : Bool
  saved : Nat
  opened : Bool
  deriving DecidableEq, Repr

def Blk.reset : Blk where
  state := .free
  part := 0
  lblk := 0
  gen := 0
  reloc := false
  erases := 0
  reads := 0
  want := false
  saved := 0
  opened := false

/-- A programmed unit of 4 KiB (R415): FIRST, PARAM, its data without the 0xFF that fills
it, whether it is uncorrectable, whether compaction has copied it elsewhere, and RELOC. -/
structure FlashUnit where
  first : Bool
  param : Bool
  data : List Byte
  lost : Bool
  old : Bool
  reloc : Bool
  deriving DecidableEq, Repr

/-- A copy of the anchor's tables (R417): the partition table, the bad blocks, and the state and
erase count of each block that is not free and unerased. -/
structure Anchor where
  table : List Byte
  bad : List Nat
  blocks : SMap (BlkState × Nat)
  deriving DecidableEq, Repr

/-- A partition behind the table: next LPA or slot, LPA below which all is trimmed, block
generation, elapsed ns of the last static move, and the position of patrol. -/
structure PartSt where
  next : Nat
  low : Nat
  gen : Nat
  wlAt : Option Nat
  deriving DecidableEq, Repr

def PartSt.reset : PartSt where
  next := 0
  low := 0
  gen := 0
  wlAt := none

/-- A command in the storage queue. -/
structure NandCmd where
  w : List Word
  cseq : Nat
  deriving DecidableEq, Repr

/-- The storage controller and the flash it drives. -/
structure NandSt where
  q : List NandCmd
  /-- Chunks that the crucible has ended for an append with COMPRESS, oldest first, by the
  number of the command: code and bytes (R424). -/
  comp : SMap (Option (List (Nat × List Byte)))
  done : List Completion
  mounted : Bool
  blank : Bool
  unclean : Bool
  /-- Geometry of the targets found: 16 KiB pages, partial programs, pages per block, and
  blocks of each target. -/
  page16 : Bool
  nop : Nat
  ppb : Nat
  blocks : List Nat
  /-- TMODE and NAND_PSLC0–3 as the last device reset found them (R413). -/
  tmode : Nat
  pslc : List Word
  /-- The timing mode selected for each target, and the SET FEATURES address and value that it was
  given (R413). -/
  timing : List (Option Nat)
  features : List (Option (Nat × Nat))
  /-- The partition table in force, if one is installed (R417). -/
  table : Option (List Byte)
  /-- What the anchor's two blocks hold: two copies, or nothing on a blank device (R417). -/
  anchor : List Anchor
  blk : SMap Blk
  /-- Units by global block × 2048 + place in the block. -/
  unit : SMap (Option FlashUnit)
  part : SMap PartSt
  /-- The block table has changed since it was last saved. -/
  dirty : Bool
  /-- Erases since the block table was last saved (R420). -/
  eraseRun : Nat
  /-- Groups of records handed over by the meter and not yet programmed (R427). -/
  hand : List (List (List Byte))
  /-- Parameter images from the meter not yet programmed, with their hallmark (R429). -/
  images : List (List Byte)
  /-- The logical block, 0 or 1, that holds the latest parameter image. -/
  paramAt : Nat
  /-- Pages still to be read by the present patrol pass: global block × 512 + page; how many it
  began with, and whether a PATROL command began it. -/
  patrol : List Nat
  patrolLen : Nat
  patrolCmd : Bool
  /-- Elapsed ns at which the last pass started (R433). -/
  patrolAt : Option Nat
  deriving DecidableEq, Repr

def NandSt.reset : NandSt where
  q := []
  comp := []
  done := []
  mounted := false
  blank := false
  unclean := false
  page16 := false
  nop := 0
  ppb := 0
  blocks := []
  tmode := 7
  pslc := [0, 0, 0, 0]
  timing := []
  features := []
  table := none
  anchor := []
  blk := []
  unit := []
  part := []
  dirty := false
  eraseRun := 0
  hand := []
  images := []
  paramAt := 0
  patrol := []
  patrolLen := 0
  patrolCmd := false
  patrolAt := none


/-! ## Echo canceller array (06_echo_canceller.md) -/

/-- The ECA: its command queue and results, and the cluster that holds each result not
yet delivered (R182, R212). -/
structure EcaSt where
  unit : UnitSt
  busy : List Nat
  deriving DecidableEq, Repr

def EcaSt.reset : EcaSt where
  unit := ⟨[], []⟩
  busy := []


/-! ## Resampler and filter bank (07_resampler_filters.md) -/

/-- What the RSF keeps of a chain beside its state block, by the address of the block: whether
its anchor is set, what does not fit into PHACC of WSTART_prev (R229), the delay line of the old path and its delay
while a fade runs (R233), the samples since the last step, the detectors that skip a sample
(R237), and the samples consumed that the resampler's taps still reach, newest first (R227).
DEDUCED, log entry 102. -/
structure RsfSide where
  wprev : Int
  anchor : Bool
  oldLine : List Int
  oldDelay : Nat
  cnt : Nat
  skip : Nat
  past : List Int
  deriving DecidableEq, Repr

def RsfSide.reset : RsfSide where
  wprev := 0
  anchor := false
  oldLine := []
  oldDelay := 0
  cnt := 0
  skip := 0
  past := []

/-- The RSF: its command queue and results, and the pipe that holds each result not yet
delivered (R220). -/
structure RsfSt where
  unit : UnitSt
  busy : List Nat
  side : SMap RsfSide
  deriving DecidableEq, Repr

def RsfSt.reset : RsfSt where
  unit := ⟨[], []⟩
  busy := []
  side := []


/-! ## Mirror controller (15_mirror_pair.md) -/

/-- Role of a unit of a pair (R442). -/
inductive MirrRole where
  | init | standby | active | fenced
  deriving DecidableEq, Repr

/-- What waits to be sent to the peer (R451, R456, R458): the descriptor of a channel,
read when its frame is built and sent as part of a bulk sync or not; the horizons and
index of a channel (R452); or a frame of the given TYPE and payload. -/
inductive MirrPost where
  | desc (chan : Nat) (sync : Bool)
  | horizon (chan : Nat)
  | frame (type : Nat) (sync : Bool) (payload : List Byte)
  deriving DecidableEq, Repr

/-- A sequenced frame that is not acknowledged (R456): what its header needs, its payload,
the horizon raises that bind at its ACK (slot, SRTCP, value), how often it has been sent
and `ticks` of the last time. -/
structure MirrFrame where
  seq : Nat
  type : Nat
  sync : Bool
  restart : Bool
  payload : List Byte
  binds : List (Nat × Bool × Nat)
  sent : Nat
  since : Nat
  deriving DecidableEq, Repr

/-- An entry of the mirrored open-call table (R458), its TS80 as on the wire. -/
structure MirrCall where
  ref : Nat
  pair : Nat
  stamp : List Byte
  deriving DecidableEq, Repr

/-- What a standby holds for a channel's key slots (R460, R452): the NFN of the last STATE
entry applied with its receive and send indexes, and the NFN of the newest HORIZON entry
with its send horizons and its receive index, each when it was valid. -/
structure MirrKeep where
  state : Option (Nat × List Nat)
  send : Option (Nat × Nat × Nat)
  recv : Option (Nat × Nat)
  deriving DecidableEq, Repr

def MirrKeep.reset : MirrKeep where
  state := none
  send := none
  recv := none

/-- A role command that waits (R444): START_ACTIVE with the peer slots still to be judged,
or START_STANDBY with `ticks` of its limit. -/
inductive MirrWait where
  /-- Peer slots that must still pass, of those after the NFN of the command. -/
  | startActive (slots nfn : Nat)
  | startStandby (limit : Nat)
  deriving DecidableEq, Repr

/-- The mirror controller behind its registers.  Slots are kept as their NFN plus one, zero
for none. -/
structure MirrSt where
  role : MirrRole
  posts : List MirrPost
  win : List MirrFrame
  /-- Next SEQ to be given, and whether that frame carries RESTART (R457). -/
  seq : Nat
  restart : Bool
  /-- E of R456, and SEQ of the RESTART frame that set it. -/
  expect : Nat
  base : Option Nat
  /-- Elapsed ns at which a pure ACK is due. -/
  ackDue : Option Nat
  /-- Last role the peer showed, 7 for none or dead. -/
  peerRole : Nat
  peerSleep : Bool
  peerInsync : Bool
  /-- Own slot served last, and peer slot judged last. -/
  beatAt : Nat
  judged : Nat
  /-- Latest peer slots heard on each path, and in which an ACTIVE peer was heard on either
  path, and on the link. -/
  linkSlot : Nat
  pinSlot : Nat
  /-- An ACTIVE peer heard since the last judged slot, on either path and on the link, and
  in the last three judged slots, newest first. -/
  actNow : Bool
  actLink : Bool
  actHist : List (Bool × Bool)
  /-- Consecutive heard and silent slots of each path, up to 3. -/
  linkRun : Nat × Nat
  pinRun : Nat × Nat
  linkOk : Bool
  pinOk : Bool
  /-- Consecutive slots in which both paths were silent. -/
  deadRun : Nat
  /-- Last slot heard on either path. -/
  lastHeard : Nat
  cmd : Option MirrWait
  /-- Peer slots judged of those after a DEMOTE whose peer is not yet ACTIVE, and NFN of the DEMOTE. -/
  demote : Option (Nat × Nat)
  /-- Peer slot in which ROLE REFUSE was last sent. -/
  refused : Nat
  /-- The mirrored open-call table, and the entries still to be adopted (R463). -/
  calls : SMap (Option MirrCall)
  adopts : List (Nat × MirrCall)
  /-- A standby's part of a bulk sync (R457): requested, done, and the channels and calls
  the running one has named. -/
  wantSync : Bool
  insync : Bool
  syncEnd : Bool
  named : Option (List Nat × List Nat)
  /-- Channels and EC records received since SYNCEND. -/
  gotState : List Nat
  gotEc : List Nat
  keep : SMap MirrKeep
  /-- Channels whose DESCRES waits for their consistency check. -/
  descWait : List Nat
  /-- NFN plus one of each channel's last STATE snapshot. -/
  snapAt : SMap Nat
  /-- For each head EC record held by a channel: `ticks` since which it is unsent, and
  whether it has been sent. -/
  ecAt : SMap (Option (Nat × Bool))
  /-- Own fingerprint snapshots, newest first, and consecutive mismatches (R466). -/
  fingers : List (Nat × List Byte)
  misRun : Nat
  cfgMis : Bool
  /-- A sleeping standby (R450, R453): receiver off; elapsed ns of the last waking and of the close of
  its window, the slot's NFN plus one, whether that is a peer slot, and whether a frame came; `ticks`
  of the first missed window while it listens; and whether 1 s has passed so. -/
  asleep : Bool
  wokeAt : Nat
  wokeSlot : Nat
  closeAt : Nat
  wakePeer : Bool
  heardWake : Bool
  listen : Option Nat
  sleepLost : Bool
  pairErr : Bool
  /-- NFN of the last promotion. -/
  promo : Nat
  /-- Width of the last pulse on PEER_HB_OUT in µs, and elapsed ns of its rise. -/
  pulse : Nat
  pulseAt : Nat
  deriving DecidableEq, Repr

/-- The mirror controller after device reset. -/
def MirrSt.reset : MirrSt where
  role := .init
  posts := []
  win := []
  seq := 0
  restart := true
  expect := 0
  base := none
  ackDue := none
  peerRole := 7
  peerSleep := false
  peerInsync := false
  beatAt := 0
  judged := 0
  linkSlot := 0
  pinSlot := 0
  actNow := false
  actLink := false
  actHist := []
  linkRun := (0, 0)
  pinRun := (0, 0)
  linkOk := false
  pinOk := false
  deadRun := 0
  lastHeard := 0
  cmd := none
  demote := none
  refused := 0
  calls := []
  adopts := []
  wantSync := false
  insync := false
  syncEnd := false
  named := none
  gotState := []
  gotEc := []
  keep := []
  descWait := []
  snapAt := []
  ecAt := []
  fingers := []
  misRun := 0
  cfgMis := false
  asleep := false
  wokeAt := 0
  wokeSlot := 0
  closeAt := 0
  wakePeer := false
  heardWake := false
  listen := none
  sleepLost := false
  pairErr := false
  promo := 0
  pulse := 0
  pulseAt := 0


/-! ## Boot, RUN, OTP and the fingerprint key (17_boot_assay_faults.md) -/

/-- An open reflector channel (R511, R513): where it sends, its codec and blocks, and its
figures. -/
structure ReflChan where
  mac : List Byte
  ip : Nat
  port : Nat
  codec : Nat
  blocks : Nat
  /-- Elapsed ns of the last packet, and of the last report (R512). -/
  heard : Nat
  told : Nat
  /-- Packets received and sent. -/
  rx : Nat
  tx : Nat
  /-- What is sent: SSRC, first timestamp, and the payload being built. -/
  ssrc : Nat
  ts0 : Nat
  fill : List Byte
  /-- Blocks given to the echo canceller. -/
  block : Nat
  /-- Playout of what is received; its SSRC, its first and highest extended sequence number, the jitter in
  sixteenths, and the relative transit time of the last packet (RFC 3550). -/
  play : Play
  src : Nat
  seq0 : Nat
  seqTop : Nat
  jitter : Nat
  transit : Option Int
  /-- Round trip in ms, and the last receiver reference time heard with the PTP time of its arrival in ns
  (RFC 3611). -/
  rtt : Nat
  rrtr : Option (Nat × Int)
  deriving DecidableEq, Repr

/-- The PTP slave of reflector mode (R509): the master's port identity, the data set of its Announce in the
order of comparison and elapsed ns of the last one, a two-step Sync whose Follow_Up has not come with its
ingress stamp, t1 and t2 of the last complete Sync, the number of the last Delay_Req and its egress stamp. -/
structure PtpSlave where
  master : List Byte
  best : List Nat
  heard : Nat
  sync : Option (Nat × Int)
  pair : Option (Int × Int)
  req : Nat
  sent : Option Int
  deriving DecidableEq, Repr

def PtpSlave.reset : PtpSlave where
  master := []
  best := []
  heard := 0
  sync := none
  pair := none
  req := 0
  sent := none

/-- The DHCP client of reflector mode (R508, RFC 2131): transaction, the address asked for and not yet
acknowledged, the server and its MAC address, REQUESTs sent, and of the lease the elapsed ns of its
beginning and T1, T2 and its length in seconds. -/
structure DhcpClient where
  xid : Nat
  asked : Option Nat
  server : Nat
  mac : List Byte
  sends : Nat
  from_ : Nat
  t1 : Nat
  t2 : Nat
  len : Nat
  deriving DecidableEq, Repr

def DhcpClient.reset : DhcpClient where
  xid := 0
  asked := none
  server := 0
  mac := []
  sends := 0
  from_ := 0
  t1 := 0
  t2 := 0
  len := 0

/-- A link-local address being probed or announced (RFC 3927): ARP packets sent for it, and elapsed ns of
the next. -/
structure ArpProbe where
  ip : Nat
  n : Nat
  at_ : Nat
  deriving DecidableEq, Repr

/-- Reflector mode (R507–R513). -/
structure ReflSt where
  /-- Elapsed ns and fabric cycles of entry. -/
  since : Nat
  cycAt : Nat
  /-- MAC0 tries 10GBASE-R, and elapsed ns of the last change (R508). -/
  slow : Bool
  tryAt : Nat
  /-- DHCP: 0 searching, 1 leased, 2 link-local; DISCOVERs sent; elapsed ns of the last message. -/
  dhcp : Nat
  tries : Nat
  sentAt : Nat
  ip : Nat
  client : DhcpClient
  probe : Option ArpProbe
  twamp : Nat
  rtpRx : Nat
  rtpTx : Nat
  rtpDrop : Nat
  chans : SMap (Option ReflChan)
  /-- Elapsed ns of the last status line. -/
  lineAt : Nat
  ptp : PtpSlave
  deriving DecidableEq, Repr

/-- Reflector mode as entered at `now`, elapsed ns, and `cyc`, fabric cycles. -/
def ReflSt.enter (now cyc : Nat) : ReflSt where
  since := now
  cycAt := cyc
  slow := false
  tryAt := now
  dhcp := 0
  tries := 0
  sentAt := now
  ip := 0
  client := DhcpClient.reset
  probe := none
  twamp := 0
  rtpRx := 0
  rtpTx := 0
  rtpDrop := 0
  chans := []
  lineAt := now
  ptp := PtpSlave.reset

/-- The DEV block behind its registers. -/
structure DevSt where
  /-- RESET_N is low. -/
  held : Bool
  /-- Straps as latched (R497). -/
  mode : Nat
  pairId : Bool
  /-- DEV_CTL.RUN, a device check that runs, and an accepted clear that waits (R505). -/
  run : Bool
  check : Bool
  clear : Bool
  /-- A boot or full assay has run since reset (R498). -/
  assayed : Bool
  /-- The Boot ROM still runs: no package has been started (R503). -/
  bootRom : Bool
  /-- The Boot ROM has found no package it accepts (R499). -/
  noBoot : Bool
  /-- The choice of R499 has ended with a package whose start failed. -/
  bootOver : Bool
  /-- Packages that the Boot ROM has read and verified and still tries, while it waits for
  contexts to stop (R115): source, code, bytes and key slot of each. -/
  bootWait : List (Nat × Nat × List Byte × Nat)
  refl : Option ReflSt
  /-- OTP: key slots, revoked slots and the minimum SEQ (R502). -/
  otpKey : SMap (Option (List Byte))
  otpRevoked : List Nat
  otpMin : Nat
  /-- The fingerprint key as staged and as applied (R521). -/
  keyStage : SMap Word
  key : List Byte
  /-- A read of DEV_CFGDIG0 has latched the other words. -/
  cfgSeen : Bool
  /-- A recomputation runs, with the fingerprint it still shows. -/
  cfgBusy : Bool
  cfgOld : List Byte
  deriving DecidableEq, Repr

/-- The DEV block after device reset, straps open (R534). -/
def DevSt.reset : DevSt where
  held := true
  mode := 0
  pairId := false
  run := false
  check := false
  clear := false
  assayed := false
  bootRom := false
  noBoot := false
  bootOver := false
  bootWait := []
  refl := none
  otpKey := []
  otpRevoked := []
  otpMin := 0
  keyStage := []
  key := List.replicate 16 0
  cfgSeen := false
  cfgBusy := false
  cfgOld := List.replicate 16 0

/-! ## Assay (17_boot_assay_faults.md) -/

/-- The assay controller behind its registers. -/
structure AssaySt where
  /-- The boot or full assay runs. -/
  busy : Bool
  /-- Failed banks without a spare: group and bank (R519). -/
  failed : List (Nat × Nat)
  /-- Groups that have used their spare. -/
  noSpare : List Nat
  unlocked : Bool
  /-- Elapsed ns of the key's write, and of the last host write (R520). -/
  keyAt : Option Nat
  hostAt : Nat
  /-- Engine tested next, elapsed ns of the last test, elapsed ns since which an engine is
  being drained, and failures of the cycle (R516). -/
  engNext : Nat
  engAt : Nat
  drain : Option (Nat × Nat)
  engFails : Nat
  /-- Group and bank migrated next, elapsed ns of the last migration, and failures of the
  cycle (R518). -/
  bankNext : Nat
  bankAt : Nat
  bankFails : Nat
  /-- Attempts to unlock, by which the nonce changes. -/
  tries : Nat
  deriving DecidableEq, Repr

def AssaySt.reset : AssaySt where
  busy := false
  failed := []
  noSpare := []
  unlocked := false
  keyAt := none
  hostAt := 0
  engNext := 0
  engAt := 0
  drain := none
  engFails := 0
  bankNext := 0
  bankAt := 0
  bankFails := 0
  tries := 0


/-! ## Host and craft interfaces (16_host_interfaces.md) -/

/-- A descriptor begun and not committed (R485): the item built and not yet pushed, or the
item popped. -/
structure RingJob where
  built : Option Item
  popped : Option Item
  deriving DecidableEq, Repr

/-- The PCIe endpoint behind the HOST block. -/
structure HostSt where
  /-- The endpoint is enabled (R498). -/
  on : Bool
  /-- Configuration space: Memory Space Enable, Bus Master Enable, MSI-X Enable and
  Function Mask (R473, R477). -/
  memEn : Bool
  busMaster : Bool
  msixEn : Bool
  funMask : Bool
  /-- The function is in D3hot, else in D0 (R472). -/
  d3 : Bool
  /-- MSI-X table by word, 4 for each vector; the last word of each holds the mask bit. -/
  table : SMap Word
  /-- Pending vectors, rising. -/
  pend : List Nat
  /-- Elapsed ns plus one at which each vector's message was last sent. -/
  sentAt : SMap Nat
  /-- Vector of the last message sent. -/
  sent : Option Nat
  /-- Descriptor in progress of each ring. -/
  job : SMap (Option RingJob)
  /-- Ring whose descriptor was the last to begin (R482). -/
  turn : Nat
  /-- Value held for each signal doorbell under back-pressure (R484). -/
  held : SMap (Option Word)
  /-- What the last descriptor wrote to host memory (the model's own). -/
  out : List (Nat × List Byte)
  deriving DecidableEq, Repr

def HostSt.reset : HostSt where
  on := false
  memEn := false
  busMaster := false
  msixEn := false
  funMask := false
  d3 := false
  table := []
  pend := []
  sentAt := []
  sent := none
  job := []
  turn := 15
  held := []
  out := []

/-- The USB craft port behind its registers. -/
structure UsbSt where
  vbus : Bool
  configured : Bool
  suspended : Bool
  hs : Bool
  rwake : Bool
  /-- Device address of SET_ADDRESS. -/
  addr : Nat
  /-- The pending alarm report (R491). -/
  report : Option (List Byte)
  /-- Elapsed ns since which the bus has been idle (R492). -/
  idleAt : Nat
  /-- Image download: state, target, announced length, bytes received, a byte past the
  length or the buffer, last code (R489). -/
  img : Nat
  target : Nat
  len : Nat
  got : Nat
  excess : Bool
  code : Nat
  /-- The staged REG_WRITE (R490), and the offset of REG_ADDR. -/
  staged : Option (Nat × Word)
  regAddr : Nat
  /-- The last transaction was answered with STALL, or with NAK, and a zero-length packet
  follows the last console item (the model's own). -/
  stall : Bool
  nak : Bool
  zlp : Bool
  /-- Console output of the Boot ROM that waits for an IN transfer. -/
  console : List Byte
  deriving DecidableEq, Repr

def UsbSt.reset : UsbSt where
  vbus := false
  configured := false
  suspended := false
  hs := false
  rwake := false
  addr := 0
  report := none
  idleAt := 0
  img := 0
  target := 0
  len := 0
  got := 0
  excess := false
  code := 0
  staged := none
  regAddr := 0
  stall := false
  nak := false
  zlp := false
  console := []


/-! ## High-voltage island (18_power_isolation_package.md) -/

/-- A feed as the island sees it: its last 8 samples, newest first, its state (0 OK,
1 UNDER, 2 OVER, 3 ABSENT), and the consecutive samples on which it has met neither its
state's condition nor its hysteresis (R542, R543). -/
structure FeedSt where
  samples : List Nat
  state : Nat
  run : Nat
  deriving DecidableEq, Repr

def FeedSt.reset : FeedSt where
  samples := []
  state := 3
  run := 0

/-- An alarm output as the island drives it (R544, R545). -/
structure OutSt where
  closed : Bool
  limiting : Bool
  thermal : Bool
  /-- Elapsed ns since which it limits, kept until a retry begins; these times fall below zero over a
  device reset, from which elapsed time counts anew. -/
  limitAt : Option Int
  /-- Elapsed ns of the opening under fault, while it is open under fault. -/
  openAt : Option Int
  /-- Elapsed ns at which a retry began. -/
  retryAt : Option Int
  /-- A fault episode runs. -/
  episode : Bool
  deriving DecidableEq, Repr

def OutSt.reset : OutSt where
  closed := false
  limiting := false
  thermal := false
  limitAt := none
  openAt := none
  retryAt := none
  episode := false

/-- What the island has to tell the main die with its next frame. -/
inductive HvsNews where
  | fault (out cause : Nat) (event : Bool)
  | recovered (out : Nat)
  | feed (feed new old value : Nat)
  deriving DecidableEq, Repr

/-- The island and its link. -/
structure HvsSt where
  power : Bool
  /-- Elapsed ns of the last island frame (R541); below zero for one before a device reset. -/
  frameAt : Int
  feedA : FeedSt
  feedB : FeedSt
  out : SMap OutSt
  /-- HVS_ALMOUT as the island last took it, and the critical output forced ON (R541). -/
  almout : Word
  crit : Bool
  ain : Nat
  news : List HvsNews
  deriving DecidableEq, Repr

def HvsSt.reset : HvsSt where
  power := false
  frameAt := 0
  feedA := FeedSt.reset
  feedB := FeedSt.reset
  out := []
  almout := 0
  crit := false
  ain := 0
  news := []


/-! ## The machine -/

/-- The whole state. -/
structure State where
  /-- Commands that wait, first in, first out. -/
  pending : List Instr
  /-- The ordering variant: true for a KH7160-H (R1). -/
  variantH : Bool
  /-- The CSR file: registers that differ from their reset value. -/
  csr : SMap Word
  /-- The 64-bit counters by the offset of their _LO word. -/
  cnt : SMap (BitVec 64)
  /-- Memory: heartwood, grove memories and local memories, in canonical form. -/
  mem : List Host.Cell
  /-- Protected words that hold uncorrectable data, by their first byte (R557). -/
  poison : SMap Bool
  /-- Single-bit errors that stand and are corrected when they are next read, by the first byte
  of their protected word or the place of a unit's buffers (R90, R108). -/
  soft : SMap Nat
  time : TimeSt
  core : CoreSt
  disp : DispSt
  eca : EcaSt
  rsf : RsfSt
  qmgr : QmgrSt
  chan : ChanSt
  pkt : PktSt
  /-- The Ethernet ports by number. -/
  mac : SMap MacSt
  ciph : CiphSt
  cruc : CrucSt
  meter : MeterSt
  nand : NandSt
  mirr : MirrSt
  host : HostSt
  usb : UsbSt
  dev : DevSt
  assay : AssaySt
  hvs : HvsSt
  /-- What the last read over a bus returned (the model's own). -/
  busRead : List Byte
  /-- Count of free values drawn (the model's own). -/
  free : Nat
  deriving DecidableEq, Repr

/-- The module right after device reset, as a KH7160-F (DESIGN CHOICE, log entry 1). -/
def State.reset : State where
  pending := []
  variantH := false
  csr := []
  cnt := []
  mem := []
  poison := []
  soft := []
  time := TimeSt.reset
  core := CoreSt.reset
  disp := DispSt.reset
  eca := EcaSt.reset
  rsf := RsfSt.reset
  qmgr := QmgrSt.reset
  chan := ChanSt.reset
  pkt := PktSt.reset
  mac := []
  ciph := CiphSt.reset
  cruc := CrucSt.reset
  meter := MeterSt.reset
  nand := NandSt.reset
  mirr := MirrSt.reset
  host := HostSt.reset
  usb := UsbSt.reset
  dev := DevSt.reset
  assay := AssaySt.reset
  hvs := HvsSt.reset
  busRead := []
  free := 0

end Sys2Proof.Machine
end

