-- ==== Sys2Proof/Machine/Ops.lean ====
section
/-! DEFINITION. The named operations every family shares: the CSR file and the
counters, memory with its check bits, time, the clearing, items, queues and events. -/

namespace Sys2Proof.Machine

/-! ## The CSR file -/

/-- Content of the register at CSR offset `o`, without any effect of a read. -/
def csrGet (s : State) (o : Nat) : Word := smapGet (csrDefault o) s.csr o

/-- The register at `o` replaced. -/
def csrPut (s : State) (o : Nat) (v : Word) : State :=
  { s with csr := smapPut (csrDefault o) s.csr o v }

/-- Field `hi`:`lo` of the register at `o`. -/
def csrFld (s : State) (o hi lo : Nat) : Nat := fld (csrGet s o) hi lo

/-- Field `hi`:`lo` of the register at `o` replaced. -/
def csrSetFld (s : State) (o hi lo v : Nat) : State := csrPut s o (setFld (csrGet s o) hi lo v)

/-- Bit `i` of the register at `o` replaced. -/
def csrSetBit (s : State) (o i : Nat) (b : Bool) : State := csrPut s o (setBit (csrGet s o) i b)

/-- What a write of `v` leaves in a register of row `r` that held `old`: RW bits
take the value, W1C bits written 1 clear, every other bit stays (R10). -/
def csrMerge (r : RegRow) (old v : Word) : Word :=
  (old &&& ~~~ (wordOf r.rw) &&& ~~~ (wordOf r.w1c)) ||| (v &&& wordOf r.rw)
    ||| (old &&& wordOf r.w1c &&& ~~~ v)

/-- Increment of the saturating count in bits `hi`:0 of the register at `o`. -/
def csrSatInc (s : State) (o hi n : Nat) : State :=
  csrSetFld s o hi 0 (satAdd (2 ^ (hi + 1) - 1) (csrFld s o hi 0) n)

/-- The 64-bit counter whose _LO word is at `o`. -/
def cntGet (s : State) (o : Nat) : BitVec 64 := smapGet 0 s.cnt o

/-- The counter at `o` increased by `n`, wrapping (R110). -/
def cntAdd (s : State) (o n : Nat) : State :=
  { s with cnt := smapPut 0 s.cnt o (cntGet s o + BitVec.ofNat 64 n) }

/-- The counter at `o` increased by one. -/
def bump (s : State) (o : Nat) : State := cntAdd s o 1

/-! ## Memory

One address space holds every memory: heartwood at its own addresses (R27), the
memory of voice grove g from 2³² + g × 2²⁰, and engine e's local memories from
2³³ + e × 2²⁰: PM there, XM at + 0x1_0000, YM at + 0x2_0000 and the upper half of a
supervisor's PM at + 0x3_0000. -/

/-- DEV_ID (R527). -/
def devId (s : State) : Word := wordOf (0x71600100 + s.variantH.toNat)

/-- First byte of heartwood (R27). -/
def hwBase : Nat := 0x10000000

/-- First byte above heartwood (R27). -/
def hwEnd : Nat := 0x1A000000

/-- Where voice grove `g`'s memory lies in the model's memory. -/
def groveBase (g : Nat) : Nat := 0x100000000 + g * 0x100000

/-- Where engine `e`'s local memories lie in the model's memory. -/
def localBase (e : Nat) : Nat := 0x200000000 + e * 0x100000

/-- Bytes of a protected word at an address: 4 in local memories, 8 elsewhere (R26). -/
def protWidth (a : Nat) : Nat := if a ≥ 0x200000000 then 4 else 8

/-- The protected word an address lies in. -/
def protWord (a : Nat) : Nat := a / protWidth a * protWidth a

/-- A byte of memory; one that nothing has written reads 0 (DESIGN CHOICE, log entry 2). -/
def memByte (s : State) (a : Nat) : Byte := smapGet 0 s.mem a

/-- `n` bytes of memory from `a` on. -/
def memBytes (s : State) (a n : Nat) : List Byte :=
  match n with
  | 0 => []
  | n + 1 => memByte s a :: memBytes s (a + 1) n

/-- Whether the heartwood granule at `a` lies in a bank that failed without a spare (R519). -/
def bankBad (s : State) (a : Nat) : Bool :=
  decide (hwBase ≤ a) && decide (a < hwEnd)
    && s.assay.failed.contains ((a - hwBase) / 0x1000 % 16, (a - hwBase) / 0x2000000)

/-- Whether the protected word at `a` holds uncorrectable data (R557).
DESIGN CHOICE, log entry 2; DEDUCED, log entry 148. -/
def isPoison (s : State) (a : Nat) : Bool := smapGet false s.poison (protWord a) || bankBad s a

/-- Whether any of the `n` bytes from `a` on is uncorrectable. -/
def anyPoison (s : State) (a n : Nat) : Bool :=
  match n with
  | 0 => false
  | n + 1 => isPoison s a || anyPoison s (a + 1) n

/-- The bytes `bs` put into a memory from `a` on where `keep` allows. -/
def memFill (keep : Nat → Bool) (m : SMap Byte) (a : Nat) (bs : List Byte) : SMap Byte :=
  match bs with
  | [] => m
  | b :: r => memFill keep (if keep a then smapPut 0 m a b else m) (a + 1) r

/-- A write of the bytes `bs` at `a` (R557): a protected word it covers wholly is
correct afterwards; in an uncorrectable word it covers in part, its bytes are discarded. -/
def memWrite (s : State) (a : Nat) (bs : List Byte) : State :=
  let n := bs.length
  let covered := fun x => decide (a ≤ protWord x) && decide (protWord x + protWidth x ≤ a + n)
  { s with
    mem := memFill (fun x => covered x || ! smapGet false s.poison (protWord x)) s.mem a bs
    poison := s.poison.filter fun kv => ! covered kv.1 }

/-- A write of `n` bytes of a number, least significant first. -/
def memPut (s : State) (a n x : Nat) : State := memWrite s a (leBytes n x)

/-- `n` bytes of memory as a number, least significant first. -/
def memNat (s : State) (a n : Nat) : Nat := leNat (memBytes s a n)

/-! ## Time -/

/-- One ns in the unit of time NFN_OFS and the phase remainder are held in, a third of
2⁻³² ns: a fabric cycle is a whole number of them.
DEDUCED, log entry 151. -/
def nsUnit : Int := 12884901888

/-- `x` moved towards zero by `d`, stopping exactly at zero (R50, R57). -/
def towardZero (x d : Int) : Int := if 0 ≤ x then max 0 (x - d) else min 0 (x + d)

/-- Source time since the origin. -/
def srcUnits (t : TimeSt) : Int := (t.fab : Int) * (2 * nsUnit) / 3

/-- The phase remainder held now (R50): it falls at PHASE_RATE of source time.
DEDUCED, log entry 44. -/
def remNow (t : TimeSt) : Int := towardZero t.rem (srcUnits t * t.pRate / 1000000)

/-- PTP time gained since the origin: the source's rate times 1 + F + P (R49). -/
def ptpGain (t : TimeSt) : Int := srcUnits t + srcUnits t * t.freq / 17592186044416 + (t.rem - remNow t)

/-- NFN_OFS held now (R57): it falls at NFN_RATE of PTP time.
DEDUCED, log entry 44. -/
def ofsNow (t : TimeSt) : Int := towardZero t.ofs (ptpGain t * t.nRate / 1000000)

/-- NFN-time past the start of tick `nfn`, before a boundary is taken (R39). -/
def nfnRaw (t : TimeSt) : Int := t.sub + ptpGain t + (t.ofs - ofsNow t)

/-- One tick in the units of `nsUnit`. -/
def tickUnits : Int := 125000 * nsUnit

/-- Time since the start of tick NFN, below one tick.
DEDUCED, log entry 151. -/
def fracUnits (t : TimeSt) : Int := clampInt 0 (tickUnits - 1) (nfnRaw t)

/-- The origin moved to now.
DEDUCED, log entry 44. -/
def rebase (t : TimeSt) : TimeSt :=
  { t with cyc := t.cyc + t.fab, fab := 0, sub := fracUnits t, ofs := ofsNow t, rem := remNow t }

/-- NFN-time in the units of `nsUnit` (R39). -/
def nfnUnits (t : TimeSt) : Int := (t.nfn.toNat : Int) * tickUnits + fracUnits t

/-- Time since device reset in ticks, in the units of `nsUnit`. -/
def tickTime (t : TimeSt) : Int := t.ticks * tickUnits + fracUnits t

/-- NFN-time in whole ns. -/
def nfnNs (t : TimeSt) : Int := nfnUnits t / nsUnit

/-- PTP time in whole ns: NFN-time plus NFN_OFS (R39). -/
def ptpNs (t : TimeSt) : Int := (nfnUnits t + ofsNow t) / nsUnit

/-- TS32 (R40). -/
def ts32 (t : TimeSt) : Nat := ((nfnNs t) % 4294967296).toNat

/-- NFN_OFS in whole ns, halves away from zero (R57).
DEDUCED, log entry 151. -/
def ofsNs (t : TimeSt) : Int := roundDiv (ofsNow t) 12884901888

/-- Elapsed time since device reset in ns of the frequency source.
DESIGN CHOICE, log entry 6. -/
def elapsed (t : TimeSt) : Nat := (t.cyc + t.fab) * 2 / 3

/-- The current NFN as a number. -/
def nfnOf (s : State) : Nat := s.time.nfn.toNat

/-! ## Channels and regions -/

/-- First byte of the cell region (R28). -/
def cellRegion (s : State) : Nat := hwBase + csrFld s offDevHwlCell 11 0 * 0x10000

/-- Cells of the cell region (R28, R289). -/
def cellCount (s : State) : Nat := csrFld s offDevHwlCell 27 16 * 512

/-- First byte of cell `i` (R289). -/
def cellAddr (s : State) (i : Nat) : Nat := cellRegion s + i * 0x80

/-- First byte of channel `n`'s record (R27, R28). -/
def chanAddr (s : State) (n : Nat) : Nat := hwBase + csrFld s offDevHwlChan 11 0 * 0x10000 + n * 0x1000

/-- Channels of the channel region (R28). -/
def chanCount (s : State) : Nat := csrFld s offDevHwlChan 27 16 * 16

/-- First byte of EC record `n` (R27, R28). -/
def ecAddr (s : State) (n : Nat) : Nat := hwBase + csrFld s offDevHwlEc 11 0 * 0x10000 + n * 0x1000

/-- Records of the EC region (R28). -/
def ecCount (s : State) : Nat := csrFld s offDevHwlEc 27 16 * 16

/-! ## Queues as tables -/

/-- Queue `q`. -/
def queueGet (s : State) (q : Nat) : Queue := smapGet Queue.reset s.qmgr.queue q

/-- Queue `q` replaced. -/
def queuePut (s : State) (q : Nat) (v : Queue) : State :=
  { s with qmgr := { s.qmgr with queue := smapPut Queue.reset s.qmgr.queue q v } }

/-- Free cells (QMGR_CLR_FREE). -/
def freeCells (s : State) : Nat := cellCount s - s.qmgr.used.length

/-- The first free number at or after `i`, cyclically, with fuel.
DESIGN CHOICE, log entry 3. -/
def pickFrom (fuel : Nat) (used : List Nat) (total i : Nat) : Nat :=
  match fuel with
  | 0 => i
  | f + 1 => if used.contains i then pickFrom f used total ((i + 1) % total) else i

/-- A draw from the free values.
DESIGN CHOICE, log entry 3. -/
def drawFree (s : State) : Nat × State := (Config.freePick s.free, { s with free := s.free + 1 })

/-- One cell out of the clearing, if any is free (R291); which one is free. -/
def takeCell (s : State) : Option (Nat × State) :=
  if freeCells s = 0 then none
  else
    let d := drawFree s
    let c := pickFrom (s.qmgr.used.length + 1) s.qmgr.used (cellCount s) (d.1 % cellCount s)
    let used := insertRising s.qmgr.used c
    let s1 := { d.2 with qmgr := { d.2.qmgr with used := used } }
    some (c, csrSetFld s1 offQmgrClrHwm 18 0 (max (csrFld s1 offQmgrClrHwm 18 0) used.length))

/-- `n` cells out of the clearing, or none when fewer are free. -/
def takeCells (n : Nat) (s : State) : Option (List Nat × State) :=
  match n with
  | 0 => some ([], s)
  | n + 1 =>
    match takeCell s with
    | none => none
    | some (c, s1) =>
      match takeCells n s1 with
      | none => none
      | some (cs, s2) => some (c :: cs, s2)

/-- The cells `cs` back in the clearing. -/
def giveCells (s : State) (cs : List Nat) : State :=
  { s with qmgr := { s.qmgr with used := s.qmgr.used.filter fun c => ! cs.contains c } }

/-- The cell header of R289. -/
def cellHeader (next : Nat) (last : Bool) (stamp len flags : Nat) : List Byte :=
  leBytes 4 (next + boolBit last 18) ++ leBytes 4 stamp ++ leBytes 2 len ++ leBytes 2 flags ++ zeros 4

/-- NEXT of a cell. -/
def cellNext (s : State) (c : Nat) : Nat := memNat s (cellAddr s c) 4 % 0x40000

/-- END of a cell. -/
def cellEnd (s : State) (c : Nat) : Bool := (memNat s (cellAddr s c) 4).testBit 18

/-- LEN of a cell, at most 112. -/
def cellLen (s : State) (c : Nat) : Nat := min (memNat s (cellAddr s c + 8) 2) 112

/-- Data bytes of a cell. -/
def cellData (s : State) (c : Nat) : List Byte := memBytes s (cellAddr s c + 16) (cellLen s c)

/-- The cells of a chain of `n` from `head` on. -/
def chainCells (s : State) (head n : Nat) : List Nat :=
  match n with
  | 0 => []
  | n + 1 => head :: chainCells s (cellNext s head) n

/-- The cells of an item. -/
def itemCells (s : State) (i : Item) : List Nat := chainCells s i.head i.n

/-- The bytes of an item: the data of its cells in order (R289). -/
def itemBytes (s : State) (i : Item) : List Byte := (itemCells s i).flatMap (cellData s)

/-- The item's cells returned to the clearing. -/
def freeItem (s : State) (i : Item) : State := giveCells s (itemCells s i)

/-- The cells `cs` written as one item that carries `parts`, stamped `stamp`. -/
def writeChain (s : State) (stamp flags : Nat) (cs : List Nat) (parts : List (List Byte)) : State :=
  match cs with
  | [] => s
  | c :: r =>
    let d := parts.headD []
    let s1 := memWrite s (cellAddr s c) (cellHeader (r.headD 0) r.isEmpty stamp d.length flags ++ d)
    writeChain s1 0 0 r parts.tail

/-- A new item that carries `bs` in cells from the clearing, or none when too few
cells are free (R289, R291). -/
def buildItem (s : State) (stamp flags : Nat) (bs : List Byte) : Option (Item × State) :=
  let n := max 1 ((bs.length + 111) / 112)
  if freeCells s < n ∨ 128 < n then none
  else
    match takeCells n s with
    | none => none
    | some (cs, s1) => some (⟨cs.headD 0, n⟩, writeChain s1 stamp flags cs (chunks 112 bs))

/-- One more lost item of a queue (R294). -/
def loseOne (q : Queue) : Queue :=
  { q with lost := wordOf (satAdd 0xFFFFFFFF q.lost.toNat 1), lostFlag := true }

/-- The notice of a push (R297): held until it is delivered, later ones added (R173). -/
def noteQueue (q : Queue) (src : Nat) : Queue :=
  if q.ntype = 1 ∨ q.ntype = 2 then
    match q.notice with
    | none => { q with notice := some ⟨1, src⟩ }
    | some n => { q with notice := some { n with value := satAdd 0xFFFFFFFF n.value 1 } }
  else q

/-- The oldest item of a queue removed and its cells freed, counted as an overwrite. -/
def dropOldest (s : State) (q : Nat) : State :=
  let k := queueGet s q
  match k.items with
  | [] => s
  | i :: r => bump (queuePut (freeItem s i) q (loseOne { k with items := r })) offQmgrOvwr

/-- A push of item `i` to queue `q` by the block of source ID `src` (R294). -/
def pushItem (s : State) (q : Nat) (i : Item) (src : Nat) : State :=
  let k := queueGet s q
  if k.en = false ∨ k.limit = 0 then queuePut (freeItem s i) q (loseOne k)
  else
    let s1 := if k.items.length ≥ k.limit then dropOldest s q else s
    let k1 := queueGet s1 q
    bump (queuePut s1 q (noteQueue { k1 with items := k1.items ++ [i] } src)) offQmgrPush

/-! ## Events -/

/-- The 32-byte event record of R300. -/
def eventRecord (s : State) (src code chan flags : Nat) (data : List Byte) : List Byte :=
  leBytes 4 (ts32 s.time) ++ leBytes 4 (nfnOf s) ++ leBytes 1 src ++ leBytes 1 code
    ++ leBytes 2 chan ++ leBytes 4 flags ++ padTo 16 data

/-- A device event placed on queue `q` in one cell (R299, R301).
DEDUCED, log entry 152. -/
def placeEvent (s : State) (q : Nat) (src : Nat) (rec : List Byte) : State :=
  let k := queueGet s q
  let put := fun (s1 : State) (c : Nat) =>
    pushItem (memWrite s1 (cellAddr s1 c)
      (cellHeader 0 true (leAt rec 0 4) 32 0 ++ rec)) q ⟨c, 1⟩ src
  match takeCell s with
  | some (c, s1) => put s1 c
  | none =>
    match k.items with
    | [] => queuePut s q (loseOne k)
    | _ :: _ =>
      let s1 := dropOldest s q
      match takeCell s1 with
      | some (c, s2) => put s2 c
      | none => s1

/-- Whether an event is a fault event of R525. -/
def isFaultEvent (src code flags : Nat) (data : List Byte) : Bool :=
  if 0x20 ≤ src ∧ src ≤ 0x30 then code = 1 ∨ code = 2
  else
    match src with
    | 0x03 => code = 7
    | 0x04 => code = 1
    | 0x05 => code = 1
    | 0x06 => code = 2
    | 0x07 => code = 1
    | 0x0D => code = 2
    | 0x0E => code = 1
    | 0x10 => code = 2 ∨ code = 3 ∨ code = 4
    | 0x0F => code = 1 ∧ flags / 4 % 4 = 2 ∧ byteAt data 3 % 4 ≠ 2
    | 0x11 => code = 6
    | 0x12 => code = 3
    | 0x15 => code = 1 ∨ code = 3
    | _ => false

/-- The bit of DEV_FSUM that stands for a source (R525). -/
def fsumBit (src : Nat) : Nat := if src = 0x30 then 23 else if 0x20 ≤ src then 22 else src

/-- The fault summary after an event (R525). -/
def noteFault (s : State) (src code flags : Nat) (data : List Byte) : State :=
  if isFaultEvent src code flags data then csrSetBit s offDevFsum (fsumBit src) true else s

/-- An event sent to its routed queue, or counted when its route is off (R299). -/
def routeEvent (s : State) (src code chan flags : Nat) (data : List Byte) : State :=
  let r := csrGet s (offQmgrEvroute + 4 * src)
  if bitOf r 31 then placeEvent s (fld r 15 0) src (eventRecord s src code chan flags data)
  else bump s offQmgrEvdisc

/-- The low-clearing event, once for each fall below the threshold (R316).
DEDUCED, log entry 152. -/
def clearingCheck (s : State) : State :=
  let r := csrGet s offQmgrClrLowev
  if freeCells s < fld r 18 0 then
    if s.qmgr.low then s
    else
      let s1 := { s with qmgr := { s.qmgr with low := true } }
      if bitOf r 31 then routeEvent s1 0x06 1 0xFFFF 0 (leBytes 4 (freeCells s)) else s1
  else { s with qmgr := { s.qmgr with low := false } }

/-- An event raised (R299, R300): the fault summary, its placing, and the low-clearing
check that a taken cell calls for.
DEDUCED, log entry 152. -/
def raise (s : State) (src code chan flags : Nat) (data : List Byte) : State :=
  clearingCheck (routeEvent (noteFault s src code flags data) src code chan flags data)

/-- An event of a block that concerns no channel. -/
def raise0 (s : State) (src code flags : Nat) (data : List Byte) : State :=
  raise s src code 0xFFFF flags data

/-- A device item pushed to queue `q`: built in cells, stamped, or dropped when the
clearing has too few cells; `none` tells the caller of the drop. -/
def pushBytes (s : State) (q src stamp flags : Nat) (bs : List Byte) : Option State :=
  match buildItem s stamp flags bs with
  | none => none
  | some (i, s1) => some (clearingCheck (pushItem s1 q i src))

end Sys2Proof.Machine
end

