-- ==== Sys2Proof/Machine/Operands.lean ====
section
/-! DEFINITION. Engines, contexts and operands of Lemgil: the register banks and
the results in flight (R78, R85–R88), the address map (R31), the next-PC rules of
branches and loops (R91–R93), and taking an exception (R103–R107). -/

namespace Sys2Proof.Machine

/-- What every meaning of a command answers with. -/
abbrev Result := Host.Outcome State Fault Refusal

/-! ## Contexts -/

/-- Context `k` = 4 × engine + context. -/
def ctxGet (s : State) (k : Nat) : Ctx := smapGet (Ctx.reset k) s.core.ctx k

/-- Context `k` replaced. -/
def ctxPut (s : State) (k : Nat) (c : Ctx) : State :=
  { s with core := { s.core with ctx := smapPut (Ctx.reset k) s.core.ctx k c } }

/-- Engine `e`'s shared part. -/
def engGet (s : State) (e : Nat) : Eng := smapGet Eng.reset s.core.eng e

/-- Engine `e`'s shared part replaced. -/
def engPut (s : State) (e : Nat) (v : Eng) : State :=
  { s with core := { s.core with eng := smapPut Eng.reset s.core.eng e v } }

/-- Whether engine `e` is present: 0–127 less the upper half on the KH7160-H, S0–S7,
and none that assay removed (R1, R2, R519).
DESIGN CHOICE, log entry 1; DEDUCED, log entry 43. -/
def engPresent (s : State) (e : Nat) : Bool :=
  decide (e < 136) && ! (s.variantH && decide (64 ≤ e) && decide (e < 128))
    && ! s.core.removed.contains e

/-- Whether reflector mode gates the clock of engine `e`: groves 1 to 15 (R507). -/
def clockGated (s : State) (e : Nat) : Bool := s.dev.refl.isSome && decide (8 ≤ e) && decide (e < 128)

/-- Whether grove `g` has an engine present (R2, R108). -/
def grovePresent (s : State) (g : Nat) : Bool :=
  (List.range 8).any fun i => engPresent s (8 * g + i)

/-- Supervisors are engines 128 to 135. -/
def isSup (e : Nat) : Bool := decide (128 ≤ e)

/-- Bytes of an engine's PM (R69). -/
def pmSize (e : Nat) : Nat := if isSup e then 0x20000 else 0x10000

/-- CSR offset of register `r` of engine `e` in its grove block (R108). -/
def engReg (r e : Nat) : Nat := r + (e / 8) * 0x10000 + (e % 8) * 0x100

/-- The engine whose local memory holds place `a` (R31). -/
def localEngine (a : Nat) : Nat := (a - 0x200000000) / 0x100000

/-- The correction counter of the memory that place `a` lies in, if it has one (R108). -/
def eccReg (a : Nat) : Option Nat :=
  if 0x200000000 ≤ a then some (engReg offGroveEngEcc (localEngine a))
  else if 0x100000000 ≤ a then some (offGroveMemEcc + (a - 0x100000000) / 0x100000 * 0x10000)
  else none

/-- The single-bit errors at `place` corrected, and counted in the CORR field of register `ecc`
(R90, R108).
DESIGN CHOICE, log entry 156. -/
def correctAt (s : State) (place ecc : Nat) : State :=
  let n := smapGet 0 s.soft place
  if n = 0 then s else csrSatInc { s with soft := smapPut 0 s.soft place 0 } ecc 15 n

/-- Places, outside the memories, of matching-store entry `n` and of the buffers of unit `u`
(0 ECA, 1 RSF, 3 CRUC). -/
def msPlace (n : Nat) : Nat := 0x3000000000 + 32 * n
def unitPlace (u : Nat) : Nat := 0x3100000000 + u

/-- The single-bit errors in the `n` bytes of memory from `a` on corrected as they are read. -/
def correct (s : State) (a n : Nat) : State :=
  if s.soft = [] then s
  else
    match n with
    | 0 => s
    | n + 1 =>
      match eccReg a with
      | none => s
      | some r => correct (correctAt s (protWord a) r) (a + 1) n

/-- The RUNNING context of engine `e`, if any (R96). -/
def runningOf (s : State) (e : Nat) : Option Nat :=
  ((List.range 4).map fun c => 4 * e + c).find? fun k => (ctxGet s k).state == .running

/-! ## Registers of a context -/

/-- G register. -/
def gGet (c : Ctx) (n : Nat) : Word := smapGet 0 c.g n

/-- P register. -/
def pGet (c : Ctx) (n : Nat) : Word := smapGet 0 c.p n

/-- M register. -/
def mGet (c : Ctx) (n : Nat) : Word := smapGet 0 c.m n

/-- Accumulator. -/
def aGet (c : Ctx) (n : Nat) : BitVec 40 := smapGet 0 c.a n

/-- Special register by the numbers of R120; 0 is ST. -/
def spGet (c : Ctx) (n : Nat) : Word := if n = 0 then c.st else smapGet 0 c.sp n

/-- The PC a 32-bit address gives: bits 1:0 do not exist (R73, R78).  The bits above 16 are kept,
as R73 raises its exception at the address.
DEDUCED, log entry 157. -/
def pcOf (w : Word) : Nat := w.toNat / 4 * 4

/-- The bits of a PC that GROVE_ENGe_PCc of engine `e` shows: 16:2, and 15:2 on a voice engine (R108). -/
def pcShown (e pc : Nat) : Nat := pc / 4 * 4 % pmSize e

/-- Bits of a special register that exist: LS and LE hold bits 16:2 (R78, R125). -/
def spMask (n : Nat) : Word := if n = 2 ∨ n = 3 ∨ n = 5 ∨ n = 6 then 0x1FFFC#32 else 0xFFFFFFFF#32

/-- A register written at once. -/
def regWrite (c : Ctx) (r : RegId) (v : BitVec 40) : Ctx :=
  match r with
  | .g n => { c with g := smapPut 0 c.g n (v.truncate 32) }
  | .p n => { c with p := smapPut 0 c.p n (v.truncate 32) }
  | .m n => { c with m := smapPut 0 c.m n (v.truncate 32) }
  | .a n => { c with a := smapPut 0 c.a n v }
  | .sp n => if n = 0 then -- LDEPTH and CTX keep their values (R125)
        { c with st := (c.st &&& 0xF00000#32) ||| (v.truncate 32 &&& 0xFF0FFFFF#32) }
      else { c with sp := smapPut 0 c.sp n (v.truncate 32 &&& spMask n) }
  | .stAV => { c with st := setBit c.st 6 true }
  | .stSS => { c with st := setBit c.st 7 true }

/-- The results due at slot `n` or before written, oldest issued first (R87, R88). -/
def retire (c : Ctx) (n : Nat) : Ctx :=
  (c.infl.filter fun f => decide (f.due ≤ n)).foldl (fun c f => regWrite c f.reg f.val)
    { c with infl := c.infl.filter fun f => ! decide (f.due ≤ n) }

/-- Every result in flight written, in order of its due slot (R88, R97, R99). -/
def flush (c : Ctx) : Ctx :=
  retire (retire (retire c (c.slot + 1)) (c.slot + 2)) (c.slot + 3)

/-- A result of latency `lat` from the instruction in the present slot (R87). -/
def send (c : Ctx) (lat : Nat) (r : RegId) (v : BitVec 40) : Ctx :=
  { c with infl := c.infl ++ [⟨c.slot + lat, r, v, false⟩] }

/-- A 32-bit result of latency `lat`.
DESIGN CHOICE, log entry 9. -/
def sendW (c : Ctx) (lat : Nat) (r : RegId) (v : Word) : Ctx := send c lat r (v.zeroExtend 40)

/-- The accumulator result of a MAC-class instruction (R86). -/
def sendMac (c : Ctx) (n : Nat) (v : BitVec 40) : Ctx :=
  { c with infl := c.infl ++ [⟨c.slot + 2, .a n, v, true⟩] }

/-- AV or SS set two slots on, when `b` holds (R86). -/
def sendFlag (c : Ctx) (b : Bool) (r : RegId) : Ctx := if b then send c 2 r 0 else c

/-- An accumulator as the accumulate input of a MAC-class instruction reads it: a
MAC-class result in flight counts one slot early (R86). -/
def aMacGet (c : Ctx) (n : Nat) : BitVec 40 :=
  ((c.infl.filter fun f => f.reg == .a n && f.mac && decide (f.due ≤ c.slot + 1)).foldl
    (fun _ f => f.val) (aGet c n))

/-- The flags of an instruction, written with latency 1. -/
def setFlags (c : Ctx) (f : FlagWrite) : Ctx := { c with st := putFlags c.st f }

/-! ## ST fields -/

/-- Loop depth; the value 3, which only MTC can write, acts as 2 (DESIGN CHOICE, log entry 17). -/
def ldepth (c : Ctx) : Nat := min (fld c.st 23 22) 2

/-- ST with another loop depth. -/
def setDepth (c : Ctx) (d : Nat) : Ctx := { c with st := setFld c.st 23 22 d }

def stPriv (c : Ctx) : Bool := bitOf c.st 15
def stExl (c : Ctx) : Bool := bitOf c.st 14
def stHold (c : Ctx) : Bool := bitOf c.st 13
def stAsat (c : Ctx) : Bool := bitOf c.st 12
def stRnd (c : Ctx) : Bool := bitOf c.st 11
def stFrac (c : Ctx) : Bool := bitOf c.st 10

/-! ## Next PC -/

/-- The special-register numbers of a loop level's LC, LS and LE (R120). -/
def lcOf (l : Nat) : Nat := 1 + 3 * l
def lsOf (l : Nat) : Nat := 2 + 3 * l
def leOf (l : Nat) : Nat := 3 + 3 * l

/-- The test at LE of one active level (R93): the new context and whether the body restarts. -/
def levelTest (c : Ctx) (l : Nat) : Ctx × Bool :=
  if (spGet c (lcOf l)).toNat > 1 then
    (regWrite { c with pc := (spGet c (lsOf l)).toNat } (.sp (lcOf l))
      ((spGet c (lcOf l) - 1).zeroExtend 40), true)
  else (setDepth c (ldepth c - 1), false)

/-- The levels still to test at this issue, inner first; the PC moves on when none restarts.  An outer
level is tested at its LE also where that is a delay slot of an inner LOOP (R93).
DEDUCED, log entry 179. -/
def loopAdvance (c : Ctx) (l : Nat) : Ctx :=
  match l with
  | 0 => { c with pc := c.pc + 4 }
  | l + 1 =>
    if (spGet c (leOf l)).toNat = c.pc then
      let r := levelTest c l
      if r.2 then r.1 else loopAdvance r.1 l
    else loopAdvance c l

/-- The PC after the instruction at `c.pc`: delay slots, branch target, loop end (R91, R93).
DEDUCED, log entry 11. -/
def advance (c : Ctx) : Ctx :=
  match c.pend with
  | none => loopAdvance c (ldepth c)
  | some p =>
    if p.left ≤ 1 then
      if p.taken then { c with pend := none, pc := p.target }
      else loopAdvance { c with pend := none } (ldepth c)
    else loopAdvance { c with pend := some { p with left := p.left - 1 } } (ldepth c)

/-- An instruction's end: PC advanced, slot counted, due results written. -/
def finish (c : Ctx) : Ctx :=
  let c1 := advance c
  retire { c1 with slot := c1.slot + 1 } (c1.slot + 1)

/-- An instruction's end after a wait: every result written first (R97, R146). -/
def finishWait (c : Ctx) : Ctx := finish (flush c)

/-- Whether a branch at `c.pc` stands at LE or LE − 4 of an active body (R93). -/
def nearLoopEnd (c : Ctx) : Bool :=
  (List.range (ldepth c)).any fun l =>
    let le := (spGet c (leOf l)).toNat
    decide ((spGet c (lsOf l)).toNat ≤ c.pc) && (decide (c.pc = le) || decide (c.pc + 4 = le))

/-! ## Address map -/

/-- Where CSR space lies in the model's address space. -/
def csrPa : Nat := 0x1000000000

/-- Where the Media ROM lies in the model's address space. -/
def romPa : Nat := 0x2000000000

/-- The grove memory that engine `e` reaches, if it is present (R31, R77). -/
def reachGrove (s : State) (e : Nat) : Option Nat :=
  let g := if isSup e then fld (csrGet s (offGroveSgsel + 16 * 0x10000)) (4 * (e % 8) + 3) (4 * (e % 8))
           else e / 8
  if grovePresent s g then some g else none

/-- The place an address of the engine data map names (R31); `none` when unmapped. -/
def resolve (s : State) (e a : Nat) : Option Nat :=
  if a < 0x30000 then some (localBase e + a)
  else if a < 0x40000 then (if isSup e then some (localBase e + a) else none)
  else if 0x100000 ≤ a ∧ a < 0x180000 then
    match reachGrove s e with
    | some g => some (groveBase g + (a - 0x100000))
    | none => none
  else if hwBase ≤ a ∧ a < hwEnd then some a
  else if 0x40000000 ≤ a ∧ a < 0x40400000 then some (romPa + (a - 0x40000000))
  else if 0x80000000 ≤ a ∧ a < 0x81000000 then some (csrPa + (a - 0x80000000))
  else none

/-- Whether a place is in a local memory (R70). -/
def isLocal (pa : Nat) : Bool := decide (0x200000000 ≤ pa) && decide (pa < csrPa)

/-- The local memory a place of engine `e` lies in: 0 PM, 1 XM, 2 YM (R111). -/
def localKind (e pa : Nat) : Nat := let o := pa - localBase e; if o < 0x30000 then o / 0x10000 else 0

/-- Where the instruction at fetch address `pc` of engine `e` lies (R31). -/
def fetchPa (e pc : Nat) : Nat := localBase e + (if pc < 0x10000 then pc else pc + 0x20000)

/-! ## Taking an exception -/

/-- The channel of a context's task in service, or 0xFFFF (R111). -/
def taskChan (c : Ctx) : Nat :=
  match c.task with
  | none => 0xFFFF
  | some t => t.chan

/-- A grove event of engine and context `k` (R111). -/
def groveEvent (s : State) (k code : Nat) (data : List Byte) : State :=
  raise s (0x20 + k / 32) code (taskChan (ctxGet s k)) (k / 4 % 8 + (k % 4) * 8) data

/-- Taking exception `code` with EADDR `eaddr` in context `k`, EPC being the address
`ofs` past the present PC (4 for a trap): vectored (R104), or into FAULT (R106).  Annulled delay
slots are none that execute: EPC is then the address that follows them.
DEDUCED, log entries 11, 12, 158. -/
def takeExc (s : State) (k code : Nat) (eaddr : Word) (ofs : Nat) : State :=
  let c := flush (ctxGet s k)
  let e := k / 4
  let ctl := csrGet s (engReg offGroveEngCtl e)
  let pc := c.pc + ofs
  -- the delay slots that are still to execute, the address resumed at and the one after them
  let r : Nat × Nat × Nat := match c.pend with
    | none => (0, pc, pc)
    | some p => if p.annul then (0, p.target, p.target) else (p.left, pc, p.target)
  let ds := r.1
  let epc := r.2.1
  let etgt := r.2.2
  if bitOf ctl 8 && ! stExl c then
    let c1 := regWrite c (.sp 7) (BitVec.ofNat 40 epc)
    let c2 := regWrite c1 (.sp 10) (BitVec.ofNat 40 (code + ds * 256))
    let c3 := regWrite c2 (.sp 8) (BitVec.ofNat 40 etgt)
    let c4 := regWrite c3 (.sp 11) (eaddr.zeroExtend 40)
    let c5 := regWrite c4 (.sp 9) (c.st.zeroExtend 40)
    let st1 := setBit (setBit c.st 14 true) 13 false
    let st2 := if isSup e then setBit st1 15 true else st1
    let vec := csrFld s (engReg offGroveEngExcv e) 16 2 * 4
    let next : CtxState := if c.state == .running then .running else .ready
    ctxPut s k { c5 with st := st2, pc := vec, pend := none, holdCnt := 0, state := next }
  else
    groveEvent (ctxPut s k { c with state := .fault, stopReq := false, pc := pc }) k 1
      (leBytes 4 epc ++ leBytes 4 eaddr.toNat ++ leBytes 1 code ++ leBytes 1 ds)

/-- A machine check of context `k` at local place `pa` (R107): FAULT at once, never vectored.  The
event gives the address of R31's data map, also for a fetch.
DESIGN CHOICE, log entry 159. -/
def machineCheck (s : State) (k pa : Nat) : State :=
  let c := flush (ctxGet s k)
  groveEvent (ctxPut s k { c with state := .fault, stopReq := false }) k 2
    (leBytes 4 (pa - localBase (k / 4)) ++ leBytes 1 (localKind (k / 4) pa))

/-- The illegal-instruction exception (R103, R118). -/
def excIllegal (s : State) (k : Nat) : State := takeExc s k 1 0 0

/-- The address exception at `a` (R103). -/
def excAddress (s : State) (k : Nat) (a : Word) : State := takeExc s k 2 a 0

/-! ## Issuing -/

/-- Context `k` ends its instruction with register state `c`. -/
def endInstr (s : State) (k : Nat) (c : Ctx) : State := ctxPut s k (finish c)

/-- Context `k` leaves RUNNING for a wait, its results written (R97). -/
def startWait (s : State) (k : Nat) (c : Ctx) (w : Wait) : State :=
  ctxPut s k { flush c with state := .wait w }

/-- Context `k` ends its wait with register state `c`: READY, or STOPPED when a stop
request waited (R101).
DEDUCED, log entry 39. -/
def endWait (s : State) (k : Nat) (c : Ctx) : State :=
  let c1 := finishWait c
  ctxPut s k { c1 with state := if c1.stopReq then .stopped else .ready, stopReq := false }

/-- Whether a branch annuls the instruction due in a context (R91). -/
def annulled (c : Ctx) : Bool :=
  match c.pend with
  | none => false
  | some p => p.annul

/-- Whether context `k` may execute a privileged instruction (R102). -/
def privileged (s : State) (k : Nat) : Bool := isSup (k / 4) && stPriv (ctxGet s k)

/-- C written with the other flags kept. -/
def setC (c : Ctx) (b : Bool) : Ctx := setFlags c { noFlags with c := some b }

end Sys2Proof.Machine
end

