-- ==== Sys2Proof/Machine/Matching.lean ====
section
/-! DEFINITION. The task dispatcher's shared operations: target words and operands
(R139, R154), matching (R155, R156), releases (R161–R163), flows and ready lists
(R165–R168), deadlines (R171), back-pressure (R172, R174) and signal queues (R141). -/

namespace Sys2Proof.Machine

/-! ## Templates -/

/-- Template `t`, if installed (R152). -/
def tmplGet (s : State) (t : Nat) : Option (Word × Word) := smapGet none s.disp.tmpl t

def tmplPut (s : State) (t : Nat) (v : Option (Word × Word)) : State :=
  { s with disp := { s.disp with tmpl := smapPut none s.disp.tmpl t v } }

/-- DECL, REQ, LIST, CLASS and ATOM of an A word, and the mode of a slot (R151, R179). -/
def tDecl (a : Word) : Nat := fld a 3 0
def tReq (a : Word) : Nat := fld a 7 4
def tMode (a : Word) (slot : Nat) : Nat := fld a (9 + 2 * slot) (8 + 2 * slot)
def tList (a : Word) : Nat := fld a 18 16
def tClass (a : Word) : Nat := fld a 22 20
def tAtom (a : Word) : Bool := bitOf a 24

/-- The A word of template `t`, zero when it is not installed. -/
def tmplA (s : State) (t : Nat) : Word :=
  match tmplGet s t with
  | none => 0
  | some (a, _) => a

/-- The B word of template `t`, zero when it is not installed. -/
def tmplB (s : State) (t : Nat) : Word :=
  match tmplGet s t with
  | none => 0
  | some (_, b) => b

/-! ## Release entries -/

def relGet (s : State) (n : Nat) : Rel := smapGet Rel.reset s.disp.rel n

def relPut (s : State) (n : Nat) (v : Rel) : State :=
  { s with disp := { s.disp with rel := smapPut Rel.reset s.disp.rel n v } }

/-! ## Target words -/

/-- KIND 1 of a target word (R139). -/
def isKind1 (w : Word) : Bool := bitOf w 31

/-- The context a KIND 1 word names, as 4 × engine + context. -/
def targetCtx (w : Word) : Nat := (fld w 4 0 * 8 + fld w 7 5) * 4 + fld w 9 8

/-- The reason a target word is undeliverable, if it is (R154): the lowest that applies, and for a
KIND 1 word its layout before its engine.
DESIGN CHOICE, log entry 162. -/
def undeliverable (s : State) (w : Word) : Option Nat :=
  if isKind1 w then
    if fld w 30 10 ≠ 0 then some 1
    else if fld w 4 0 > 16 ∨ engPresent s (targetCtx w / 4) = false then some 6
    else none
  else if fld w 30 26 ≠ 0 then some 1
  else if 16384 ≤ fld w 15 0 ∧ fld w 15 0 < 0xFFFF then some 2
  else if fld w 15 0 < 16384 ∧ (relGet s (fld w 15 0)).en = false then some 3
  else
    match tmplGet s (fld w 23 16) with
    | none => some 4
    | some (a, _) => if (tDecl a).testBit (fld w 25 24) then none else some 5

/-- A context as the events of R177 code it. -/
def ctxCode (k : Nat) : Nat := k / 32 + (k / 4 % 8) * 32 + (k % 4) * 256

/-- The undeliverable-operand event (R177): `src` is the sender's source ID, `sub`
its engine and context byte. -/
def noteUndeliverable (s : State) (w v : Word) (reason src sub : Nat) : State :=
  let ch := if isKind1 w = false ∧ fld w 15 0 < 16384 then fld w 15 0 else 0xFFFF
  bump (raise s 0x03 1 ch reason
    (leBytes 4 w.toNat ++ leBytes 4 v.toNat ++ leBytes 1 src ++ leBytes 1 sub)) offDispUndel

/-! ## Back-pressure -/

/-- Who offers an operand (R172). -/
inductive Producer where
  | release | timer
  | unit
  | qmgr | engine | host
  deriving DecidableEq, Repr

/-- Free matching-store entries. -/
def msFree (s : State) : Nat := 65536 - s.disp.insts.length

/-- The level of R172: 0 NORMAL, 1 PRESSED, 2 RESERVE, 3 EXHAUSTED. -/
def bpLevel (s : State) : Nat :=
  let hi := csrFld s offDispBp 15 0
  let res := min (csrFld s offDispBp 31 16) hi
  let f := msFree s
  if f = 0 then 3 else if f < res then 2 else if f < hi then 1 else 0

/-- Whether a producer is granted a new entry at a level (R172). -/
def grants (level : Nat) (p : Producer) : Bool :=
  match p with
  | .release => decide (level < 3)
  | .timer => decide (level < 3)
  | .unit => decide (level < 2)
  | _ => decide (level = 0)

/-- The level-change event (R172, R177) and the high-water mark.
DEDUCED, log entries 41, 150. -/
def levelCheck (s : State) : State :=
  let s1 := csrSetFld s offDispMsHwm 16 0 (max (csrFld s offDispMsHwm 16 0) s.disp.insts.length)
  let l := bpLevel s1
  if l = s1.disp.level then s1
  else raise0 { s1 with disp := { s1.disp with level := l } } 0x03 6 (l + s1.disp.level * 4)
    (leBytes 4 (msFree s1))

/-! ## Matching -/

/-- Whether slot `i` of an instance is empty. -/
def slotEmpty (x : Inst) (i : Nat) : Bool := (x.val.getD i none).isNone

/-- Whether every required slot is filled. -/
def allFilled (a : Word) (x : Inst) : Bool :=
  (List.range 4).all fun i => ! (tReq a).testBit i || ! slotEmpty x i

/-- The oldest OPEN instance that an operand for slot `i` of key (`ch`, `t`) joins (R156). -/
def joinInst (s : State) (ch t i : Nat) : Option Inst :=
  s.disp.insts.find? fun x =>
    x.chan == ch && x.tmpl == t && x.state == .open && (tMode (tmplA s t) i != 0 || slotEmpty x i)

/-- A value put into slot `i` under the slot's mode (R151, R156). -/
def slotPut (mode i : Nat) (v : Word) (x : Inst) : Inst :=
  match x.val.getD i none with
  | none => { x with val := x.val.set i (some v) }
  | some old =>
    match mode with
    | 2 => { x with val := x.val.set i (some (wordOf (satAdd 0xFFFFFFFF old.toNat v.toNat))) }
    | 3 => { x with val := x.val.set i (some (old ||| v)) }
    | _ => { x with val := x.val.set i (some v) }

/-- The instances with the one of entry `n` changed. -/
def instMod (s : State) (n : Nat) (f : Inst → Inst) : State :=
  { s with disp := { s.disp with insts := s.disp.insts.map fun x => if x.entry = n then f x else x } }

/-- The instance of entry `n` freed. -/
def instFree (s : State) (n : Nat) : State :=
  levelCheck { s with disp := { s.disp with insts := s.disp.insts.filter fun x => x.entry != n } }

/-- The instance of entry `n` after a filling: HELD once every required slot is filled (R156). -/
def readyCheck (s : State) (n : Nat) : State :=
  match s.disp.insts.find? fun x => x.entry == n with
  | none => s
  | some x =>
    if x.state = .open ∧ allFilled (tmplA s x.tmpl) x then
      let s1 := instMod s n fun y => { y with state := .held, readyNfn := s.time.nfn, readySeq := s.disp.seq }
      { s1 with disp := { s1.disp with seq := s1.disp.seq + 1 } }
    else s

/-- A new OPEN instance; which free entry it takes is free (R156). -/
def openInst (s : State) (ch t : Nat) : Nat × State :=
  let d := drawFree s
  let used := s.disp.insts.map Inst.entry
  let n := pickFrom (used.length + 1) used 65536 (d.1 % 65536)
  let x : Inst := ⟨n, ch, t, [none, none, none, none], .open, 0, 0⟩
  (n, levelCheck { d.2 with disp := { d.2.disp with insts := d.2.disp.insts ++ [x] } })

/-- Operand `v` for slot `i` of key (`ch`, `t`) placed, or `none` when producer `p`
must wait for an entry (R156, R172, R173). -/
def placeOperand (s : State) (p : Producer) (ch t i : Nat) (v : Word) : Option State :=
  let mode := tMode (tmplA s t) i
  match joinInst s ch t i with
  | some x =>
    let merged := mode = 1 ∧ slotEmpty x i = false
    let s1 := instMod (correctAt s (msPlace x.entry) offDispMsEcc) x.entry (slotPut mode i v)
    some (readyCheck (if merged then bump s1 offDispMerge else s1) x.entry)
  | none =>
    if grants (bpLevel s) p then
      let r := openInst s ch t
      some (readyCheck (instMod r.2 r.1 (slotPut mode i v)) r.1)
    else none

/-! ## Signal queues -/

/-- Whether commands or completions of a unit name context `k` as a KIND 1 target. -/
def unitNames (u : UnitSt) (k : Nat) : Bool :=
  (u.q.any fun c => isKind1 c.w1 && targetCtx c.w1 == k)
    || (u.done.any fun c => isKind1 c.target && targetCtx c.target == k)

/-- Whether a committed CPX names context `k` in a completion not yet delivered (R176). -/
def cpxNames (s : State) (k : Nat) : Bool :=
  unitNames s.eca.unit k || unitNames s.rsf.unit k || unitNames s.ciph.unit k
    || (s.cruc.q.any fun r => r.queue == 0 && isKind1 r.w1 && targetCtx r.w1 == k)
    || (s.cruc.done.any fun d => d.queue == 0 && isKind1 d.target && targetCtx d.target == k)

/-- Whether context `k` is blocked on software (R176). -/
def isBlocked (s : State) (k : Nat) (c : Ctx) : Bool :=
  c.task.isSome && c.state == .wait (.waitEvt none) && c.sigq.isEmpty
    && ! (s.disp.dev.any fun d => d.ctx == k) && ! cpxNames s k

/-- Set B of R176. -/
def blockedSet (s : State) : List Nat :=
  (s.core.ctx.filter fun kc => isBlocked s kc.1 kc.2).map fun kc => kc.1

/-- `t`, in which context `k` acts or receives after `s`: a change of set B is noted for the
deadlock detector when `k` is a member before or after (R176).
DEDUCED, log entry 37. -/
def markDlk (k : Nat) (s t : State) : State :=
  if isBlocked s k (ctxGet s k) || isBlocked t k (ctxGet t k) then
    { t with disp := { t.disp with dlkDirty := true } }
  else t

/-- An entry put into the signal queue of context `k`, unless it holds 16 (R139). -/
def pushSig (s : State) (k : Nat) (g0 g1 : Word) : Option State :=
  let c := ctxGet s k
  if c.sigq.length ≥ 16 then none
  else some (markDlk k s (ctxPut s k { c with sigq := c.sigq ++ [(g0, g1)] }))

/-- A device entry for context `k`, a timer's among them: queued, or held as the one waiting entry
of that context, or refused (`none`) when one already waits (R174). -/
def pushDev (s : State) (k : Nat) (g0 g1 : Word) : Option State :=
  match pushSig s k g0 g1 with
  | some s1 => some s1
  | none =>
    if s.disp.dev.any fun d => d.ctx == k then none
    else some { s with disp := { s.disp with dev := s.disp.dev ++ [⟨k, g0, g1⟩] } }

/-- G0 and G1 of a dispatcher timer's entry (R141). -/
def timerG0 (t : Nat) : Word := wordOf (0x8103 + t * 0x10000)

/-- Whether timer `t`'s pending entry is still held: as the target's waiting device entry, or by the
timer itself while another entry waits there (R164, R174).
DEDUCED, log entry 163. -/
def timerHeld (s : State) (t : Nat) : Bool :=
  (smapGet none s.disp.tmr t).isSome || s.disp.dev.any fun d => d.g0 == timerG0 t

/-- The pending entry of timer `t` offered again to `k` when it was made for it (R164, R174). -/
def refillTimer (k : Nat) (s : State) (t : Nat) : State :=
  match smapGet none s.disp.tmr t with
  | none => s
  | some x =>
    if x.1 = k then
      match pushDev s k (timerG0 t) x.2 with
      | none => s
      | some s1 => { s1 with disp := { s1.disp with tmr := smapPut none s1.disp.tmr t none } }
    else s

/-- Waiting device entries of context `k` moved into its signal queue as room allows (R174). -/
def refillSig (s : State) (k : Nat) : State :=
  let s1 :=
    match s.disp.dev.find? fun d => d.ctx == k with
    | none => s
    | some d =>
      match pushSig s k d.g0 d.g1 with
      | none => s
      | some s1 => { s1 with disp := { s1.disp with dev := s1.disp.dev.filter fun x => x.ctx != k } }
  (List.range 32).foldl (refillTimer k) s1

/-- The oldest signal-queue entry of context `k` taken into G0 and G1 (R141). -/
def takeSig (s : State) (k : Nat) : Option (Ctx × State) :=
  let c := ctxGet s k
  match c.sigq with
  | [] => none
  | (g0, g1) :: r =>
    let c1 := flush { c with sigq := r }
    let c2 := regWrite (regWrite c1 (.g 0) (g0.zeroExtend 40)) (.g 1) (g1.zeroExtend 40)
    some (c2, s)

/-- An operand or a signal-queue entry delivered to target word `w` (R139, R154): `none`
when the producer must wait.  `g0` is the entry's G0, `src` and `sub` name the sender in
an undeliverable-operand event, `dev` says whether the dispatcher may hold the entry (R174). -/
def deliver (s : State) (p : Producer) (w v g0 : Word) (src sub : Nat) (dev : Bool) : Option State :=
  match undeliverable s w with
  | some r => some (noteUndeliverable s w v r src sub)
  | none =>
    if isKind1 w then (if dev then pushDev s (targetCtx w) g0 v else pushSig s (targetCtx w) g0 v)
    else placeOperand s p (fld w 15 0) (fld w 23 16) (fld w 25 24) v

/-- A unit's completion value delivered to its target, unless there is none (R143, R173). -/
def deliverCompletion (s : State) (w v : Word) (unit : Nat) : Option State :=
  if w = 0xFFFFFFFF#32 then some s
  else deliver s .unit w v (wordOf (0x8000 + unit)) unit 0 true

/-! ## Flows, ready lists and deadlines -/

/-- The flow of a task: its channel's, its template's when ATOM is 1, or none (R165). -/
def flowOf (ch t : Nat) (atom : Bool) : Option Nat :=
  if ch < 16384 then some ch else if atom then some (0x10000 + t) else none

/-- The flow of an instance. -/
def instFlow (s : State) (x : Inst) : Option Nat := flowOf x.chan x.tmpl (tAtom (tmplA s x.tmpl))

/-- Every context that holds a task. -/
def servedTasks (s : State) : List Task := s.core.ctx.filterMap fun kc => kc.2.task

/-- Whether a flow has a task in service. -/
def flowBusy (s : State) (f : Nat) : Bool :=
  (servedTasks s).any fun t => flowOf t.chan t.tmpl t.atom == some f

/-- DISP_LISTk.LIMIT, 0 acting as 1 (R166). -/
def listLimit (s : State) (l : Nat) : Nat := max 1 (csrFld s (offDispList + 4 * l) 15 0)

/-- Tasks on list `l`. -/
def listCount (s : State) (l : Nat) : Nat :=
  (s.disp.insts.filter fun x => x.state == .listed && tList (tmplA s x.tmpl) == l).length

/-- Whether `x` comes before `y` in the order of R166. -/
def readyBefore (x y : Inst) : Bool :=
  decide (x.readyNfn.toNat < y.readyNfn.toNat) ||
    (x.readyNfn == y.readyNfn && decide (x.readySeq < y.readySeq))

/-- Whether a HELD instance may be listed (R166). -/
def mayList (s : State) (x : Inst) : Bool :=
  x.state == .held && decide (listCount s (tList (tmplA s x.tmpl)) < listLimit s (tList (tmplA s x.tmpl))) &&
    match instFlow s x with
    | none => true
    | some f =>
      ! flowBusy s f &&
        s.disp.insts.all fun y =>
          y.entry == x.entry || instFlow s y != some f ||
            (y.state != .listed && (y.state != .held || readyBefore x y))

/-- DISP_CLASSc.BUDGET (R157). -/
def budget (s : State) (c : Nat) : Nat := csrFld s (offDispClass + 4 * c) 15 0

/-- The deadline of a task that became ready at `n`, if its class has a budget (R157). -/
def deadline (s : State) (c : Nat) (n : BitVec 64) : Option Nat :=
  if budget s c = 0 then none else some (n.toNat + budget s c)

/-- Whether a deadline is at or before the current NFN (R171). -/
def pastDeadline (s : State) (c : Nat) (n : BitVec 64) : Bool :=
  match deadline s c n with
  | none => false
  | some d => decide (d ≤ nfnOf s)

/-- Whether listed instance `x` goes before `y` within a list (R167). -/
def takeBefore (s : State) (x y : Inst) : Bool :=
  match deadline s (tClass (tmplA s x.tmpl)) x.readyNfn, deadline s (tClass (tmplA s y.tmpl)) y.readyNfn with
  | some a, some b => decide (a < b) || (decide (a = b) && decide (x.readySeq < y.readySeq))
  | some _, none => true
  | none, some _ => false
  | none, none => decide (x.readySeq < y.readySeq)

/-- The first of a list in the order `lt`. -/
def bestOf {α : Type} (lt : α → α → Bool) (l : List α) : Option α :=
  match l with
  | [] => none
  | x :: r =>
    match bestOf lt r with
    | none => some x
    | some y => if lt y x then some y else some x

/-- The task a context of grove `g` takes under `mask` (R167). -/
def chooseTask (s : State) (g mask : Nat) : Option Inst :=
  let cand := s.disp.insts.filter fun x =>
    x.state == .listed && mask.testBit (tList (tmplA s x.tmpl)) && bitOf (tmplB s x.tmpl) g
  match bestOf (fun a b => decide (a < b)) (cand.map fun x => tList (tmplA s x.tmpl)) with
  | none => none
  | some l => bestOf (takeBefore s) (cand.filter fun x => tList (tmplA s x.tmpl) == l)

/-- An overrun or late-take event (R177). -/
def taskEvent (s : State) (code k : Nat) (t : Task) : State :=
  raise s 0x03 code t.chan (t.cls + t.list * 8)
    (leBytes 8 t.readyNfn.toNat ++ leBytes 4 (nfnOf s - t.readyNfn.toNat) ++ leBytes 1 t.tmpl
      ++ leBytes 2 (ctxCode k))

/-- The end of the service of context `k`'s task, judged for overrun (R137, R168, R171). -/
def endService (s : State) (k : Nat) : State :=
  let c := ctxGet s k
  match c.task with
  | none => s
  | some t =>
    let s1 := ctxPut s k { c with task := none }
    if pastDeadline s t.cls t.readyNfn then
      let s2 := bump s1 (offDispOvr + 0x10 * t.cls)
      if csrFld s offDispCtl 29 29 = 1 then taskEvent s2 3 k t else s2
    else s1

/-- Instance `x` handed to context `k`, which waits in TAKE (R138, R158, R167, R171). -/
def handTask (s : State) (k : Nat) (x : Inst) : State :=
  let a := tmplA s x.tmpl
  let late := pastDeadline s (tClass a) x.readyNfn
  let t : Task := ⟨x.chan, x.tmpl, x.entry, tList a, tClass a, tAtom a, x.readyNfn⟩
  let g0 := x.entry + x.tmpl * 0x10000 + tDecl a * 0x1000000 + tList a * 0x10000000 + boolBit late 31
  let vals := [wordOf g0, wordOf x.chan, wordOf x.readyNfn.toNat, wordOf (x.readyNfn.toNat / 4294967296)]
    ++ x.val.map fun v => v.getD 0
  let c := ctxGet s k
  let c1 := (List.range 8).foldl
    (fun c i => regWrite c (.g i) ((vals.getD i 0).zeroExtend 40)) { flush c with task := some t }
  let s1 := bump (instFree (endWait (correctAt s (msPlace x.entry) offDispMsEcc) k c1) x.entry) offDispTaken
  if late then
    let s2 := bump s1 (offDispLate + 0x10 * t.cls)
    if csrFld s offDispCtl 30 30 = 1 then taskEvent s2 4 k t else s2
  else s1

/-- READY instances of a key (R157, R163). -/
def readyCount (s : State) (ch t : Nat) : Nat :=
  (s.disp.insts.filter fun x => x.chan == ch && x.tmpl == t && x.state != .open).length

/-- Whether an operand for slot `i` would make its instance READY. -/
def wouldReady (s : State) (ch t i : Nat) : Bool :=
  let x := (joinInst s ch t i).getD ⟨0, ch, t, [none, none, none, none], .open, 0, 0⟩
  allFilled (tmplA s t) { x with val := x.val.set i (some 0) }

/-- DISP_CTL.QLIM, 0 acting as 1 (R163). -/
def qlim (s : State) : Nat := max 1 (csrFld s offDispCtl 3 0)

/-- A release or timer operand skipped (R163, R177). -/
def skipRelease (s : State) (ch flags id : Nat) : State :=
  bump (raise s 0x03 2 ch flags (leBytes 8 (nfnOf s) ++ leBytes 1 id)) offDispSkip

/-- A release or timer operand for a key, delivered or skipped (R162–R164): `timer` is
0 for a release and 1 for a timer, `id` the template or timer number the event names. -/
def releaseOperand (s : State) (p : Producer) (ch t i timer id : Nat) : State × Bool :=
  let evCh := if timer = 0 then ch else 0xFFFF
  if readyCount s ch t + (wouldReady s ch t i).toNat > qlim s then
    (skipRelease s evCh (timer + 1 * 2) id, false)
  else
    match placeOperand s p ch t i (wordOf (nfnOf s)) with
    | some s1 => (s1, true)
    | none => (skipRelease s evCh (timer + 2 * 2) id, false)

/-! ## Contexts that are READY -/

/-- Priority of context `k` (R98, GROVE_ENGe_CTL.PRI). -/
def prioOf (s : State) (k : Nat) : Nat :=
  csrFld s (engReg offGroveEngCtl (k / 4)) (17 + 2 * (k % 4)) (16 + 2 * (k % 4))

/-- The READY context of engine `e` to issue next after `last`: the highest priority,
then the next in rising number after `last` (R98). -/
def nextReady (s : State) (e last : Nat) : Option Nat :=
  let ks := ([1, 2, 3, 4].map fun d => 4 * e + (last + d) % 4).filter fun k => (ctxGet s k).state == .ready
  bestOf (fun a b => decide (prioOf s a > prioOf s b)) ks

/-- Context `k` becomes RUNNING (R98). -/
def runCtx (s : State) (k : Nat) : State :=
  engPut (ctxPut s k { ctxGet s k with state := .running }) (k / 4) { engGet s (k / 4) with left := k % 4 }

end Sys2Proof.Machine
end

