-- ==== Sys2Proof/Machine/Timebase.lean ====
section
/-! DEFINITION. The timebase of 02_timebase.md: disciplining the clock, steps, state
commands and the watchdog, the frequency source, NFN alignment, the snapshot, edge
capture and the pulse output. -/

namespace Sys2Proof.Machine

/-- The code of TIME_STATE.MODE (R67). -/
def modeCode (m : TimeMode) : Nat :=
  match m with
  | .freerun => 0
  | .locking => 1
  | .locked => 2
  | .holdover => 3

/-- The timebase replaced. -/
def timePut (s : State) (t : TimeSt) : State := { s with time := t }

/-- TIME_FREQ as a signed number of 2⁻⁴⁴ (R49). -/
def timeFreq (s : State) : Int := (csrGet s offTimeFreq).toInt

/-- Weighted sum of the TIME_FREQ values of `h` from `w` up to `stop` (R53). -/
def histSum (h : List (Nat × Int)) (w stop : Nat) : Int :=
  match h with
  | [] => 0
  | (t, f) :: r => f * ((stop - max t w : Nat) : Int) + histSum r w (min t stop)

/-- The mean of TIME_FREQ over the last 16 s in LOCKED, rounded (R53).
DEDUCED, log entry 149. -/
def histMean (h : List (Nat × Int)) (now : Nat) : Int :=
  match h.getLast? with
  | none => 0
  | some (t0, _) =>
    let w := max t0 (now - 16000000000)
    if now ≤ w then (h.headD (0, 0)).2 else roundDiv (histSum h w now) (now - w)

/-- The history without the values that ended 16 s ago or more. -/
def histTrim (h : List (Nat × Int)) (now : Nat) : List (Nat × Int) :=
  match h with
  | [] => []
  | (t, f) :: r => if t + 16000000000 ≤ now then [(t, f)] else (t, f) :: histTrim r now

/-- TIME_FREQ_AVG (R53).
DEDUCED, log entry 149. -/
def freqAvg (s : State) : Int :=
  if s.time.mode = .locked then histMean s.time.hist (elapsed s.time)
  else if s.time.everLocked then s.time.avg
  else timeFreq s

/-- F in units of 2⁻⁴⁴ (R49). -/
def curF (s : State) : Int :=
  if s.time.mode = .holdover ∧ csrFld s offTimeCtl 17 17 = 0 then freqAvg s else timeFreq s

/-- A slew rate in ppm: above 1,000 acts as 1,000, and 0 as 1 (R57). -/
def rateOf (n : Nat) : Nat := if n = 0 then 1 else if n > 1000 then 1000 else n

/-- The rates that act from now on (R49, R57). -/
def setRates (s : State) : State :=
  timePut s { rebase s.time with
    freq := curF s
    pRate := rateOf (csrFld s offTimeSlew 9 0)
    nRate := rateOf (csrFld s offTimeSlew 25 16) }

/-- A write of TIME_SLEW. -/
def writeSlew (s : State) (v : Word) : State := setRates (csrPut s offTimeSlew (v &&& 0x03FF03FF#32))

/-- Whether NFN-time has reached the next tick boundary after `n` fabric cycles. -/
def tickReached (t : TimeSt) (n : Nat) : Bool := decide (tickUnits ≤ nfnRaw { t with fab := n })

/-- The first of the cycles from `lo` to `hi` after which the boundary is reached. -/
def boundaryIn (fuel : Nat) (t : TimeSt) (lo hi : Nat) : Nat :=
  match fuel with
  | 0 => hi
  | f + 1 =>
    if hi ≤ lo then hi
    else if tickReached t ((lo + hi) / 2) then boundaryIn f t lo ((lo + hi) / 2)
    else boundaryIn f t ((lo + hi) / 2 + 1) hi

/-- Fabric cycles from the origin to the next tick boundary (R56). -/
def boundaryAt (t : TimeSt) : Nat := boundaryIn 20 t t.fab (t.fab + 200000)

/-- The clock at the next tick boundary: NFN by exactly one (R56), and a change of source (R55). -/
def timeTick (s : State) : State :=
  let t := s.time
  timePut s { t with
    fab := boundaryAt t
    ticks := t.ticks + 1
    sub := t.sub - tickUnits
    nfn := t.nfn + 1
    src := t.srcNext.getD t.src
    srcNext := none }

/-! ## Servo -/

/-- A write of TIME_FREQ (R49, R53, R54). -/
def writeFreq (s : State) (v : Word) : State :=
  if s.time.mode = .holdover ∧ csrFld s offTimeCtl 17 17 = 0 then s
  else
    let now := elapsed s.time
    let h := if s.time.mode = .locked then histTrim ((now, v.toInt) :: s.time.hist) now else s.time.hist
    setRates (timePut (csrPut s offTimeFreq v) { s.time with wdStart := now, hist := h })

/-- A write of TIME_PHASE_ADJ (R50). -/
def writePhaseAdj (s : State) (v : Word) : State :=
  let t := rebase s.time
  let sum := t.rem + v.toInt * nsUnit
  let top := 2147483647 * nsUnit
  let bot := -2147483648 * nsUnit
  if sum < bot ∨ top < sum then
    csrSetBit (timePut s { t with rem := clampInt bot top sum }) offTimeState 14 true
  else timePut s { t with rem := sum }

/-- TIME_SERVO.PHASE_CLR (R50). -/
def phaseClear (s : State) : State := timePut s { rebase s.time with rem := 0 }

/-- TIME_STEP in the unit of `nsUnit` (R51). -/
def stepUnits (s : State) : Int :=
  signed 64 ((csrGet s offTimeStepHi).toNat * 4294967296 + (csrGet s offTimeStepLo).toNat) * nsUnit

/-- TIME_SERVO.STEP (R51).  With RUN 0, a step that takes PTP time below 0 leaves NFN at its value
modulo 2⁶⁴.
DESIGN CHOICE, log entry 164. -/
def stepTime (s : State) : State :=
  let t := rebase s.time
  if s.dev.run then timePut s { t with ofs := t.ofs + stepUnits s }
  else
    let ptp := nfnUnits t + t.ofs + stepUnits s
    timePut s { t with
      ofs := 0
      nfn := BitVec.ofInt 64 (ptp / tickUnits)
      sub := ptp % tickUnits }

/-- Whether GATE holds PPS_OUT low in a state (R64). -/
def gateHolds (gate : Bool) (m : TimeMode) : Bool := gate && (m == .freerun || m == .locking)

/-- A change of timebase state with its event (R52, R53, R54, R66); a GATE that acts takes PPS_OUT
low (R64). -/
def setMode (s : State) (m : TimeMode) (cause : Nat) : State :=
  let t := s.time
  let now := elapsed t
  if t.mode = m then s
  else
    let t1 := if t.mode = .locked then { t with avg := histMean t.hist now, hist := [] } else t
    let t2 := if m = .locked then { t1 with everLocked := true, hist := [(now, timeFreq s)] } else t1
    let t3 := if m = .locking then { t2 with wdStart := now } else t2
    let t4 := { t3 with mode := m, pps := t3.pps && ! gateHolds t3.ppsGate m }
    raise0 (setRates (timePut s t4)) 0x02 2 (modeCode m)
      (leBytes 1 (modeCode t.mode) ++ leBytes 1 cause)

/-- A command that is ignored (R52). -/
def cmdIgnored (s : State) : State := csrSetBit s offTimeState 15 true

/-- TIME_SERVO.MODE_CMD (R52). -/
def modeCmd (s : State) (n : Nat) : State :=
  match n, s.time.mode with
  | 0, _ => s
  | 1, _ => setMode s .freerun 0
  | 2, .freerun => setMode s .locking 0
  | 2, .holdover => setMode s .locking 0
  | 3, .locking => setMode s .locked 0
  | 4, .locked => setMode s .holdover 0
  | _, _ => cmdIgnored s

/-- A write of TIME_SERVO: the step before the state command (R51).
DEDUCED, log entry 48. -/
def writeServo (s : State) (v : Word) : State :=
  let s1 := if bitOf v 8 then stepTime s else s
  let s2 := if bitOf v 9 then phaseClear s1 else s1
  modeCmd s2 (fld v 2 0)

def execTimeFreqWrite (v : Word) (s : State) : Result := .next (writeFreq s v)

def execTimePhaseAdjWrite (v : Word) (s : State) : Result := .next (writePhaseAdj s v)

def execPhaseClr (s : State) : Result := .next (phaseClear s)

def execStep (s : State) : Result := .next (stepTime s)

def execModeCmdFreerun (s : State) : Result := .next (modeCmd s 1)

def execModeCmdLocking (s : State) : Result := .next (modeCmd s 2)

def execModeCmdLocked (s : State) : Result := .next (modeCmd s 3)

def execModeCmdHoldover (s : State) : Result := .next (modeCmd s 4)

/-- Whether the watchdog period has passed (R54). -/
def wdExpired (s : State) : Bool :=
  let w := csrFld s offTimeCtl 31 24
  decide (w ≠ 0) && decide (s.time.wdStart + w * 100000000 ≤ elapsed s.time)

def execWatchdogExpiry (s : State) : Result :=
  .next (if wdExpired s then
    match s.time.mode with
    | .locked => setMode s .holdover 1
    | .locking => setMode s .freerun 1
    | _ => s
  else s)

def execPhaseSlewEnd (s : State) : Result :=
  .next (let t := s.time
    if t.rem ≠ 0 ∧ remNow t = 0 then timePut s (rebase t) else s)

/-- R57, R66: raised when NFN_OFS has become zero or has left zero since the last one. -/
def execNfnAlignmentChange (s : State) : Result :=
  .next (let t := s.time
    let al := decide (ofsNow t = 0)
    if al = t.alignedTold then s
    else raise0 (timePut s { t with alignedTold := al }) 0x02 3 (boolBit al 2)
      (leBytes 8 (BitVec.ofInt 64 (ofsNs t)).toNat ++ leBytes 8 t.nfn.toNat))

/-! ## Frequency source -/

/-- C10_OK (R55): an edge within 1 µs and the error within ±50 ppm. -/
def c10Ok (t : TimeSt) : Bool := t.c10Edge && decide (t.c10Err.natAbs ≤ 50000000)

/-- TIME_C10_STAT: saturating, 0 without edges (R67). -/
def c10Stat (t : TimeSt) : Word :=
  if t.c10Edge then wordOfInt (sat32 t.c10Err) else 0

/-- The CLK10 event (R66). -/
def c10Event (s : State) (cause : Nat) : State :=
  raise0 s 0x02 6 (boolBit s.time.fallback 3) (leBytes 1 cause ++ zeros 3 ++ leBytes 4 (c10Stat s.time).toNat)

/-- A write of TIME_CTL, with what a change of FSRC does (R55). -/
def writeTimeCtl (s : State) (v : Word) : State :=
  let was := csrFld s offTimeCtl 16 16
  let now := fld v 16 16
  let s1 := setRates (csrPut s offTimeCtl (csrMerge (regRow 0 1 0 0 0xFF03010F 0 0 0) (csrGet s offTimeCtl) v))
  let t := s1.time
  if now = 1 ∧ was = 0 then
    if c10Ok t then timePut s1 { t with srcNext := some 1 }
    else c10Event (timePut s1 { t with fallback := true }) 1
  else if now = 0 ∧ was = 1 then
    if t.fallback then c10Event (timePut s1 { t with fallback := false, srcNext := some 0 }) 3
    else timePut s1 { t with srcNext := some 0 }
  else s1

def execFsrcWrite (v : Word) (s : State) : Result := .next (writeTimeCtl s v)

def execClk10Fallback (s : State) : Result :=
  .next (let t := s.time
    if csrFld s offTimeCtl 16 16 = 1 ∧ c10Ok t = false ∧ t.fallback = false then
      c10Event (timePut s { t with fallback := true, srcNext := some 0 }) 1
    else s)

def execClk10Restore (s : State) : Result :=
  .next (let t := s.time
    if t.fallback ∧ c10Ok t ∧ t.c10Since + 1000000000 ≤ elapsed t then
      c10Event (timePut s { t with fallback := false, srcNext := some 1 }) 2
    else s)

/-- CLK10_IN appears, vanishes or changes its error (R55). -/
def execC10OkChange (edge : Bool) (err : Int) (s : State) : Result :=
  .next (let t := { s.time with c10Edge := edge, c10Err := err }
    timePut s (if c10Ok t && ! c10Ok s.time then { t with c10Since := elapsed t } else t))

/-! ## Snapshot, capture and pulse -/

/-- A read of TIME_NFN_LO: the snapshot of R58 latched; the value is NFN 31:0. -/
def readNfnLo (s : State) : Word × State :=
  let t := s.time
  let ptp := ptpNs t
  let sec := (ptp / 1000000000).toNat
  let ofs := (BitVec.ofInt 64 (ofsNs t)).toNat
  let put := fun (s : State) (ov : Nat × Nat) => csrPut s ov.1 (wordOf ov.2)
  (wordOf t.nfn.toNat,
    [(offTimeNfnLo, t.nfn.toNat), (offTimeNfnHi, t.nfn.toNat / 4294967296), (offTimeSnapTs32, ts32 t),
     (offTimeSnapFrac, (fracUnits t / nsUnit).toNat), (offTimeSnapPtpNs, (ptp % 1000000000).toNat),
     (offTimeSnapPtpSecLo, sec), (offTimeSnapPtpSecHi, sec / 4294967296 % 65536),
     (offTimeNfnOfsLo, ofs), (offTimeNfnOfsHi, ofs / 4294967296)].foldl put s)

/-- What a read over a bus returned, kept where statements can see it.
DESIGN CHOICE, log entry 36. -/
def answer (s : State) (v : Word) : State := { s with busRead := leBytes 4 v.toNat }

def execTimeNfnLoRead (s : State) : Result :=
  .next (let r := readNfnLo s
    answer r.2 r.1)

/-- The shortest pulse on a TS_IN pin that the glitch filter passes, in ns (R62, R539).
DEDUCED, log entry 178. -/
def tsFilter (s : State) (pin : Nat) : Nat := max 10 (csrFld s (offTimeTsinCtl + 8 * pin) 15 8 * 2)

/-- An edge the glitch filter passed: stamped, or counted when it comes too soon after the last (R62). -/
def tsCapture (s : State) (pin : Nat) (rising : Bool) : State :=
  let now := elapsed s.time
  let close := match smapGet none s.time.tsLast pin with
    | none => false
    | some l => decide (now < l + 100)
  if close then csrSatInc s (offTimeTsinMiss + 8 * pin) 15 1
  else
    raise0 (timePut s { s.time with tsLast := smapPut none s.time.tsLast pin (some now) }) 0x02 4
      (modeCode s.time.mode)
      (leBytes 8 (nfnNs s.time).toNat ++ leBytes 1 pin ++ leBytes 1 (if rising then 0 else 1))

/-- An edge on TS_IN[`pin`] that begins a level of `width` ns: both edges of a pulse shorter than the
filter are ignored (R62).
DEDUCED, log entry 178. -/
def execTsInCapture (pin : Nat) (rising : Bool) (width : Nat) (s : State) : Result :=
  .next (if 4 ≤ pin then s
    else
      let ends := smapGet none s.time.tsShort pin == some (! rising)
      let short := decide (width < tsFilter s pin) && ! ends
      let s1 := timePut s { s.time with
        tsShort := smapPut none s.time.tsShort pin (if short then some rising else none) }
      let ctl := csrGet s (offTimeTsinCtl + 8 * pin)
      if ends || short || ! bitOf ctl 0 || ! bitOf ctl (if rising then 1 else 2) then s1
      else tsCapture s1 pin rising)

/-- The second that PPS_OUT marks now: whole seconds of PTP time, or of NFN-time, moved
by TIME_PPS_OFS; `none` at an instant that is not within 4 ns of one (R64, R539). -/
def ppsSecond (s : State) : Option Int :=
  let t := nfnUnits s.time + (if csrFld s offTimePpsCtl 1 1 = 0 then ofsNow s.time else 0)
  let x := t - clampInt (-1000000) 1000000 (csrGet s offTimePpsOfs).toInt * nsUnit + 4 * nsUnit
  if x % (1000000000 * nsUnit) ≤ 8 * nsUnit then some (x / (1000000000 * nsUnit)) else none

/-- Whether the second `n` was marked by a rise up to 8 ns ago, within the one instant.
DEDUCED, log entry 45. -/
def ppsMarked (t : TimeSt) (n : Int) : Bool :=
  match t.ppsLast with
  | none => false
  | some (m, at_) => m == n && decide (elapsed t ≤ at_ + 8)

/-- TIME_PPS_CTL.GATE, which acts from a rise on (R64). -/
def ppsGate (s : State) : Bool := csrFld s offTimePpsCtl 2 2 == 1

/-- Whether GATE holds PPS_OUT low (R64). -/
def ppsGated (s : State) : Bool := gateHolds (ppsGate s) s.time.mode

/-- PPS_OUT rises for WIDTH ticks at its instant (R64).
DEDUCED, log entry 45. -/
def execPpsRise (s : State) : Result :=
  .next (match ppsSecond s with
    | none => s
    | some n =>
      if csrFld s offTimePpsCtl 0 0 = 1 ∧ ppsGated s = false ∧ s.time.pps = false
          ∧ ppsMarked s.time n = false then
        let w := min 7999 (max 1 (csrFld s offTimePpsCtl 28 16))
        timePut s { s.time with
          pps := true
          ppsFall := tickTime s.time + w * tickUnits
          ppsGate := ppsGate s
          ppsLast := some (n, elapsed s.time) }
      else s)

def execPpsFall (s : State) : Result :=
  .next (if s.time.pps ∧ s.time.ppsFall ≤ tickTime s.time then timePut s { s.time with pps := false } else s)

end Sys2Proof.Machine
end

