-- ==== Sys2Proof/Machine/Queues.lean ====
section
/-! DEFINITION. The queue manager of 09_queues_packet_engine.md: portals (R295, R296),
queue configuration (R293, R294), notices (R297), rebuilds (R290) and descriptor errors (R316). -/

namespace Sys2Proof.Machine

/-- CSR offset of a portal's QP_SEL: the host's, or a context's in its grove block (R296). -/
def portalOff (p : Option Nat) : Nat :=
  match p with
  | none => offQpSel
  | some k => offQpcSel + (k / 32) * 0x10000 + (k % 32) * 0x20

/-- The source ID that a portal's pushes bear (R297). -/
def portalSrc (p : Option Nat) : Nat :=
  match p with
  | none => 0x12
  | some k => 0x20 + k / 32

/-- A pop of queue `q` and the word it returns (R295).
DEDUCED, log entry 50. -/
def popQueue (s : State) (q : Nat) : Word × State :=
  let k := queueGet s q
  match k.items with
  | [] => (setBit k.last 31 true, bump (queuePut s q { k with under := true }) offQmgrUnder)
  | i :: r =>
    let w := wordOf (i.head + i.n * 0x40000 + boolBit k.lostFlag 30)
    (w, bump (queuePut s q { k with items := r, lostFlag := false, last := w }) offQmgrPop)

/-- The endpoint answers memory requests (R473), which it does in D0 only (R472).
DEDUCED, log entry 135; PRESUMED, log entry 191. -/
def barOn (s : State) : Bool := s.host.on && s.host.memEn && ! s.host.d3

/-- Whether a portal answers: the host's while BAR0 does (R473), and that of a context of a present
engine (R2). -/
def portalHere (s : State) (p : Option Nat) : Bool :=
  match p with
  | none => barOn s
  | some k => engPresent s (k / 4)

/-- A read of a portal that does not answer: a register that is absent reads zero (R2). -/
def portalGone (s : State) (p : Option Nat) : State := if p.isNone then s else answer s 0

def execQueuePop (p : Option Nat) (s : State) : Result :=
  .next (if portalHere s p then
    let r := popQueue s (csrFld s (portalOff p) 15 0)
    answer r.2 r.1
  else portalGone s p)

/-- A read of QP_ALLOC (R291, R296). -/
def allocPortal (s : State) : Word × State :=
  if freeCells s ≤ csrFld s offQmgrClrRes 18 0 then (0x80000000#32, bump s offQmgrAllocf)
  else
    match takeCell s with
    | none => (0x80000000#32, bump s offQmgrAllocf)
    | some (c, s1) =>
      (wordOf c, clearingCheck (memWrite s1 (cellAddr s1 c) (cellHeader 0 true 0 0 0)))

def execCellAlloc (p : Option Nat) (s : State) : Result :=
  .next (if portalHere s p then
    let r := allocPortal s
    answer r.2 r.1
  else portalGone s p)

/-- The walk of R296 along a chain of `n` cells from `c` on: 0, 1 or 3. -/
def walkCode (s : State) (c n : Nat) : Nat :=
  match n with
  | 0 => 0
  | n + 1 =>
    if n = 0 then (if cellEnd s c then 0 else 3)
    else if cellEnd s c then 3
    else if cellNext s c ≥ cellCount s then 1
    else walkCode s (cellNext s c) n

/-- The outcome of a PUSH or FREE of an item word (R296). -/
def itemCode (s : State) (w : Word) : Nat :=
  if fld w 17 0 ≥ cellCount s then 1
  else if fld w 29 18 = 0 ∨ 128 < fld w 29 18 then 2
  else walkCode s (fld w 17 0) (fld w 29 18)

/-- The item an item word names. -/
def itemOf (w : Word) : Item := ⟨fld w 17 0, fld w 29 18⟩

/-- QP_STAT of a portal set. -/
def portalStat (s : State) (p : Option Nat) (code : Nat) : State := csrPut s (portalOff p + 0x18) (wordOf code)

/-- A write of QP_FREE (R296). -/
def freePortal (s : State) (p : Option Nat) (w : Word) : State :=
  let code := itemCode s w
  portalStat (if code = 0 then clearingCheck (freeItem s (itemOf w)) else s) p code

def execCellFree (p : Option Nat) (w : Word) (s : State) : Result :=
  .next (if portalHere s p then freePortal s p w else s)

/-- A write of QP_PUSH_LO: the item staged. -/
def stagePush (s : State) (p : Option Nat) (w : Word) : State :=
  { s with qmgr := { s.qmgr with staged := smapPut 0 s.qmgr.staged (portalOff p) (w &&& 0x3FFFFFFF#32) } }

/-- A write of QP_PUSH_HI: the staged item pushed, stamped with the TS32 of the push (R294, R296). -/
def pushPortal (s : State) (p : Option Nat) (w : Word) : State :=
  let it := smapGet 0 s.qmgr.staged (portalOff p)
  let code := itemCode s it
  if code = 0 then
    let s1 := memPut s (cellAddr s (itemOf it).head + 4) 4 (ts32 s.time)
    portalStat (clearingCheck (pushItem s1 (fld w 15 0) (itemOf it) (portalSrc p))) p 0
  else portalStat s p code

def execQueuePush (p : Option Nat) (w : Word) (s : State) : Result :=
  .next (if portalHere s p then pushPortal s p w else s)

/-- Every item of queue `q` back in the clearing (R294). -/
def emptyQueue (s : State) (q : Nat) : State :=
  let k := queueGet s q
  queuePut (k.items.foldl freeItem s) q { k with items := [] }

/-- The oldest items of queue `q` removed, with fuel, until it holds `n` (R294). -/
def trimQueue (fuel : Nat) (s : State) (q n : Nat) : State :=
  match fuel with
  | 0 => s
  | f + 1 => if (queueGet s q).items.length > n then trimQueue f (dropOldest s q) q n else s

/-- A write of QMGR_QCFG for queue `q` (R293, R294).
DEDUCED, log entry 49. -/
def writeQcfg (s : State) (q : Nat) (v : Word) : State :=
  let k := queueGet s q
  let en := if k.bound then k.en else bitOf v 31
  let limit := if k.bound then k.limit else fld v 11 0
  let k1 := { k with en := en, limit := limit, event := bitOf v 30, ntype := fld v 29 28,
                     err := k.err && ! en }
  let s1 := queuePut s q k1
  clearingCheck
    (if en = false then emptyQueue s1 q
     else if limit < k.items.length then trimQueue k.items.length s1 q limit
     else s1)

def execQueueConfigWrite (v : Word) (s : State) : Result :=
  .next (writeQcfg s (csrFld s offQmgrQsel 15 0) v)

/-- The clearing rebuilt: every cell free, every queue empty (R290). -/
def rebuildClearing (s : State) : State :=
  clearingCheck { s with qmgr := { s.qmgr with
      used := []
      queue := s.qmgr.queue.filterMap fun kq =>
        let q := { kq.2 with items := [] }
        if q = Queue.reset then none else some (kq.1, q) } }

/-- A write of DEV_HWL_CELL, ignored while RUN is 1 or a RUN check runs (R28, R290). -/
def writeHwlCell (s : State) (v : Word) : State :=
  if s.dev.run ∨ s.dev.check then s
  else rebuildClearing (csrPut s offDevHwlCell (v &&& 0xFFF0FFF#32))

def execHwlCellWrite (v : Word) (s : State) : Result := .next (writeHwlCell s v)

/-- An MSI-X vector made pending (R477). -/
def pendVector (s : State) (v : Nat) : State :=
  { s with host := { s.host with pend := insertRising s.host.pend v } }

/-- The notice of queue `q` delivered to the dispatcher or the host, if it can be (R297, R173). -/
def deliverNotice (s : State) (q : Nat) : State :=
  let k := queueGet s q
  let clear := fun s1 => queuePut s1 q { queueGet s1 q with notice := none }
  match k.notice with
  | none => s
  | some n =>
    match k.ntype with
    | 1 =>
      match deliver s .qmgr k.note (if isKind1 k.note then 0 else wordOf n.value)
          (wordOf (n.src + 0x8000 + q * 0x10000)) 0x06 0 true with
      | none => s
      | some s1 => clear s1
    | 2 => clear (pendVector s (fld k.note 5 0))
    | _ => clear s

def execNoticeDeliver (q : Nat) (s : State) : Result := .next (deliverNotice s q)

/-- R316: the queue disabled, its cells left out of the clearing.
DEDUCED, log entries 49, 148. -/
def execQueueDescError (q : Nat) (s : State) : Result :=
  .next (if q < 65536 then
    raise0 (queuePut s q { queueGet s q with en := false, err := true, items := [] }) 0x06 2 0 (leBytes 2 q)
  else s)

end Sys2Proof.Machine
end

