-- ==== Sys2Proof/Machine/MirrorTx.lean ====
section
/-! DEFINITION. What the blocks need of the mirror controller (15_mirror_pair.md): the
frames it builds (R454), the sequenced window (R456), what waits for the peer (R451, R458)
and the cipher horizons (R452); with the port, binding and key-slot tables it reads. -/

namespace Sys2Proof.Machine

/-! ## Tables -/

/-- Port `n`. -/
def macGet (s : State) (n : Nat) : MacSt := smapGet MacSt.reset s.mac n

def macPut (s : State) (n : Nat) (m : MacSt) : State :=
  { s with mac := smapPut MacSt.reset s.mac n m }

/-- A register of port `n`, by its place in MAC0's block. -/
def macReg (s : State) (n off : Nat) : Word := csrGet s (off + n * 0x10000)

def macFld (s : State) (n off hi lo : Nat) : Nat := fld (macReg s n off) hi lo

/-- The station address of port `n`, first byte on the wire first (R340). -/
def macAddr (s : State) (n : Nat) : List Byte :=
  beBytes 2 (macFld s n offMacAddrHi 15 0) ++ beBytes 4 (macReg s n offMacAddrLo).toNat

/-- MACn_CTL bits. -/
def macEn (s : State) (n : Nat) : Bool := bitOf (macReg s n offMacCtl) 31
def macTxEn (s : State) (n : Nat) : Bool := bitOf (macReg s n offMacCtl) 30
def macRxEn (s : State) (n : Nat) : Bool := bitOf (macReg s n offMacCtl) 29
/-- DEDUCED, log entry 63. -/
def macLoop (s : State) (n : Nat) : Nat := macFld s n offMacCtl 25 24
/-- An event of port `n` (R339). -/
def macEvent (s : State) (n code flags : Nat) (data : List Byte) : State :=
  raise0 s (0x08 + n) code flags data

/-- Largest value of a statistics counter. -/
def macCntMax : Nat := 0xFFFFFFFFFF

/-- Counter `c` of port `n` increased by `k`: it stops at its largest value, where the
first setting of its overflow bit raises an event (R338). -/
def macCount (s : State) (n c k : Nat) : State :=
  let o := offMacCntLo + n * 0x10000 + 8 * c
  let v := satAdd macCntMax (cntGet s o).toNat k
  let s1 := { s with cnt := smapPut 0 s.cnt o (BitVec.ofNat 64 v) }
  if v = macCntMax ∧ bitOf (macReg s n offMacOvf) c = false ∧ 0 < k then
    macEvent (csrSetBit s1 (offMacOvf + n * 0x10000) c true) n 2 0 (leBytes 1 c)
  else s1

/-- Port `n` discards what is handed to it for transmission (R322, R325, R340). -/
def macDown (s : State) (n : Nat) : Bool :=
  ! macEn s n || ! (macGet s n).link || ! macTxEn s n || macLoop s n == 2

/-- What channel `n` holds, if it is enabled (R265). -/
def bindGet (s : State) (n : Nat) : Option Binding := smapGet none s.chan.bind n

def bindPut (s : State) (n : Nat) (b : Option Binding) : State :=
  { s with chan := { s.chan with bind := smapPut none s.chan.bind n b } }

/-- Every enabled channel with what it holds. -/
def bindings (s : State) : List (Nat × Binding) :=
  s.chan.bind.filterMap fun kv => kv.2.map fun b => (kv.1, b)

def keySlotGet (s : State) (k : Nat) : KeySlot := smapGet KeySlot.reset s.ciph.slot k

def keySlotPut (s : State) (k : Nat) (v : KeySlot) : State :=
  { s with ciph := { s.ciph with slot := smapPut KeySlot.reset s.ciph.slot k v } }

/-- The channel that holds key slot `k`. -/
def slotBound (s : State) (k : Nat) : Option Nat :=
  ((bindings s).find? fun b => b.2.keys.contains k).map fun b => b.1

/-! ## The controller -/

def mirrPut (s : State) (m : MirrSt) : State := { s with mirr := m }

/-- MIRR_CTL.EN. -/
def mirrEn (s : State) : Bool := bitOf (csrGet s offMirrCtl) 31

/-- Code of a role (R454). -/
def roleCode (r : MirrRole) : Nat :=
  match r with
  | .init => 0
  | .standby => 1
  | .active => 2
  | .fenced => 3

/-- MIRR_EPOCH. -/
def mirrEpoch (s : State) : Nat := (csrGet s offMirrEpoch).toNat

/-- The unit is an active unit of a pair. -/
def mirrActive (s : State) : Bool := mirrEn s && s.mirr.role == .active

/-- An active unit whose peer sleeps holds every frame for its burst (R451). -/
def mirrHeld (s : State) : Bool := mirrActive s && s.mirr.peerSleep

/-- An event of the mirror controller (R469). -/
def mirrEvent (s : State) (code flags : Nat) (data : List Byte) : State := raise0 s 0x11 code flags data

/-- The peer's MAC4 address, first byte on the wire first (R440). -/
def mirrDest (s : State) : List Byte :=
  beBytes 2 (csrFld s offMirrPeerHi 15 0) ++ beBytes 4 (csrGet s offMirrPeerLo).toNat

/-- FLAGS of a frame (R454). -/
def mirrFlags (seqd retx last sync restart : Bool) : Nat :=
  boolBit seqd 0 + boolBit retx 1 + boolBit last 2 + boolBit sync 3 + boolBit restart 4

/-- A mirror frame (R440, R454).
DEDUCED, log entry 106. -/
def mirrBytes (s : State) (type flags seq : Nat) (payload : List Byte) : List Byte :=
  mirrDest s ++ macAddr s 4 ++ beBytes 2 0x88B5
    ++ beBytes 1 0x10 ++ beBytes 1 type ++ beBytes 1 flags
    ++ beBytes 1 (s.dev.pairId.toNat + 2 * roleCode s.mirr.role)
    ++ beBytes 4 (mirrEpoch s) ++ beBytes 4 seq ++ beBytes 4 (s.mirr.expect + 4294967295)
    ++ beBytes 4 (nfnOf s) ++ beBytes 2 payload.length ++ zeros 2 ++ payload

/-- Whether a frame handed over is a mirror frame of the given TYPE. -/
def isMirrType (f : TxFrame) (type : Nat) : Bool := beAt f.bytes 12 2 == 0x88B5 && byteAt f.bytes 15 == type

/-- Whether a waiting frame is STATE or ECREC, which every sequenced frame leaves ahead of (R458). -/
def isBulk (f : TxFrame) : Bool := isMirrType f 0x20 || isMirrType f 0x21

/-- A mirror frame handed to MAC4 (R331, R454), which discards it while it is down (R322). -/
def mirrHand (s : State) (type flags seq : Nat) (payload : List Byte) : State :=
  let m := macGet s 4
  let f : TxFrame := ⟨mirrBytes s type flags seq payload, macFld s 4 offMacCtl 18 16, decide (type ≤ 3),
    elapsed s.time, []⟩
  let tx := if type = 0x20 ∨ type = 0x21 then m.tx ++ [f]
    else m.tx.filter (fun g => ! isBulk g) ++ [f] ++ m.tx.filter isBulk
  let s1 := bump (mirrPut s { s.mirr with ackDue := none }) offMirrTxfrm
  if macDown s 4 then macCount s1 4 20 1 else macPut s1 4 { m with tx := tx }

/-- The receive and send key slots of channel `n`. -/
def chanKeys (s : State) (n : Nat) : Option (Nat × Nat) :=
  match bindGet s n with
  | some b => (match b.keys with
    | [r, t] => some (r, t)
    | _ => none)
  | none => none

/-- The slots of channel `n` in a direction, DIR 1 or 0: that half of KEYS which R253 gives the
direction, or the other.
DEDUCED, log entry 117. -/
def dirSlot (s : State) (n : Nat) (send : Bool) : Option Nat :=
  match chanKeys s n with
  | none => none
  | some (r, t) => (if send then [t, r] else [r, t]).find? fun k => (keySlotGet s k).send == send

/-- The HORIZON entry of channel `n`, with the raises that its ACK binds (R452, R454). -/
def horizonEntry (s : State) (n : Nat) : List Byte × List (Nat × Bool × Nat) :=
  let recv := dirSlot s n false
  let t := (dirSlot s n true).getD 0
  let v := if (dirSlot s n true).isSome then keySlotGet s t else KeySlot.reset
  let h := match v.rise with
    | some x => some x
    | none => v.hor
  let c := match v.crise with
    | some x => some x
    | none => v.chor
  let e := beBytes 2 n ++ beBytes 1 (boolBit h.isSome 0 + boolBit recv.isSome 1) ++ zeros 1 ++ beBytes 6 (h.getD 0) ++ zeros 2
    ++ beBytes 4 (c.getD 0) ++ beBytes 6 ((recv.map fun r => (keySlotGet s r).idx).getD 0) ++ zeros 2
  let b1 := match v.rise with
    | some x => [(t, false, x)]
    | none => []
  let b2 := match v.crise with
    | some x => [(t, true, x)]
    | none => []
  (e, b1 ++ b2)

/-- The channel of a waiting horizon. -/
def horizonOf (p : MirrPost) : Option Nat :=
  match p with
  | .horizon n => some n
  | _ => none

/-- Whether frames of a TYPE are sequenced (R454); a ROLE frame is when it is DEMOTING. -/
def seqType (type : Nat) (payload : List Byte) : Bool :=
  [0x10, 0x11, 0x12, 0x13, 0x22, 0x40].contains type || (type == 3 && byteAt payload 0 == 2)

/-- What is sent next: TYPE, SYNC, payload, the raises it binds, and what then still waits. -/
def nextPost (s : State) (l : List MirrPost) :
    Option (Nat × Bool × List Byte × List (Nat × Bool × Nat) × List MirrPost) :=
  match l with
  | [] => none
  | .desc n sync :: r => some (0x10, sync, beBytes 2 n ++ zeros 2 ++ memBytes s (chanAddr s n) 64, [], r)
  | .frame type sync payload :: r => some (type, sync, payload, [], r)
  | .horizon n :: r =>
    let ns : List Nat := n :: ((r.map horizonOf).takeWhile Option.isSome).filterMap id
    let es := (ns.take 90).map (horizonEntry s)
    some (0x22, false, beBytes 8 (nfnOf s) ++ es.flatMap (fun e => e.1), es.flatMap (fun e => e.2),
      r.drop (min 90 ns.length - 1))

/-- A sequenced frame numbered, kept for its ACK and handed over (R456, R457).
DEDUCED, log entry 107. -/
def sendSeq (s : State) (type : Nat) (sync : Bool) (payload : List Byte) (binds : List (Nat × Bool × Nat)) : State :=
  let m := s.mirr
  let f : MirrFrame := ⟨m.seq, type, sync, m.restart, payload, binds, 1, s.time.ticks⟩
  let s1 := mirrHand s type (mirrFlags true false false sync m.restart) m.seq payload
  mirrPut s1 { s1.mirr with seq := (m.seq + 1) % 4294967296, restart := false, win := m.win ++ [f] }

/-- What waits sent as far as the window of 1,024 frames allows, with fuel (R456). -/
def mirrFlush (fuel : Nat) (s : State) : State :=
  match fuel with
  | 0 => s
  | fuel + 1 =>
    match nextPost s s.mirr.posts with
    | none => s
    | some (type, sync, payload, binds, r) =>
      if seqType type payload then
        if 1024 ≤ s.mirr.win.length then s
        else mirrFlush fuel (sendSeq (mirrPut s { s.mirr with posts := r }) type sync payload binds)
      else mirrFlush fuel (mirrHand (mirrPut s { s.mirr with posts := r }) type 0 0 payload)

/-- What waits sent, unless it is held for a burst. -/
def mirrPump (s : State) : State := if mirrHeld s then s else mirrFlush s.mirr.posts.length s

/-- Whether a DESC frame of channel `n` has not yet begun to leave, and its SEQ (R458). -/
def descWaiting (s : State) (n : Nat) : Option Nat :=
  ((macGet s 4).tx.find? fun f => isMirrType f 0x10 && beAt f.bytes 38 2 == n).map fun f => beAt f.bytes 22 4

/-- The descriptor in a DESC frame that has not left replaced by the present one (R458). -/
def descRefresh (s : State) (n q : Nat) : State :=
  let payload := beBytes 2 n ++ zeros 2 ++ memBytes s (chanAddr s n) 64
  let m := macGet s 4
  let tx := m.tx.map fun f =>
    if isMirrType f 0x10 && beAt f.bytes 22 4 == q then { f with bytes := f.bytes.take 38 ++ payload } else f
  let win := s.mirr.win.map fun f => if f.seq = q then { f with payload := payload } else f
  macPut (mirrPut s { s.mirr with win := win }) 4 { m with tx := tx }

/-- Something queued for the peer: once while it waits, and sent when it may be (R458). -/
def mirrQueue (s : State) (p : MirrPost) : State :=
  let add := mirrPump (mirrPut s { s.mirr with posts := s.mirr.posts ++ [p] })
  if mirrEn s = false then s
  else
    match p with
    | .desc n sync =>
      if s.mirr.posts.contains p || s.mirr.posts.contains (.desc n true) then s
      else if sync then add
      else
        match descWaiting s n with
        | some q => descRefresh s n q
        | none => add
    | .horizon _ => if s.mirr.posts.contains p then s else add
    | .frame .. => add

/-- A message of the mirrored state, sent by an active unit (R442, R458). -/
def mirrPost (s : State) (p : MirrPost) : State := if mirrActive s then mirrQueue s p else s

/-- An unsequenced frame sent, or held for the burst (R451). -/
def mirrSend (s : State) (type : Nat) (payload : List Byte) : State :=
  if mirrHeld s then
    if s.mirr.posts.contains (.frame type false payload) then s
    else mirrPut s { s.mirr with posts := s.mirr.posts ++ [.frame type false payload] }
  else mirrHand s type 0 0 payload

/-! ## Horizons (R452) -/

/-- The first horizons of channel `n`'s send slot, and the index of its receive slot. -/
def horizonStart (s : State) (n : Nat) : State :=
  match chanKeys s n, dirSlot s n true with
  | none, _ => s
  | some _, none => mirrPost s (.horizon n)
  | some _, some t =>
    let v := keySlotGet s t
    mirrPost (keySlotPut s t { v with hor := some (v.idx + 16384), chor := some (v.cidx + 16384),
                                      rise := none, crise := none }) (.horizon n)

/-- The raise that a next index calls for. -/
def raiseOf (hor rise : Option Nat) (idx : Nat) : Option Nat :=
  match rise, hor with
  | some x, _ => some x
  | none, some h => if h - 8192 ≤ idx then some (h + 16384) else none
  | none, none => none

/-- What a request of the cipher engine on slot `k`, whose highest index was `old`, means
for its horizons. -/
def horizonCheck (s : State) (k old : Nat) : State :=
  let v := keySlotGet s k
  match slotBound s k with
  | none => s
  | some n =>
    if v.send then
      let a := raiseOf v.hor v.rise v.idx
      let b := raiseOf v.chor v.crise v.cidx
      if a = v.rise ∧ b = v.crise then s
      else mirrPost (keySlotPut s k { v with rise := a, crise := b }) (.horizon n)
    else if s.mirr.peerSleep ∧ old / 65536 ≠ v.idx / 65536 then mirrPost s (.horizon n)
    else s

/-- No horizon binds any more. -/
def horizonEnd (s : State) : State :=
  s.ciph.slot.foldl (fun s kv =>
    keySlotPut s kv.1 { kv.2 with hor := none, chor := none, rise := none, crise := none }) s

/-- The horizons that the ACK of a frame binds. -/
def horizonBind (s : State) (b : Nat × Bool × Nat) : State :=
  let v := keySlotGet s b.1
  if b.2.1 then
    if v.crise = some b.2.2 then keySlotPut s b.1 { v with chor := some b.2.2, crise := none } else s
  else if v.rise = some b.2.2 then keySlotPut s b.1 { v with hor := some b.2.2, rise := none } else s

/-! ## Channels seen by the mirror controller -/

/-- A channel accepted: its EC record starts unsent, what has come for its slots is kept, and an
active unit sends its descriptor and, to a sleeping peer, its horizons (R452, R458, R462). -/
def mirrAccepted (s : State) (n : Nat) (b : Binding) : State :=
  let ec := match b.ec with
    | [] => s.mirr.ecAt
    | r :: _ => smapPut none s.mirr.ecAt r (some (s.time.ticks, false))
  let s1 := mirrPut s { s.mirr with ecAt := ec }
  let s2 := mirrPost s1 (.desc n false)
  if mirrHeld s2 then horizonStart s2 n else s2

/-- A channel closed. -/
def mirrClosed (s : State) (n : Nat) (b : Binding) : State :=
  let ec := match b.ec with
    | [] => s.mirr.ecAt
    | r :: _ => smapErase s.mirr.ecAt r
  mirrPut s { s.mirr with ecAt := ec, keep := smapErase s.mirr.keep n }

/-- A standby's answer to a descriptor (R459). -/
def descResult (s : State) (n code : Nat) : State :=
  mirrQueue s (.frame 0x11 false (beBytes 2 n ++ beBytes 1 code ++ zeros 1))

/-- A consistency check decided: a DESCRES for each mirrored descriptor that waits for it (R459). -/
def mirrDecided (s : State) (n code : Nat) : State :=
  (s.mirr.descWait.filter fun k => k == n).foldl (fun a _ => descResult a n code)
    (mirrPut s { s.mirr with descWait := s.mirr.descWait.filter fun k => k != n })

/-- A CALL message (R454): 1 START, 2 ADOPT, 3 closed, and the opening record's TS80 as the
meter keeps it. -/
def mirrCall (s : State) (n how ref : Nat) (stamp : List Byte) (sync : Bool) : State :=
  mirrPost s (.frame 0x12 sync (beBytes 2 n ++ beBytes 1 how ++ beBytes 1 s.meter.pairId.toNat
    ++ beBytes 4 ref ++ (stamp.take 6).reverse ++ (stamp.drop 6).reverse ++ zeros 2))

end Sys2Proof.Machine
end

