-- ==== Sys2Proof/Machine/Channels.lean ====
section
/-! DEFINITION. Channels (08_channels_media_rom.md): the descriptor (R253–R259), the
consistency check and its reason codes (R261–R265), costs and budgets (R22, R284), and
opening and closing (R263–R270). -/

namespace Sys2Proof.Machine

/-! ## The descriptor -/

/-- Word of channel `n`'s descriptor at byte `o` (R253). -/
def descWord (s : State) (n o : Nat) : Word := wordOf (memNat s (chanAddr s n + o) 4)

/-- A descriptor word written by the device. -/
def putDesc (s : State) (n o : Nat) (w : Word) : State := memPut s (chanAddr s n + o) 4 w.toNat

/-- STAT of channel `n` (R257). -/
def chanStat (s : State) (n : Nat) : Word := descWord s n 0x20

/-- Whether channel `n` is ACTIVE: enabled and holding its resources (R257). -/
def chanActive (s : State) (n : Nat) : Bool := (chanStat s n).getLsbD 8

/-! ## Budgets and costs -/

/-- Voice engines that the ECU budget counts (R22). -/
def voiceEngines (s : State) : Nat := ((List.range 128).filter fun e => engPresent s e).length

/-- Channel records that lie in failed banks (R519).
DEDUCED, log entry 75. -/
def lostChan (s : State) : Nat :=
  if s.assay.failed.isEmpty then 0 else ((List.range (chanCount s)).filter fun n => bankBad s (chanAddr s n)).length

/-- EC records that lie in failed banks (R519).
DEDUCED, log entry 75. -/
def lostEc (s : State) : Nat :=
  if s.assay.failed.isEmpty then 0 else ((List.range (ecCount s)).filter fun n => bankBad s (ecAddr s n)).length

/-- DEV_CAP_CHAN (R22, R28), less each lost record (R519). -/
def capChan (s : State) : Nat := min (if s.variantH then 8192 else 16384) (chanCount s) - lostChan s

/-- DEV_CAP_ECU (R22). -/
def capEcu (s : State) : Nat := voiceEngines s * 14400

/-- DEV_CAP_ECREC (R22, R28), less each lost record (R519). -/
def capEcrec (s : State) : Nat := min (if s.variantH then 8192 else 16384) (ecCount s) - lostEc s

/-- DEV_CAP_MR (R22). -/
def capMr : Nat := 256

def useChan (s : State) : Nat := (bindings s).length
def useEcu (s : State) : Nat := ((bindings s).map fun b => b.2.ecu).sum
def useEcrec (s : State) : Nat := ((bindings s).map fun b => b.2.ecUnits).sum
def useMr (s : State) : Nat := ((bindings s).map fun b => b.2.relay).sum

/-- ECU of one leg's codec (R284). -/
def legEcu (codec : Nat) : Nat :=
  if codec = 1 ∨ codec = 2 then 4
  else if 3 ≤ codec ∧ codec ≤ 6 then 14
  else if codec = 7 then 20
  else if codec = 8 then 58
  else 0

/-- ECU, EC-record units and modem-relay units of a channel (R284). -/
def chanCost (media rel : Word) : Nat × Nat × Nat :=
  let ac := fld media 3 0
  let tc := fld media 7 4
  let ecm := fld media 19 17
  if tc = 9 then (3400, 0, 1)
  else
    let base := (if bitOf media 16 then 176 else 88) + legEcu ac + legEcu tc
      + (if ecm = 2 then 2 else 0) + (if bitOf rel 19 then 10 else 0) + (if bitOf rel 20 then 10 else 0)
    (if ecm = 0 then base - 2 else base, if ecm = 1 then 1 else if ecm = 2 ∨ ecm = 4 then 2 else 0, 0)

/-! ## The consistency check -/

/-- The words of a descriptor the check reads (R253). -/
structure Desc where
  ctl : Word
  media : Word
  ecrec : Word
  keys : Word
  queues : Word
  flows : Word
  rel : Word
  qlim : Word
  jit : Word
  proc : Word
  deriving DecidableEq, Repr

/-- The descriptor of channel `n`. -/
def descOf (s : State) (n : Nat) : Desc where
  ctl := descWord s n 0x00
  media := descWord s n 0x04
  ecrec := descWord s n 0x08
  keys := descWord s n 0x0C
  queues := descWord s n 0x10
  flows := descWord s n 0x14
  rel := descWord s n 0x18
  qlim := descWord s n 0x1C
  jit := descWord s n 0x24
  proc := descWord s n 0x28

def dEcMode (d : Desc) : Nat := fld d.media 19 17
def dWide (d : Desc) : Bool := bitOf d.media 16
def dSrtp (d : Desc) : Nat := fld d.ctl 3 2
def dAcodec (d : Desc) : Nat := fld d.media 3 0
def dTcodec (d : Desc) : Nat := fld d.media 7 4
def dAtrans (d : Desc) : Nat := fld d.media 21 20
def dTtrans (d : Desc) : Nat := fld d.media 22 22

/-- EC records a descriptor names: head, and tail in the two-record modes (R262). -/
def dEcRecords (d : Desc) : List Nat :=
  if dEcMode d = 0 then []
  else if dEcMode d = 1 then [fld d.ecrec 15 0]
  else [fld d.ecrec 15 0, fld d.ecrec 31 16]

/-- Code of a codec on a packet time (R261). -/
def timeOk (codec t : Nat) : Bool :=
  decide (t ≤ 8) && (codec != 8 || t % 2 == 0)

/-- Bytes of flow entry `i`, zero where it is invalid by an error (R303, R316). -/
def flowBytes (s : State) (i : Nat) : List Byte :=
  if smapGet false s.pkt.flowBad i then zeros 16 else smapGet (zeros 16) s.pkt.flow i

/-- TYPE of a flow entry (R303). -/
def flowType (f : List Byte) : Nat := byteAt f 0 % 16

/-- CHAN, TAGBASE or QUEUE of a flow entry: bytes 10–11. -/
def flowChan (f : List Byte) : Nat := leAt f 10 2

/-- Members of BUNDLE entry `b` that name channel `n` and this bundle (R264). -/
def bundleHits (s : State) (b n : Nat) : Nat :=
  let f := flowBytes s b
  ((List.range (leAt f 12 2)).filter fun t =>
    let m := flowBytes s (leAt f 10 2 + t)
    flowType m == 5 && flowChan m == n && leAt m 14 2 == b).length

/-- Timeslots of PW entry `p` that name channel `n` (R264). -/
def pwHits (s : State) (p n : Nat) : Nat :=
  let f := flowBytes s p
  ((List.range (byteAt f 10)).filter fun t =>
    let m := flowBytes s (p + 1 + t)
    flowType m == 3 && flowChan m == n).length

/-- Whether flow entry `i` maps a leg to channel `n`: `leg` 0 trunk or 1 access, `alt` the
bundled or CESoPSN transport (R264 code 0x1A). -/
def flowMaps (s : State) (i leg : Nat) (alt : Bool) (n : Nat) : Bool :=
  let f := flowBytes s i
  if alt then
    if leg = 0 then flowType f == 4 && bundleHits s i n == 1
    else flowType f == 2 && pwHits s i n == 1
  else flowType f == 1 && flowChan f == n && (byteAt f 0 / 16 % 2) == leg

/-- Whether another enabled channel holds EC record `r`, key slot, or queue. -/
def otherHas (s : State) (n : Nat) (p : Binding → Bool) : Bool :=
  (bindings s).any fun b => b.1 != n && p b.2

/-- STAT.BUDGET for a channel of the given costs: each budget that would be exceeded, and
records that assay has removed (R257, R23, R519).
DEDUCED, log entry 75. -/
def budgetBits (s : State) (n : Nat) (d : Desc) : Nat :=
  let cost := chanCost d.media d.rel
  boolBit (decide (capChan s < useChan s + 1) || bankBad s (chanAddr s n)) 0
    + boolBit (decide (capEcu s < useEcu s + cost.1)) 1
    + boolBit (decide (capEcrec s < useEcrec s + cost.2.1) || (dEcRecords d).any fun r => bankBad s (ecAddr s r)) 2
    + boolBit (decide (capMr < useMr s + cost.2.2)) 3

/-- State of a key slot. -/
def slotState (s : State) (k : Nat) : SlotState := (smapGet KeySlot.reset s.ciph.slot k).state

/-- The conditions of R264 in the order of their codes, each true when it fails. -/
def checkFails (s : State) (n : Nat) (d : Desc) : List (Nat × Bool) :=
  let rx := fld d.keys 15 0
  let tx := fld d.keys 31 16
  let srtp := dSrtp d != 0
  let q1 := fld d.queues 15 0
  let q2 := fld d.queues 31 16
  let l1 := fld d.qlim 15 0
  let l2 := fld d.qlim 31 16
  let jmin := fld d.jit 7 0
  let jmax := fld d.jit 15 8
  let jinit := fld d.jit 23 16
  let tpt := fld d.media 15 12
  let apt := fld d.media 11 8
  let a := dAcodec d
  let t := dTcodec d
  let f1 := fld d.flows 15 0
  let f2 := fld d.flows 31 16
  let tm := fld d.rel 15 8
  let sl := fld d.rel 17 16
  [(0x01, ! s.dev.run),
   (0x02, (chanStat s n).getLsbD 11),
   (0x03, fld d.ctl 31 7 != 0 || fld d.media 31 23 != 0 || fld d.rel 7 6 != 0 || fld d.rel 31 23 != 0
      || fld d.jit 31 25 != 0 || fld d.proc 31 14 != 0 || bitOf d.proc 7),
   (0x04, a == 0 || decide (9 < a) || t == 0 || decide (9 < t)),
   (0x05, decide (2 ≤ dAtrans d) || decide (8 ≤ a) || (dAtrans d == 0 && decide (3 ≤ a))
      || (t == 9 && decide (3 ≤ a))),
   (0x06, apt == 0 || tpt == 0),
   (0x07, ! timeOk a apt || ! timeOk t tpt),
   (0x08, if dWide d then a != 7 || t != 7 || dAtrans d == 0 else a == 7 || t == 7),
   (0x09, dWide d && (decide (8192 ≤ n) || (bindGet s (n + 8192)).isSome)),
   (0x0A, decide (8192 ≤ n) &&
      match bindGet s (n - 8192) with | some b => b.wide | none => false),
   (0x0B, decide (39 < fld d.rel 5 0)),
   (0x0C, (tmplGet s tm).isNone),
   (0x0D, ! (tReq (tmplA s tm)).testBit sl || tMode (tmplA s tm) sl != 0),
   (0x0E, if dWide d then dEcMode d != 0 && dEcMode d != 4
      else decide (2 < dEcMode d) || (t == 9 && dEcMode d != 0)),
   (0x0F, (dEcRecords d).any (fun r => decide (ecCount s ≤ r))
      || (dEcMode d == 0 && fld d.ecrec 15 0 != 0)
      || (decide (dEcMode d ≤ 1) && fld d.ecrec 31 16 != 0)
      || (decide (2 ≤ dEcMode d) && fld d.ecrec 15 0 == fld d.ecrec 31 16)),
   (0x10, (dEcRecords d).any fun r => otherHas s n fun b => b.ec.contains r),
   (0x11, dSrtp d == 3 || (dSrtp d == 1 && dTtrans d == 1) || (dSrtp d == 2 && dAtrans d == 0)),
   (0x12, if srtp then decide (32767 < rx) || decide (32767 < tx) || rx == tx else d.keys != 0),
   (0x13, srtp && [rx, tx].any fun k => slotState s k == .empty),
   (0x14, srtp && [rx, tx].any fun k => slotState s k == .retired || slotState s k == .fault),
   (0x15, srtp && [rx, tx].any fun k => otherHas s n fun b => b.keys.contains k),
   (0x16, q1 == q2 || [q1, q2].any fun q => otherHas s n fun b => b.qTrunk == q || b.qAccess == q),
   (0x17, l1 == 0 || l2 == 0),
   (0x18, decide (1024 < l1) || decide (1024 < l2) || decide (l1 < (jmax + tpt - 1) / tpt + 2)),
   (0x19, [f1, f2].any fun i => flowType (flowBytes s i) == 0),
   (0x1A, ! flowMaps s f1 0 (dTtrans d == 1) n || ! flowMaps s f2 1 (dAtrans d == 0) n),
   (0x1B, ! (decide (jmin ≤ jinit) && decide (jinit ≤ jmax) && decide (jmax ≤ 40) && decide (1 ≤ jmax))),
   (0x1C, decide (39 < fld d.proc 13 8)),
   (0x1D, dWide d && (bitOf d.rel 19 || bitOf d.rel 20)),
   (0x1E, budgetBits s n d != 0)]

/-- The reason code of a check: the first failing condition, then the meter's answer for a
billable channel; 0 for acceptance (R264). -/
def checkCode (s : State) (n : Nat) (d : Desc) : Nat :=
  match (checkFails s n d).find? fun c => c.2 with
  | some c => c.1
  | none =>
    if bitOf d.ctl 1 && ! bitOf (csrGet s offMeterNewcall) 31 then fld (csrGet s offMeterNewcall) 7 0 else 0

/-- DISP_CHK_LAST (R287). -/
def noteDecision (s : State) (n code : Nat) : State :=
  csrPut s offDispChkLast (wordOf (0x80000000 + code * 0x10000 + n))

/-- A queue bound to an enabled channel: EN held at 1 and LIMIT at QLIM (R293). -/
def bindQueue (s : State) (q limit : Nat) : State :=
  let k := queueGet s q
  let s1 := queuePut s q { k with en := true, limit := limit, bound := true, err := false }
  if limit < k.items.length then trimQueue k.items.length s1 q limit else s1

/-- A queue unbound; it keeps its configuration and items (R293). -/
def unbindQueue (s : State) (q : Nat) : State := queuePut s q { queueGet s q with bound := false }

/-- Closing begins: the release entry off and STAT.CLOSING set (R269). -/
def beginClose (s : State) (n : Nat) : State :=
  let s1 := relPut s n { relGet s n with en := false }
  putDesc s1 n 0x20 (chanStat s1 n ||| 0x800#32)

/-- A check of channel `n` waits. -/
def checkWaits (s : State) (n : Nat) : Bool := s.chan.checks.any fun x => x.1 == n

/-- Acceptance of channel `n` (R265, R266). -/
def acceptChan (s : State) (n : Nat) (d : Desc) : State :=
  let cost := chanCost d.media d.rel
  let b : Binding :=
    { ec := dEcRecords d
      keys := if dSrtp d = 0 then [] else [fld d.keys 15 0, fld d.keys 31 16]
      srtp := dSrtp d
      qTrunk := fld d.queues 15 0
      qAccess := fld d.queues 31 16
      fTrunk := fld d.flows 15 0
      fAccess := fld d.flows 31 16
      wide := dWide d
      ecu := cost.1
      ecUnits := cost.2.1
      relay := cost.2.2
      fixed := [d.ctl, d.media, d.ecrec, d.keys, d.queues, d.flows, d.rel, d.qlim] }
  let s1 := relPut s n ⟨true, fld d.rel 5 0, fld d.rel 15 8, fld d.rel 17 16⟩
  let s2 := bindPut s1 n (some b)
  let s3 := bindQueue (bindQueue s2 b.qTrunk (fld d.qlim 15 0)) b.qAccess (fld d.qlim 31 16)
  let busy := boolBit (checkWaits s n) 10
  let s4 := putDesc s3 n 0x20 (wordOf (0x300 + busy))
  let s5 := raise s4 0x03 0x10 n 0
    (zeros 2 ++ leBytes 2 cost.1 ++ leBytes 1 cost.2.1 ++ leBytes 1 cost.2.2 ++ zeros 2 ++ leBytes 8 (nfnOf s))
  let s6 := mirrDecided (mirrAccepted (noteDecision (bump s5 offDispChkAcc) n 0) n b) n 0
  if bitOf d.ctl 0 && ! s.chan.cleared.contains n then s6 else beginClose s6 n

/-- Refusal of channel `n` (R265). -/
def refuseChan (s : State) (n code : Nat) (d : Desc) : State :=
  let bits := if code = 0x1E then budgetBits s n d else 0
  let st := chanStat s n
  let keep : Word := if code = 0x02 then 0xB00#32 else 0xA00#32
  let busy := boolBit (checkWaits s n) 10
  let s1 := putDesc s n 0x00 (d.ctl &&& 0xFFFFFFFE#32)
  let s2 := putDesc s1 n 0x20 ((st &&& keep) ||| wordOf (code + bits * 0x1000 + busy))
  let s3 := raise s2 0x03 0x11 n bits (leBytes 1 code ++ zeros 7 ++ leBytes 8 (nfnOf s))
  mirrDecided (noteDecision (bump s3 offDispChkRef) n code) n code

/-- The oldest pending check performed (R263, R264). -/
def execConsistencyCheck (s : State) : Result :=
  .next (match s.chan.checks with
    | [] => s
    | (n, _) :: r =>
      let s1 := { s with chan := { s.chan with checks := r } }
      let d := descOf s1 n
      let code := checkCode s1 n d
      let s2 := if code = 0 then acceptChan s1 n d else refuseChan s1 n code d
      { s2 with chan := { s2.chan with cleared := s2.chan.cleared.erase n } })

/-- A check put in its place: the order of the writes, and rising channels among the
writes of one fabric cycle (R263).
DESIGN CHOICE, log entry 8; DEDUCED, log entry 74. -/
def queueCheck (x : Nat × Nat) : List (Nat × Nat) → List (Nat × Nat)
  | [] => [x]
  | y :: r => if x.2 = y.2 ∧ x.1 < y.1 then x :: y :: r else y :: queueCheck x r

/-- What a write that changed CTL of channel `n` does, `old` being CTL before it
(R263, R266, R269). -/
def ctlChanged (s : State) (n : Nat) (old : Word) : State :=
  let now := descWord s n 0
  if bitOf now 0 && ! bitOf old 0 then
    putDesc { s with chan := { s.chan with checks := queueCheck (n, s.time.cyc + s.time.fab) s.chan.checks } } n 0x20
      (chanStat s n ||| 0x400#32)
  else if bitOf old 0 && ! bitOf now 0 then
    if checkWaits s n then { s with chan := { s.chan with cleared := n :: s.chan.cleared } }
    else if (bindGet s n).isSome then beginClose s n
    else s
  else s

/-- The channels whose CTL word a write of `len` bytes at `a` touches. -/
def ctlTouched (s : State) (a len : Nat) : List Nat :=
  let base := chanAddr s 0
  ((List.range ((len + 0x1FFE) / 0x1000 + 1)).map fun i => (a - base) / 0x1000 + i).filter fun n =>
    decide (n < min 16384 (chanCount s)) && decide (a < chanAddr s n + 4) && decide (chanAddr s n < a + len)

/-- The channels whose descriptor, apart from STAT, a write of `len` bytes at `a` touches (R458). -/
def descTouched (s : State) (a len : Nat) : List Nat :=
  let base := chanAddr s 0
  ((List.range ((len + 0x1FFE) / 0x1000 + 1)).map fun i => (a - base) / 0x1000 + i).filter fun n =>
    let c := chanAddr s n
    decide (n < min 16384 (chanCount s)) && ((decide (a < c + 0x20) && decide (c < a + len))
      || (decide (a < c + 0x40) && decide (c + 0x24 < a + len)))

/-- A write of heartwood by a bus agent: the bytes, and the watch on CTL (R263). -/
def busWrite (s : State) (a : Nat) (bs : List Byte) : State :=
  let ns := ctlTouched s a bs.length
  let old := ns.map fun n => (n, descWord s n 0)
  let s1 := old.foldl (fun s o => ctlChanged s o.1 o.2) (memWrite s a bs)
  (descTouched s1 a bs.length).foldl (fun s n => if (bindGet s n).isSome then mirrPost s (.desc n false) else s) s1

def execChannelEnableWrite (n : Nat) (v : Word) (s : State) : Result :=
  .next (busWrite s (chanAddr s n) (leBytes 4 (setBit v 0 true).toNat))

def execChannelCloseWrite (n : Nat) (v : Word) (s : State) : Result :=
  .next (busWrite s (chanAddr s n) (leBytes 4 (setBit v 0 false).toNat))

/-- An EC record as a close that was not orderly leaves it: its contents are undefined until its
next INIT or RESTORE (R270).
DESIGN CHOICE, log entry 176. -/
def leaveEc (s : State) (r : Nat) : State :=
  memWrite { s with free := s.free + 1 } (ecAddr s r) (padTo 4096 (Config.ecLeft s.free))

/-- The channel's resources unbound and its costs subtracted, with the closed event (R269, R270). -/
def closeChan (s : State) (n purged : Nat) : State :=
  match bindGet s n with
  | none => s
  | some b =>
    let s0 := if bitOf (descWord s n 0x28) 6 then s else b.ec.foldl leaveEc s
    let s1 := unbindQueue (unbindQueue (bindPut s0 n none) b.qTrunk) b.qAccess
    let s2 := putDesc s1 n 0x20 (chanStat s1 n &&& 0xFFFFF6FF#32)
    mirrClosed (bump (raise s2 0x03 0x12 n 0
      (leBytes 2 purged ++ leBytes 2 b.ecu ++ zeros 4 ++ leBytes 8 (nfnOf s))) offDispChkClose) n b

/-- The instances of channel `n` freed and its close completed (R169, R269). -/
def purgeAll (s : State) (n : Nat) : State × Nat :=
  let mine := s.disp.insts.filter fun x => x.chan == n
  let s1 := levelCheck { s with disp := { s.disp with insts := s.disp.insts.filter fun x => x.chan != n } }
  (closeChan s1 n mine.length, mine.length)

/-- A write of DISP_PURGE with GO (R169, R269). -/
def purgeChan (s : State) (n : Nat) : State :=
  if (relGet s n).en then csrPut s offDispPurgeStat 0x90000000#32
  else
    let r := purgeAll s n
    csrPut r.1 offDispPurgeStat (wordOf (0x80000000 + r.2))

def execChannelPurge (n : Nat) (s : State) : Result := .next (if n < 16384 then purgeChan s n else s)

end Sys2Proof.Machine
end

