-- ==== Sys2Proof/Machine/Encoding.lean ====
section
/-! DEFINITION. Lemgil words (R117–R121): which are defined encodings, and the instruction, with
its operands, that a word is on an engine. -/

namespace Sys2Proof.Machine

/-- Whether bits `hi`:`lo` are zero. -/
def zf (w : Word) (hi lo : Nat) : Bool := fld w hi lo == 0

/-- MAC format (R119, R127). -/
def definedMac (w : Word) : Bool :=
  let op := fld w 30 28
  decide (op ≤ 4) && zf w 1 0
    && (decide (op < 3) || zf w 25 16)
    && (op != 4 || zf w 27 26)
    && (bitOf w 15 || zf w 14 9)
    && (bitOf w 8 || (zf w 7 4 && zf w 3 2))

/-- Register ALU group (R122). -/
def definedR (w : Word) : Bool :=
  let f := fld w 5 0
  zf w 12 6 && decide (1 ≤ f) && decide (f ≤ 0x14)
    && ((f != 0x05 && f != 0x0A) || zf w 24 21)
    && ((f != 0x10 && f != 0x11 && f != 0x12 && f != 0x14) || zf w 16 13)

/-- Immediate ALU group; `op` is 1 to 8 (R122). -/
def definedI (op : Nat) (w : Word) : Bool :=
  zf w 16 16 && (op != 5 || zf w 24 21) && (decide (op < 6) || zf w 15 5)

/-- A G, P or M register field (R120). -/
def definedGpm (cl n : Nat) : Bool := cl == 0 || ((cl == 1 || cl == 2) && decide (n < 8))

/-- MOV's pairs of classes (R124). -/
def definedV (w : Word) : Bool :=
  let rd := fld w 24 21
  let dcl := fld w 20 18
  let rs := fld w 17 14
  let scl := fld w 13 11
  zf w 10 0 &&
    ((definedGpm dcl rd && definedGpm scl rs)
      || (dcl == 3 && decide (rd < 4) && (scl == 0 || (scl == 3 && decide (rs < 4))))
      || (dcl == 4 && decide (rd < 12) && scl == 0)
      || (dcl == 0 && scl == 4 && decide (rs < 12)))

/-- Accumulator group (R126). -/
def definedC (w : Word) : Bool :=
  let f := fld w 5 0
  decide (1 ≤ f) && decide (f ≤ 7) && zf w 15 14 && zf w 7 6 && zf w 20 19
    && (decide (f ≤ 3) || zf w 24 23)
    && (f == 1 || zf w 16 16) && (f == 6 || zf w 13 8)

/-- Loads and stores; `op` is 0x10 to 0x16 (R129). -/
def definedM (op : Nat) (w : Word) : Bool :=
  let cl := fld w 15 14
  let rd := fld w 24 21
  let cls :=
    match op with
    | 0x10 => cl == 0
    | 0x11 => cl == 0
    | 0x12 => cl != 3 && definedGpm cl rd
    | 0x13 => cl == 3 && decide (rd < 4)
    | 0x14 => cl == 0 || (cl == 3 && decide (rd < 4))
    | 0x15 => definedGpm cl rd || (cl == 3 && decide (rd < 4))
    | _ => cl == 3 && decide (rd < 4)
  cls && (! bitOf w 17 || zf w 13 0) && (! bitOf w 16 || (op == 0x14 && cl == 3))

/-- MFC and MTC (R120, R144). -/
def definedP (w : Word) : Bool :=
  let cl := fld w 20 18
  let n := fld w 17 14
  zf w 11 0 && (definedGpm cl n || ((cl == 3 || cl == 5) && decide (n < 4)) || (cl == 4 && decide (n < 12)))

/-- Whether a word is a defined encoding (R118, R121).
DESIGN CHOICE, log entry 13. -/
def definedWord (w : Word) : Bool :=
  if bitOf w 31 then definedMac w
  else
    let op := fld w 30 25
    match op with
    | 0x00 => definedR w
    | 0x09 => zf w 17 16 && definedGpm (fld w 20 18) (fld w 24 21)
    | 0x0A => zf w 17 16 && definedGpm (fld w 20 18) (fld w 24 21)
    | 0x0B => definedV w
    | 0x0C => definedC w
    | 0x18 => zf w 13 0
    | 0x19 => zf w 13 0
    | 0x20 => fld w 24 21 != 15
    | 0x21 => zf w 24 21
    | 0x22 => zf w 15 0 && fld w 24 21 != 15
    | 0x23 => zf w 15 0 && zf w 24 21
    | 0x24 => true
    | 0x25 => zf w 20 15
    | 0x28 => zf w 24 6 && decide (fld w 5 0 ≤ 5)
    | 0x29 => zf w 24 16
    | 0x2C => zf w 24 8 && ! zf w 7 0
    | 0x2D => zf w 15 0 && (bitOf w 16 || zf w 24 17)
    | 0x2E => zf w 16 0
    | 0x2F => zf w 24 12
    | 0x30 => zf w 20 0 && fld w 22 21 != 3
    | 0x38 => definedP w
    | 0x39 => definedP w
    | _ =>
      if 1 ≤ op ∧ op ≤ 8 then definedI op w
      else if 0x10 ≤ op ∧ op ≤ 0x16 then definedM op w
      else false

/-! ## The instruction a word is (R119–R121) -/

/-- Bits of a word from `lo` on, as a field of `n` bits. -/
def bitsAt (n : Nat) (w : Word) (lo : Nat) : BitVec n := w.extractLsb' lo n

/-- The X or Y fetch of a MAC-class word, whose enable, register and pointer stand at these bits. -/
def fetchOf (w : Word) (en rd p : Nat) : Option Fetch :=
  if bitOf w en then some ⟨bitsAt 4 w rd, bitsAt 2 w p⟩ else none

/-- A MAC-class word (R127). -/
def macOf (e : Nat) (w : Word) : Instr :=
  let a := bitsAt 2 w 26
  let gs := bitsAt 4 w 22
  let gt := bitsAt 4 w 18
  let hs := bitOf w 17
  let ht := bitOf w 16
  let x := fetchOf w 15 11 9
  let y := fetchOf w 8 4 2
  match fld w 30 28 with
  | 0 => .mac e a gs gt hs ht x y
  | 1 => .msu e a gs gt hs ht x y
  | 2 => .mpy e a gs gt hs ht x y
  | 3 => .aclr e a x y
  | _ => .fet e x y

/-- A word of the register ALU group (R122, R123). -/
def regAluOf (e : Nat) (w : Word) : Instr :=
  let rd := bitsAt 4 w 21
  let rs := bitsAt 4 w 17
  let rt := bitsAt 4 w 13
  match fld w 5 0 with
  | 0x01 => .add e rd rs rt
  | 0x02 => .adds e rd rs rt
  | 0x03 => .sub e rd rs rt
  | 0x04 => .subs e rd rs rt
  | 0x05 => .cmp e rs rt
  | 0x06 => .and e rd rs rt
  | 0x07 => .or e rd rs rt
  | 0x08 => .xor e rd rs rt
  | 0x09 => .andn e rd rs rt
  | 0x0A => .tst e rs rt
  | 0x0B => .shl e rd rs rt
  | 0x0C => .shr e rd rs rt
  | 0x0D => .sar e rd rs rt
  | 0x0E => .min e rd rs rt
  | 0x0F => .max e rd rs rt
  | 0x10 => .neg e rd rs
  | 0x11 => .abs e rd rs
  | 0x12 => .clz e rd rs
  | 0x13 => .mul e rd rs rt
  | _ => .sexh e rd rs

/-- A word of the immediate ALU group; `op` is 1 to 8 (R122). -/
def immAluOf (e op : Nat) (w : Word) : Instr :=
  let rd := bitsAt 4 w 21
  let rs := bitsAt 4 w 17
  let imm := bitsAt 16 w 0
  match op with
  | 1 => .addi e rd rs imm
  | 2 => .andi e rd rs imm
  | 3 => .ori e rd rs imm
  | 4 => .xori e rd rs imm
  | 5 => .cmpi e rs imm
  | 6 => .shli e rd rs (bitsAt 5 w 0)
  | 7 => .shri e rd rs (bitsAt 5 w 0)
  | _ => .sari e rd rs (bitsAt 5 w 0)

/-- A word of the accumulator group (R126). -/
def accOf (e : Nat) (w : Word) : Instr :=
  let d := bitsAt 2 w 21
  let a := bitsAt 2 w 17
  match fld w 5 0 with
  | 1 => .movh e (bitsAt 4 w 21) a (bitOf w 16)
  | 2 => .movw e (bitsAt 4 w 21) a
  | 3 => .movx e (bitsAt 4 w 21) a
  | 4 => .adda e d a
  | 5 => .suba e d a
  | 6 => .ash e d a (bitsAt 6 w 8)
  | _ => .aneg e d a

/-- A load or store word; `op` is 0x10 to 0x16 (R129). -/
def memOf (e op : Nat) (w : Word) : Instr :=
  let rd := bitsAt 4 w 21
  let pn := bitsAt 3 w 18
  let md := bitOf w 17
  let cl := bitsAt 2 w 14
  let ofs := bitsAt 14 w 0
  match op with
  | 0x10 => .ldh e rd pn md ofs
  | 0x11 => .ldhu e rd pn md ofs
  | 0x12 => .ldw e rd cl pn md ofs
  | 0x13 => .lda e rd pn md ofs
  | 0x14 => .sth e rd cl (bitOf w 16) pn md ofs
  | 0x15 => .stw e rd cl pn md ofs
  | _ => .sta e rd pn md ofs

/-- A word of the system group (R136). -/
def systemOf (e : Nat) (w : Word) : Instr :=
  match fld w 5 0 with
  | 0 => .nop e
  | 1 => .fence e
  | 2 => .hold e
  | 3 => .unhold e
  | 4 => .yield e
  | _ => .rte e

/-- The instruction that a word is on engine `e`, operands and all; a word that R118 leaves
undefined is the instruction of that name. -/
def lemgilOf (e : Nat) (w : Word) : Instr :=
  if definedWord w = false then .undefinedInstruction e w
  else if bitOf w 31 then macOf e w
  else
    let op := fld w 30 25
    let r21 := bitsAt 4 w 21
    let an := bitOf w 20
    match op with
    | 0x00 => regAluOf e w
    | 0x09 => .movi e r21 (bitsAt 3 w 18) (bitsAt 16 w 0)
    | 0x0A => .movhi e r21 (bitsAt 3 w 18) (bitsAt 16 w 0)
    | 0x0B => .mov e r21 (bitsAt 3 w 18) (bitsAt 4 w 14) (bitsAt 3 w 11)
    | 0x0C => accOf e w
    | 0x18 => .aadd e r21 (bitsAt 4 w 17) (bitsAt 3 w 14)
    | 0x19 => .acas e r21 (bitsAt 4 w 17) (bitsAt 3 w 14)
    | 0x20 => .b e r21 an (bitsAt 20 w 0)
    | 0x21 => .call e an (bitsAt 20 w 0)
    | 0x22 => if r21 = 0 ∧ bitsAt 4 w 16 = 15 then .ret e an else .jr e r21 an (bitsAt 4 w 16)
    | 0x23 => .callr e an (bitsAt 4 w 16)
    | 0x24 => .loopImmediate e (bitsAt 16 w 9) (bitsAt 9 w 0)
    | 0x25 => .loopRegister e r21 (bitsAt 15 w 0)
    | 0x28 => systemOf e w
    | 0x29 => .trap e (bitsAt 16 w 0)
    | 0x2C => .take e (bitsAt 8 w 0)
    | 0x2D => if bitOf w 16 then .doneDeliver e r21 (bitsAt 4 w 17) else .done e
    | 0x2E => .signal e r21 (bitsAt 4 w 17)
    | 0x2F => .waitevt e (bitsAt 12 w 0)
    | 0x30 => .cpx e (bitsAt 2 w 23) (bitsAt 2 w 21)
    | 0x38 => .mfc e r21 (bitsAt 3 w 18) (bitsAt 4 w 14) (bitsAt 2 w 12)
    | 0x39 => .mtc e r21 (bitsAt 3 w 18) (bitsAt 4 w 14) (bitsAt 2 w 12)
    | _ => if op ≤ 8 then immAluOf e op w else memOf e op w

end Sys2Proof.Machine
end

