-- ==== Sys2Proof/Machine/Checks.lean ====
section
/-! DEFINITION. Check sums the spec names: CRC-32 of IEEE 802.3 and the
Internet checksum of RFC 1071. -/

namespace Sys2Proof.Machine

/-- One bit of a reflected CRC. -/
def crcBit (poly c : BitVec 32) : BitVec 32 :=
  if c.getLsbD 0 then (c >>> 1) ^^^ poly else c >>> 1

/-- One byte of a reflected CRC. -/
def crcByte (poly c : BitVec 32) (b : Byte) : BitVec 32 :=
  let step := crcBit poly
  step (step (step (step (step (step (step (step (c ^^^ b.zeroExtend 32))))))))

/-- A reflected CRC with preset and final complement. -/
def crcOf (poly : BitVec 32) (l : List Byte) : BitVec 32 :=
  ~~~ (l.foldl (crcByte poly) 0xFFFFFFFF#32)

/-- The CRC-32 `c` of a message continued by more bytes. -/
def crc32More (c : BitVec 32) (l : List Byte) : BitVec 32 :=
  ~~~ (l.foldl (crcByte 0xEDB88320#32) (~~~ c))

/-- The CRC-32 of IEEE 802.3 (polynomial 0x04C1_1DB7). -/
def crc32 (l : List Byte) : BitVec 32 := crcOf 0xEDB88320#32 l

/-- Sum of the 16-bit words of a list, most significant byte first, a last odd byte
padded with zero. -/
def wordSum (l : List Byte) : Nat :=
  match l with
  | [] => 0
  | [a] => a.toNat * 256
  | a :: b :: r => a.toNat * 256 + b.toNat + wordSum r

/-- Carries of a one's complement sum folded into 16 bits. -/
def foldCarry (n : Nat) : Nat :=
  let a := n % 65536 + n / 65536
  let b := a % 65536 + a / 65536
  b % 65536 + b / 65536

/-- The Internet checksum of a list (RFC 1071). -/
def inetSum (l : List Byte) : Nat := 65535 - foldCarry (wordSum l)

/-- `n` bytes of a list at `i`. -/
def slice (l : List Byte) (i n : Nat) : List Byte := (l.drop i).take n

/-- Checksum of a UDP datagram with its pseudo-header (RFC 768, RFC 8200). -/
def udpSum (src dst dgram : List Byte) : Nat :=
  inetSum (src ++ dst ++ beBytes 2 17 ++ beBytes 2 dgram.length ++ dgram)

/-- A PTP time in ns as an NTP timestamp: seconds from 1900 and a binary fraction. -/
def ntpStamp (ns : Int) : List Byte :=
  beBytes 4 ((ns / 1000000000 + 2208988800) % 4294967296).toNat
    ++ beBytes 4 ((ns % 1000000000) * 4294967296 / 1000000000).toNat

end Sys2Proof.Machine
end

