-- ==== Sys2Proof/Machine/Ethernet.lean ====
section
/-! DEFINITION. Ethernet ports (10_ethernet.md): link, receive and transmit paths,
flow control, preemption, gating and counters, with the PTP stamps of R44–R48. -/

namespace Sys2Proof.Machine

/-! ## Ports -/

/-- 10GBASE-R rather than 25GBASE-R. -/
def mac10g (s : State) (n : Nat) : Bool := bitOf (macReg s n offMacCtl) 19

/-- Code of MACn_STAT.VERIFY. -/
def verifyCode (v : Verify) : Nat :=
  match v with
  | .disabled => 0
  | .initial => 1
  | .verifying => 2
  | .succeeded => 3
  | .failed => 4

/-- A change of VERIFY with its event (R334). -/
def setVerify (s : State) (n : Nat) (v : Verify) : State :=
  let m := macGet s n
  if m.verify = v then s
  else macEvent (macPut s n { m with verify := v }) n 3 (verifyCode v + 8 * verifyCode m.verify) []

/-- MACn_PREEMPT.EN and VERIFY_DIS. -/
def preEn (s : State) (n : Nat) : Bool := bitOf (macReg s n offMacPreempt) 31
def preNoVerify (s : State) (n : Nat) : Bool := bitOf (macReg s n offMacPreempt) 30

/-- MACn_STAT.PREEMPT_ACTIVE (R334). -/
def preActive (s : State) (n : Nat) : Bool :=
  preEn s n && (macGet s n).link && (preNoVerify s n || (macGet s n).verify == .succeeded)

/-- Where verification stands when it begins or is not wanted (R334).
DEDUCED, log entry 62. -/
def verifyStart (s : State) (n : Nat) : State :=
  setVerify s n (if preEn s n && ! preNoVerify s n then (if (macGet s n).link then .initial else (macGet s n).verify)
    else .disabled)

/-- The priorities the partner pauses, as MACn_STAT.RXPAUSED. -/
def pausedMask (m : MacSt) : Nat :=
  ((List.range 8).map fun p => boolBit (smapGet 0 m.pause p != 0) p).sum

/-- The priorities the port is pausing, as MACn_STAT.XOFF. -/
def xoffMask (s : State) (n : Nat) : Nat :=
  if (macGet s n).xoff then macFld s n offMacPfc 23 16 else 0

/-- MACn_STAT. -/
def macStat (s : State) (n : Nat) : Word :=
  let m := macGet s n
  wordOf (boolBit m.link 31 + boolBit m.lock 30 + boolBit m.localFault 29 + boolBit m.remoteFault 28
    + boolBit m.gated 27 + verifyCode m.verify * 0x1000000 + boolBit (preActive s n) 23
    + pausedMask m * 0x100 + xoffMask s n)

/-! ## What a frame is -/

/-- Whether a frame has an 802.1Q tag. -/
def frameTagged (f : List Byte) : Bool := beAt f 12 2 == 0x8100

/-- Offset of the payload behind the Ethernet header. -/
def frameL3 (f : List Byte) : Nat := if frameTagged f then 18 else 14

/-- EtherType after at most one tag. -/
def frameType (f : List Byte) : Nat := beAt f (frameL3 f - 2) 2

/-- Offset of the UDP header of an IP frame that carries one. -/
def frameUdp (f : List Byte) : Option Nat :=
  let o := frameL3 f
  if frameType f = 0x0800 ∧ byteAt f (o + 9) = 17 then some (o + 4 * (byteAt f o % 16))
  else if frameType f = 0x86DD ∧ byteAt f (o + 6) = 17 then some (o + 40)
  else none

/-- A PTP message in a frame: the offset of its first byte, whether UDP carries it (R43, R337). -/
def framePtp (f : List Byte) : Option (Nat × Bool) :=
  if frameType f = 0x88F7 then some (frameL3 f, false)
  else
    match frameUdp f with
    | none => none
    | some u =>
      let d := beAt f (u + 2) 2
      if d = 319 ∨ d = 320 then some (u + 8, true) else none

/-- PTP messageType of a frame that carries a PTP event message (R43). -/
def ptpEvent (f : List Byte) : Option Nat :=
  match framePtp f with
  | none => none
  | some (o, _) =>
    if byteAt f o % 16 ≤ 3 then some (byteAt f o % 16) else none

/-- Whether port `n` stamps and delivers PTP (TIME_CTL.PTP_EN).
DEDUCED, log entry 47. -/
def ptpOn (s : State) (n : Nat) : Bool := decide (n < 4) && bitOf (csrGet s offTimeCtl) n

/-- A frame that passes a gated port (R337). -/
def passesGate (s : State) (n : Nat) (f : List Byte) : Bool :=
  let c := macReg s n offMacCtl
  let o := frameL3 f
  let nd := frameType f == 0x86DD && byteAt f (o + 6) == 58
    && (byteAt f (o + 40) == 135 || byteAt f (o + 40) == 136)
  (bitOf c 13 && (framePtp f).isSome) || (bitOf c 12 && (frameType f == 0x0806 || nd))

/-- Sixteenths of a ns in the unit of `nsUnit`. -/
def lat16 (x : Int) : Int := x * 805306368

/-! ## Frames that are not sent -/

/-- A frame discarded, its cells returned (R315). -/
def dropTx (s : State) (n c : Nat) (f : TxFrame) : State :=
  clearingCheck (f.items.foldl freeItem (macCount s n c 1))

/-- The counter under which a frame handed over or about to start is discarded, if it is
(R322, R325, R336, R340). -/
def txRefused (s : State) (n : Nat) (f : TxFrame) : Option Nat :=
  let m := macGet s n
  if macDown s n then some 20
  else if m.gated ∧ passesGate s n f.bytes = false then some 19
  else none

/-- The frame out of the queue of frames handed over. -/
def unqueue (l : List TxFrame) (f : TxFrame) : List TxFrame := l.erase f

/-- Every queued frame discarded that the port refuses now: at a loss of link, a stop or gating.
DEDUCED, log entry 169. -/
def flushTx (s : State) (n : Nat) : State :=
  (macGet s n).tx.foldl (fun s f =>
    match txRefused s n f with
    | some c => dropTx (macPut s n { macGet s n with tx := unqueue (macGet s n).tx f }) n c f
    | none => s) s

/-! ## Link -/

/-- The link event (R339). -/
def linkEvent (s : State) (n : Nat) : State :=
  let m := macGet s n
  macEvent s n 1 (boolBit m.link 0 + boolBit m.localFault 1 + boolBit m.remoteFault 2)
    (leBytes 4 (cntGet s (offMacCntLo + n * 0x10000 + 8 * 22)).toNat)

/-- A write of MACn_CTL: what R321 ignores, what MAC4 does not have, and the stop of a
port (R321, R336, R337). -/
def putMacCtl (s : State) (n : Nat) (v : Word) : State :=
  let old := macReg s n offMacCtl
  let keep : Word := if bitOf old 31 then 0x03380000#32 else 0
  let v1 := (v &&& ~~~ keep) ||| (old &&& keep)
  let v2 := if n = 4 then v1 &&& ~~~ 0x04003000#32 else v1
  let s1 := csrPut s (offMacCtl + n * 0x10000) (v2 &&& 0xFF3FF000#32)
  let s2 :=
    if bitOf old 31 && ! bitOf v 31 then
      let m := macGet s n
      let m1 := { m with link := false, lock := false, localFault := false, remoteFault := false,
                         cur := none, asm := none }
      let s2 := macPut s1 n m1
      let s3 :=
        match m.cur with
        | none => s2
        | some c => clearingCheck (c.frame.items.foldl freeItem (macCount s2 n 21 1))
      let s4 := if m.asm.isSome then macCount s3 n 6 1 else s3
      if m.link then linkEvent s4 n else s4
    else s1
  flushTx (if bitOf v2 26 = false ∧ (macGet s2 n).gated then
      macPut s2 n { macGet s2 n with gated := false, ungate := false }
    else s2) n

/-- Block lock gained, or faults gone with it (R321). -/
def execPcsBlockLock (n : Nat) (s : State) : Result :=
  let m := macGet s n
  .next (if n < 5 ∧ macEn s n ∧ (m.lock = false ∨ m.localFault ∨ m.remoteFault) then
    macPut s n { m with lock := true, localFault := false, remoteFault := false, lockSince := elapsed s.time }
  else s)

/-- DEDUCED, log entry 62. -/
def execLinkUp (n : Nat) (s : State) : Result :=
  let m := macGet s n
  .next (if n < 5 ∧ macEn s n ∧ m.link = false ∧ m.lock ∧ m.localFault = false ∧ m.remoteFault = false
      ∧ m.lockSince + 1000000 ≤ elapsed s.time then
    verifyStart (linkEvent (macPut s n { m with link := true }) n) n
  else s)

/-- Block lock lost, or a local or remote fault seen (R321). -/
def execLinkDown (n : Nat) (lost loc rem : Bool) (s : State) : Result :=
  let m := macGet s n
  .next (if n < 5 ∧ macEn s n ∧ (lost ∨ loc ∨ rem) then
    let s1 := macPut s n { m with link := false, lock := m.lock && ! lost, localFault := m.localFault || loc,
                                  remoteFault := m.remoteFault || rem, lockSince := elapsed s.time }
    flushTx (if m.link then linkEvent s1 n else s1) n
  else s)

/-! ## Receive -/

/-- MACn_MAXLEN as it acts (R340). -/
def maxLen (s : State) (n : Nat) : Nat := min 9600 (max 64 (macFld s n offMacMaxlen 13 0))

/-- The multicast table holds the address (R328). -/
def inMcast (s : State) (n : Nat) (d : List Byte) : Bool :=
  (List.range 16).any fun i =>
    let hi := csrGet s (offMacMcastHi + n * 0x10000 + 8 * i)
    let lo := csrGet s (offMacMcastLo + n * 0x10000 + 8 * i)
    bitOf hi 31 && (beBytes 2 (fld hi 15 0) ++ beBytes 4 lo.toNat == d)

/-- The address filter (R328). -/
def addrFilter (s : State) (n : Nat) (f : List Byte) : Bool :=
  let d := f.take 6
  let x := beNat d
  let reserved := x / 16 == 0x0180C200000 && x != 0x0180C200000E
  bitOf (macReg s n offMacCtl) 28
    || ((x == 0x011B19000000 || x == 0x0180C200000E) && ptpOn s n)
    || (! reserved &&
      (d == macAddr s n || x == 0xFFFFFFFFFFFF
        || (byteAt d 0 % 2 == 1 && bitOf (macReg s n offMacCtl) 27) || inMcast s n d))

/-- Bytes in a port's receive FIFO. -/
def rxFill (m : MacSt) : Nat := (m.rx.map fun f => f.bytes.length).sum

/-- The pause that a PFC frame sets for priority `p` (R332), with its end. -/
def pauseOne (s : State) (n : Nat) (f : List Byte) (m : MacSt) (p : Nat) : MacSt :=
  if (beAt f 16 2).testBit p then
    let t := beAt f (18 + 2 * p) 2
    let quantum := if mac10g s n then 5120 else 2048
    { m with pause := smapPut 0 m.pause p (if t = 0 then 0 else elapsed s.time * 100 + t * quantum) }
  else m

/-- A MAC control frame consumed (R326 step 4, R332). -/
def macControl (s : State) (n : Nat) (f : List Byte) : State :=
  if beAt f 14 2 = 0x0101 then
    let s1 := macCount s n 8 1
    if bitOf (macReg s n offMacPfc) 31 then
      macPut s1 n ((List.range 8).foldl (pauseOne s n f) (macGet s1 n))
    else s1
  else macCount s n 9 1

/-- The compensated stamp of an arrival at the NFN-time `nt` and PTP time `pt`, when the
timebase was not LOCKED if `unlocked` (R44, R47).
DEDUCED, log entry 47. -/
def rxStamp (s : State) (n : Nat) (f : List Byte) (trunc : Bool) (nt pt : Int) (unlocked : Bool) : RxFrame :=
  let sync := ptpOn s n && ptpEvent f == some 0
  let lat := if n < 4 then lat16 (csrFld s (offTimePortRxlat + 0x10 * n) 15 0) else 0
  let asym := if sync then lat16 (csrGet s (offTimePortAsym + 0x10 * n)).toInt else 0
  let d := lat + asym
  { bytes := f
    trunc := trunc
    ts := (((nt - d) / nsUnit) % 4294967296).toNat
    ptp := (pt - d) / nsUnit
    asym := sync
    unlocked := unlocked }

/-- Room for a frame of `n` bytes in a port's receive FIFO of 64 KiB (R329). -/
def rxRoom (m : MacSt) (n : Nat) : Bool := decide (rxFill m + n ≤ 65536)

/-- A frame that passes every step of R326 counted (R327). -/
def countRx (s : State) (n : Nat) (f : RxFrame) : State :=
  if f.trunc then macCount s n 4 1
  else macCount (macCount s n 0 1) n 1 (f.bytes.length + 4)

/-- Steps 1 to 6 and 8 of R326 for a whole frame `f` with its FCS, of which `sym` blocks
were errored, that began at the given times.  MAC4's frames take no cells: what passes is
handed to the mirror controller at once, and one that is off discards it.
DEDUCED, log entries 57, 65, 116. -/
def macTake (s : State) (n sym : Nat) (f : List Byte) (nt pt : Int) (unlocked : Bool) : State :=
  if 0 < sym then macCount s n 22 sym
  else if f.length < 64 then macCount s n 3 1
  else
    let long := decide (maxLen s n < f.length)
    let body := if long then f.take (maxLen s n - 4) else f.take (f.length - 4)
    if long = false ∧ leBytes 4 (crc32 body).toNat ≠ f.drop (f.length - 4) then macCount s n 2 1
    else if beAt f 12 2 = 0x8808 then macControl s n body
    else if addrFilter s n f = false then macCount s n 5 1
    else if rxRoom (macGet s n) body.length = false then macCount s n 6 1
    else
      let m := macGet s n
      let x := rxStamp s n body long nt pt unlocked
      if n = 4 then
        if beAt f 12 2 ≠ 0x88B5 then macCount s n 12 1
        else if bitOf (csrGet s offMirrCtl) 31 then countRx (macPut s n { m with rx := m.rx ++ [x] }) n x
        else countRx s n x
      else macPut s n { m with rx := m.rx ++ [x] }

/-- The frame at the head of port `n`'s FIFO taken out. -/
def takeRx (s : State) (n : Nat) : Option (RxFrame × State) :=
  let m := macGet s n
  match m.rx with
  | [] => none
  | f :: r => some (f, macPut s n { m with rx := r })

/-- The current NFN-time and PTP time in the unit of `nsUnit`. -/
def nowUnits (s : State) : Int × Int := (nfnUnits s.time, nfnUnits s.time + ofsNow s.time)

/-- A fragment or frame whose first octet arrives at the times `t` (R326, R334, R335).  A
fragment with errored blocks ends the frame being assembled.
DEDUCED, log entry 65. -/
def macArriveAt (s : State) (n : Nat) (kind : MPacket) (sym : Nat) (f : List Byte) (t : Int × Int)
    (unlocked : Bool) : State :=
  let m := macGet s n
  let frag := if sym = 0 then macCount s n 10 1 else macCount (macCount s n 10 1) n 22 sym
  match kind with
  | .whole => macTake s n sym f t.1 t.2 unlocked
  | .first =>
    let s1 := if m.asm.isSome then macCount frag n 11 1 else frag
    macPut s1 n { macGet s1 n with asm := if sym = 0 then some ⟨f, t.1, t.2, unlocked⟩ else none }
  | .mid =>
    match m.asm with
    | none => macCount frag n 11 1
    | some g =>
      macPut frag n { macGet frag n with asm := if sym = 0 then some { g with bytes := g.bytes ++ f } else none }
  | .last =>
    match m.asm with
    | none => macCount frag n 11 1
    | some g =>
      let s1 := macPut frag n { macGet frag n with asm := none }
      if sym = 0 then macTake s1 n 0 (g.bytes ++ f) g.nt g.pt g.unlocked else s1
  | .bad =>
    let s1 := macCount frag n 11 1
    macPut s1 n { macGet s1 n with asm := none }
  | .verify => if preEn s n then macPut s n { m with responds := m.responds + 1 } else s
  | .cut => s
  | .respond => if m.verify = .verifying then setVerify s n .succeeded else s

/-- A fragment or frame that arrives now. -/
def macArrive (s : State) (n : Nat) (kind : MPacket) (sym : Nat) (f : List Byte) : State :=
  macArriveAt s n kind sym f (nowUnits s) (s.time.mode != .locked)

/-- The port's FEC is active: clause 74, or RS-FEC at 25GBASE-R (R320). -/
def fecOn (s : State) (n : Nat) : Bool :=
  let f := macFld s n offMacCtl 21 20
  f == 1 || (f == 2 && ! mac10g s n)

/-- The bytes retransmitted by far-end loopback (R325). -/
def farEnd (s : State) (n : Nat) (f : List Byte) : State :=
  if macLoop s n = 2 then macPut s n { macGet s n with wire := f } else s

/-- A frame on the line: `sym` errored blocks, `corr` and `unc` FEC blocks corrected and
not correctable where FEC is active, and the octets from the destination address through the FCS (of a
fragment, without its mCRC).  In near-end loop the receiver does not hear the line.  MAC4 of a sleeping standby takes nothing (R450).  A frame cut off by
the clearing of EN counts RXOVF (R321).
DEDUCED, log entry 64. -/
def execMacFrameReceive (n : Nat) (kind : MPacket) (sym corr unc : Nat) (f : List Byte) (s : State) : Result :=
  .next (if n < 5 ∧ macEn s n ∧ (macGet s n).lock ∧ macLoop s n ≠ 1 ∧ ¬ (n = 4 ∧ s.mirr.asleep) then
    let s0 := farEnd s n f
    let s1 := if fecOn s n then macCount (macCount s0 n 23 corr) n 24 unc else s0
    if macRxEn s n then macArrive s1 n kind sym f else s1
  else if n < 5 ∧ kind = .cut ∧ ¬ macEn s n then macCount s n 6 1
  else s)

/-! ## Transmit -/

/-- Priority of a frame (R332). -/
def framePrio (s : State) (n : Nat) (f : List Byte) : Nat :=
  if frameTagged f then beAt f 14 2 / 0x2000 else macFld s n offMacCtl 18 16

/-- Which stream a frame belongs to (R333). -/
def isExpress (s : State) (n : Nat) (f : TxFrame) : Bool :=
  ! preEn s n || f.prio == 8 || (ptpEvent f.bytes).isSome
    || (if n = 4 then f.express else bitOf (macReg s n offMacPreempt) f.prio)

/-- A frame handed to port `n`: discarded at once where the port refuses it (R322, R331, R336). -/
def handTx (s : State) (n prio : Nat) (express : Bool) (items : List Item) (f : List Byte) : State :=
  let m := macGet s n
  let x : TxFrame := ⟨f, prio, express, elapsed s.time, items⟩
  match txRefused s n x with
  | some c => dropTx s n c x
  | none => macPut s n { m with tx := m.tx ++ [x] }

/-- A frame whose priority is paused (R332). -/
def isPaused (m : MacSt) (f : TxFrame) : Bool := smapGet 0 m.pause f.prio != 0

/-- The frame sent next: the oldest express frame that is not paused, else the oldest
preemptable one (R331–R333). -/
def nextTx (s : State) (n : Nat) : Option TxFrame :=
  let m := macGet s n
  let free := m.tx.filter fun f => ! isPaused m f
  match free.find? (isExpress s n) with
  | some f => some f
  | none => free.head?

/-- The frame as it crosses the line: padded to 60 bytes, with FCS (R331).
DEDUCED, log entry 63. -/
def onLine (f : List Byte) : List Byte :=
  let p := f ++ zeros (60 - f.length)
  p ++ leBytes 4 (crc32 p).toNat

/-- The egress stamp of a Delay_Req on MAC0 as the PTP slave of reflector mode notes it (R509). -/
def noteDelayReq (s : State) (n t seq : Nat) (at_ : Int) : State :=
  match s.dev.refl with
  | none => s
  | some r =>
    if n = 0 ∧ t = 1 ∧ seq = r.ptp.req then
      { s with dev := { s.dev with refl := some { r with ptp := { r.ptp with sent := some at_ } } } }
    else s

/-- The egress stamp event of a PTP event message (R44, R48, R66).
DEDUCED, log entry 47. -/
def egressStamp (s : State) (n : Nat) (f : List Byte) : State :=
  match ptpEvent f, framePtp f with
  | some t, some (o, _) =>
    if ptpOn s n then
      let asym := if t = 1 then lat16 (csrGet s (offTimePortAsym + 0x10 * n)).toInt else 0
      let at_ := ((nowUnits s).2 + lat16 (csrFld s (offTimePortTxlat + 0x10 * n) 15 0) - asym) / nsUnit
      raise0 (noteDelayReq s n t (beAt f (o + 30) 2) at_) 0x02 5 (modeCode s.time.mode)
        (leBytes 4 (at_ % 1000000000).toNat ++ leBytes 6 (at_ / 1000000000).toNat ++ leBytes 1 n
          ++ leBytes 1 t ++ leBytes 2 (beAt f (o + 30) 2) ++ leBytes 1 (byteAt f (o + 4)))
    else s
  | _, _ => s

/-- A frame of reflector mode that leaves MAC0: a TWAMP reply takes its send timestamp, with TXLAT, and the
checksum of its datagram as it crosses (R44, R510). -/
def stampTwamp (s : State) (n : Nat) (f : TxFrame) : TxFrame :=
  let b := f.bytes
  if s.dev.refl.isSome ∧ n = 0 ∧ beAt b 12 2 = 0x0800 ∧ byteAt b 14 = 0x45 ∧ byteAt b 23 = 17 ∧ beAt b 34 2 = 862 then
    let at_ := ((nowUnits s).2 + lat16 (csrFld s offTimePortTxlat 15 0)) / nsUnit
    let d := putBytes (putBytes (b.drop 34) 6 (zeros 2)) 12 (ntpStamp at_)
    let c := udpSum (slice b 26 4) (slice b 30 4) d
    { f with bytes := b.take 34 ++ putBytes d 6 (beBytes 2 (if c = 0 then 65535 else c)) }
  else f

/-- What returns in near-end loop of a frame that has left: the whole of it, or its last
fragment (R325). -/
def loopBack (s : State) (n : Nat) (c : TxCur) : State :=
  if macRxEn s n then
    macArriveAt s n (if c.cut then .last else .whole) 0 ((onLine c.frame.bytes).drop c.start) (c.nt, c.pt) c.unlocked
  else s

/-- A frame whose last octet has left (R331, R315, R325).
DEDUCED, log entry 63. -/
def sentTx (s : State) (n : Nat) (c : TxCur) : State :=
  let f := c.frame
  let w := onLine f.bytes
  let s1 := macCount (macCount s n 13 1) n 14 w.length
  let s2 := if f.prio = 8 then macCount s1 n 15 1 else s1
  let s3 := clearingCheck (f.items.foldl freeItem s2)
  if macLoop s n = 1 then loopBack s3 n c
  else macPut s3 n { macGet s3 n with wire := w }

/-- The frame in flight when the transmitter has begun it now. -/
def txCur (s : State) (f : TxFrame) : TxCur :=
  ⟨f, 0, false, 0, (nowUnits s).1, (nowUnits s).2, s.time.mode != .locked⟩

/-- A frame started: discarded, or in flight, with its egress stamp. -/
def startTx (s : State) (n : Nat) (f : TxFrame) : State :=
  let m := macGet s n
  let s1 := macPut s n { m with tx := unqueue m.tx f }
  match txRefused s n f with
  | some c => dropTx s1 n c f
  | none => egressStamp (macPut s1 n { macGet s1 n with cur := some (txCur s (stampTwamp s n f)) }) n f.bytes

/-- Octets a frame occupies on the line. -/
def lineLen (f : TxFrame) : Nat := max 60 f.bytes.length + 4

/-- Whether an express frame may cut the frame in flight (R335); a frame that gating lets
through is sent whole (R337).
DESIGN CHOICE, log entry 61. -/
def mayCut (s : State) (n : Nat) (c : TxCur) : Bool :=
  preActive s n && ! isExpress s n c.frame && ! ((macGet s n).gated && passesGate s n c.frame.bytes)
    && decide (64 * (1 + macFld s n offMacPreempt 25 24) ≤ c.sent - c.start + 4)
    && decide (c.sent + 64 ≤ lineLen c.frame)

/-- The express frame that waits, if any. -/
def expressWaits (s : State) (n : Nat) : Option TxFrame :=
  let m := macGet s n
  m.tx.find? fun f => isExpress s n f && ! isPaused m f

/-- The frame in flight cut, and the express frame sent whole (R335); in near-end loop both
come back (R325). -/
def preempt (s : State) (n : Nat) (c : TxCur) (x : TxFrame) : State :=
  let s1 := if c.cut then s else macCount s n 17 1
  let s2 := macCount s1 n 16 1
  let m := macGet s2 n
  let s3 := macPut s2 n { m with cur := some { c with cut := true, start := c.sent }, tx := unqueue m.tx x }
  let s4 := if macLoop s n = 1 ∧ macRxEn s n then
      macArriveAt s3 n (if c.cut then .mid else .first) 0
        (((onLine c.frame.bytes).take c.sent).drop c.start) (c.nt, c.pt) c.unlocked
    else s3
  match txRefused s4 n x with
  | some k => dropTx s4 n k x
  | none => sentTx (egressStamp s4 n x.bytes) n (txCur s4 (stampTwamp s4 n x))

/-- The transmitter of port `n` goes on until the frame's last octet has left, or until
`part` octets have (`part` 0: the whole frame).
DESIGN CHOICE, log entry 61. -/
def execMacFrameTransmit (n part : Nat) (s : State) : Result :=
  .next (if 5 ≤ n then s
  else
    let go := fun (s : State) (c : TxCur) =>
      if part = 0 ∨ lineLen c.frame ≤ part then
        let s1 := if c.cut then macCount s n 16 1 else s
        sentTx (macPut s1 n { macGet s1 n with cur := none }) n c
      else macPut s n { macGet s n with cur := some { c with sent := max c.sent part } }
    match (macGet s n).cur with
    | some c =>
      match expressWaits s n with
      | some x => if mayCut s n c then preempt s n c x else go s c
      | none => go s c
    | none =>
      match nextTx s n with
      | none => s
      | some f =>
        let s1 := startTx s n f
        match (macGet s1 n).cur with
        | none => s1
        | some c => go s1 c)

/-! ## Flow control (R332) -/

def execPfcPauseExpire (n p : Nat) (s : State) : Result :=
  let m := macGet s n
  .next (if smapGet 0 m.pause p ≠ 0 ∧ smapGet 0 m.pause p ≤ elapsed s.time * 100 then
    macPut s n { m with pause := smapPut 0 m.pause p 0 }
  else s)

/-- MACn_PFC_HOLD in ns. -/
def holdNs (s : State) (n : Nat) : Nat := max 1 (macFld s n offMacPfcHold 15 0) * 1000

def execPfcHoldDiscard (n : Nat) (s : State) : Result :=
  let m := macGet s n
  .next (match m.tx.find? fun f => isPaused m f && decide (f.since + holdNs s n ≤ elapsed s.time) with
    | none => s
    | some f => dropTx (macPut s n { m with tx := unqueue m.tx f }) n 18 f)

/-- The PFC frame of port `n` with a time for each priority of TXMASK. -/
def pfcFrame (s : State) (n time : Nat) : List Byte :=
  let mask := macFld s n offMacPfc 23 16
  beBytes 6 0x0180C2000001 ++ macAddr s n ++ beBytes 2 0x8808 ++ beBytes 2 0x0101 ++ beBytes 2 mask
    ++ (List.range 8).flatMap fun p => beBytes 2 (if mask.testBit p then time else 0)

/-- A PFC frame handed over, unless the port is gated (R336). -/
def sendPfc (s : State) (n time : Nat) : State :=
  let m := macGet s n
  let s1 := macPut s n { m with pfcAt := elapsed s.time }
  if m.gated then s1 else handTx s1 n 8 true [] (pfcFrame s n time)

/-- MACn_PFC.QUANTA as it acts. -/
def quanta (s : State) (n : Nat) : Nat := max 1 (macFld s n offMacPfc 15 0)

/-- XOFF and XON thresholds in bytes (R340). -/
def xoffAt (s : State) (n : Nat) : Nat := min 1024 (macFld s n offMacPfcThr 10 0) * 64
def xonAt (s : State) (n : Nat) : Nat := min (macFld s n offMacPfcThr 26 16 * 64) (xoffAt s n)

/-- The clearing stands below QMGR_CLR_LOWEV.THR. -/
def clearingLow (s : State) : Bool := decide (freeCells s < csrFld s offQmgrClrLowev 18 0)

/-- The condition for XOFF. -/
def wantXoff (s : State) (n : Nat) : Bool :=
  decide (xoffAt s n ≤ rxFill (macGet s n)) || clearingLow s

/-- The PFC state event (R339). -/
def pfcEvent (s : State) (n : Nat) : State :=
  macEvent s n 4 (xoffMask s n) (leBytes 4 (rxFill (macGet s n)) ++ leBytes 4 (freeCells s))

def execPfcXoff (n : Nat) (s : State) : Result :=
  let m := macGet s n
  .next (if n < 5 ∧ bitOf (macReg s n offMacPfc) 30 ∧ m.xoff = false ∧ wantXoff s n then
    pfcEvent (sendPfc (macPut s n { m with xoff := true }) n (quanta s n)) n
  else s)

def execPfcRepeat (n : Nat) (s : State) : Result :=
  let m := macGet s n
  let quantum := if mac10g s n then 5120 else 2048
  .next (if n < 5 ∧ m.xoff ∧ m.pfcAt * 200 + quanta s n * quantum ≤ elapsed s.time * 200 then
    sendPfc s n (quanta s n)
  else s)

def execPfcXon (n : Nat) (s : State) : Result :=
  let m := macGet s n
  .next (if n < 5 ∧ m.xoff ∧ rxFill m ≤ xonAt s n ∧ clearingLow s = false ∧ wantXoff s n = false then
    pfcEvent (sendPfc (macPut s n { m with xoff := false }) n 0) n
  else s)

/-! ## Preemption and gating -/

/-- A write of MACn_PREEMPT (R334).
DEDUCED, log entry 62. -/
def writePreempt (s : State) (n : Nat) (v : Word) : State :=
  let o := offMacPreempt + n * 0x10000
  let old := csrGet s o
  let s1 := csrPut s o (v &&& 0xC3FF00FF#32)
  if fld old 31 30 = fld (csrGet s1 o) 31 30 then s1 else verifyStart s1 n

/-- MACn_PREEMPT.VTIME in ns. -/
def vtimeNs (s : State) (n : Nat) : Nat := min 128 (max 1 (macFld s n offMacPreempt 23 16)) * 1000000

/-- A verify frame sent; in near-end loop it comes back, and so does the answer to it (R325,
R334). -/
def sentVerify (s : State) (n : Nat) : State :=
  if macLoop s n = 1 ∧ macRxEn s n then macArrive (macArrive s n .verify 0 []) n .respond 0 [] else s

def execPreemptVerify (n : Nat) (s : State) : Result :=
  let m := macGet s n
  .next (if n < 5 ∧ preEn s n ∧ m.link then
    match m.verify with
    | .initial => sentVerify (setVerify (macPut s n { m with vSent := 1, vAt := elapsed s.time }) n .verifying) n
    | .verifying =>
      if m.vAt + vtimeNs s n ≤ elapsed s.time then
        if m.vSent < 3 then sentVerify (macPut s n { m with vSent := m.vSent + 1, vAt := elapsed s.time }) n
        else setVerify s n .failed
      else s
    | _ => s
  else s)

/-- The gating of port `n`: a frame in flight that gating does not let through is cut off (R336). -/
def gateNow (s : State) (n : Nat) : State :=
  if bitOf (macReg s n offMacCtl) 26 && decide (n < 4) then
    let m := macGet s n
    match m.cur with
    | none => macPut s n { m with gated := true, ungate := false }
    | some c =>
      if passesGate s n c.frame.bytes then macPut s n { m with gated := true, ungate := false }
      else dropTx (macPut s n { m with gated := true, ungate := false, cur := none }) n 21 c.frame
  else s

/-- The mirror controller gates port `n` (R336): what waits is discarded as well.
DEDUCED, log entry 169. -/
def macGate (s : State) (n : Nat) : State := flushTx (gateNow s n) n

/-- Whether the mirror controller gates trunk ports: EN with a role that is not ACTIVE (R442). -/
def mirrGates (s : State) : Bool := mirrEn s && ! mirrActive s

/-- A write of MACn_CTL, and the gating of a port whose PAIR_GATE it set (R336); MAC1 to MAC4 stay
disabled in reflector mode (R508). -/
def writeMacCtl (s : State) (n : Nat) (v : Word) : State :=
  let s1 := putMacCtl s n (if s.dev.refl.isSome && decide (1 ≤ n) then setBit v 31 false else v)
  if mirrGates s1 && ! (macGet s1 n).gated then macGate s1 n else s1

def execMacEnable (n : Nat) (v : Word) (s : State) : Result :=
  .next (if n < 5 then writeMacCtl s n (setBit v 31 true) else s)

def execMacDisable (n : Nat) (v : Word) (s : State) : Result :=
  .next (if n < 5 then writeMacCtl s n (setBit v 31 false) else s)

/-- The mirror controller ungates port `n`, from the next frame boundary on (R336). -/
def macUngate (s : State) (n : Nat) : State :=
  let m := macGet s n
  if m.gated then macPut s n { m with ungate := true } else s

def execMacUngate (n : Nat) (s : State) : Result :=
  let m := macGet s n
  .next (if m.ungate ∧ m.cur.isNone then macPut s n { m with gated := false, ungate := false } else s)

/-! ## Counters -/

/-- A read of a counter's low word (R338). -/
def readMacCounter (s : State) (n c : Nat) : Word × State :=
  let o := offMacCntLo + n * 0x10000 + 8 * c
  let v := (cntGet s o).toNat
  (wordOf v, csrPut { s with cnt := smapPut 0 s.cnt o 0 } (o + 4) (wordOf (v / 4294967296)))

def execMacCounterRead (n c : Nat) (s : State) : Result :=
  .next (if n < 5 ∧ c < 25 then
    let r := readMacCounter s n c
    answer r.2 r.1
  else s)

end Sys2Proof.Machine
end

