-- ==== Sys2Proof/Machine/Packet.lean ====
section
/-! DEFINITION. The packet engine of 09_queues_packet_engine.md: classification and
delivery (R305–R309, R313), departures (R310–R315), and the flow and template tables
(R302–R304, R316, R318). -/

namespace Sys2Proof.Machine

/-! ## Tables -/

/-- Flow entry `i` replaced. -/
def flowPut (s : State) (i : Nat) (f : List Byte) : State :=
  { s with pkt := { s.pkt with flow := smapPut (zeros 16) s.pkt.flow i f
                               flowBad := smapPut false s.pkt.flowBad i false } }

/-- Header template `i`, zero where it is invalid by an error (R304, R316). -/
def tmplBytes (s : State) (i : Nat) : List Byte :=
  if smapGet false s.pkt.tmplBad i then zeros 64 else smapGet (zeros 64) s.pkt.tmpl i

/-- Fields of a flow entry (R303). -/
def fPort (f : List Byte) : Nat := byteAt f 1 % 4
def fV6 (f : List Byte) : Bool := (byteAt f 1).testBit 2
def fTagged (f : List Byte) : Bool := (byteAt f 1).testBit 3
def fVid (f : List Byte) : Nat := leAt f 2 2 % 4096
def fPcp (f : List Byte) : Nat := leAt f 2 2 / 4096 % 8
def fLport (f : List Byte) : Nat := leAt f 4 2
def fRport (f : List Byte) : Nat := leAt f 6 2
def fTmpl (f : List Byte) : Nat := leAt f 8 2
def fLeg (f : List Byte) : Nat := byteAt f 0 / 16 % 2
def fChksrc (f : List Byte) : Bool := (byteAt f 0).testBit 5
def fRtcp (f : List Byte) : Bool := (byteAt f 0).testBit 6
def fMux (f : List Byte) : Bool := (byteAt f 0).testBit 7

/-- Types that have a receive key (R305). -/
def isKeyed (f : List Byte) : Bool :=
  flowType f == 1 || flowType f == 2 || flowType f == 4 || flowType f == 6

/-- A receive key: port, tagged, VID, IPv6, local port (R305). -/
structure FlowKey where
  port : Nat
  tagged : Bool
  vid : Nat
  v6 : Bool
  lport : Nat
  deriving DecidableEq, Repr

/-- The receive keys of an entry (R305). -/
def flowKeys (f : List Byte) : List FlowKey :=
  if isKeyed f then
    let k : FlowKey := ⟨fPort f, fTagged f, fVid f, fV6 f, fLport f⟩
    if flowType f = 1 ∧ fRtcp f ∧ fMux f = false then [k, { k with lport := fLport f + 1 }] else [k]
  else []

/-- The entry that a key matches. -/
def findFlow (s : State) (k : FlowKey) : Option Nat :=
  (s.pkt.flow.find? fun e => (flowKeys (flowBytes s e.1)).contains k).map fun e => e.1

/-- A template is usable (R304).
DEDUCED, log entry 55. -/
def tmplUsable (t : List Byte) : Bool :=
  let tagged := (byteAt t 59).testBit 1
  byteAt t 58 == 14 + 4 * tagged.toNat + (if (byteAt t 59).testBit 0 then 40 else 20)

/-- The source IDs of the block's items and events. -/
def pktSrc : Nat := 0x07

/-- A drop counted under reason `r` (R318). -/
def drop (s : State) (r : Nat) : State := bump s (offPktDrop + 8 * r)

/-- The 16-byte prefix of a packet item (R307). -/
def pktPrefix (flow kind flags dep : Nat) (rest : List Byte) : List Byte :=
  leBytes 2 flow ++ leBytes 1 kind ++ leBytes 1 flags ++ leBytes 4 dep ++ padTo 8 rest

/-! ## Parsing (R305 steps 1 to 4) -/

/-- A frame that carries a good UDP datagram. -/
structure Udp where
  tagged : Bool
  vid : Nat
  v6 : Bool
  src : List Byte
  sport : Nat
  dport : Nat
  body : List Byte
  deriving DecidableEq, Repr

/-- Outcome of the first four steps. -/
inductive Parsed where
  /-- Dropped under `reason`; `miss` says that PKT_MISSQ may get it. -/
  | drop (reason : Nat) (miss : Bool)
  | udp (u : Udp)
  deriving DecidableEq, Repr

/-- Step 4 on the IP payload `p`. -/
def parseUdp (tagged : Bool) (vid : Nat) (v6 : Bool) (src dst p : List Byte) : Parsed :=
  let len := beAt p 4 2
  let d := p.take len
  let good := decide (8 ≤ p.length) && decide (8 ≤ len) && decide (len ≤ p.length)
    && (if beAt p 6 2 = 0 then ! v6 else udpSum src dst d == 0)
  if good then .udp ⟨tagged, vid, v6, src, beAt p 0 2, beAt p 2 2, d.drop 8⟩ else .drop 3 false

/-- Steps 1 to 4 of R305. -/
def parseFrame (f : List Byte) : Parsed :=
  let tagged := frameTagged f
  let vid := if tagged then beAt f 14 2 % 4096 else 0
  let ip := f.drop (frameL3 f)
  if frameType f = 0x0800 then
    let total := beAt ip 2 2
    let ok := decide (20 ≤ ip.length) && byteAt ip 0 == 0x45 && beAt ip 6 2 % 16384 == 0
      && inetSum (ip.take 20) == 0 && decide (20 ≤ total) && decide (total ≤ ip.length)
    if ok = false then .drop 1 true
    else if byteAt ip 9 ≠ 17 then .drop 4 true
    else parseUdp tagged vid false (slice ip 12 4) (slice ip 16 4) (slice ip 20 (total - 20))
  else if frameType f = 0x86DD then
    let plen := beAt ip 4 2
    let ok := decide (40 ≤ ip.length) && byteAt ip 0 / 16 == 6 && decide (plen + 40 ≤ ip.length)
      && byteAt ip 6 == 17
    if ok = false then .drop 2 true
    else parseUdp tagged vid true (slice ip 8 16) (slice ip 24 16) (slice ip 40 plen)
  else .drop 0 true

/-- The destination address of a template (R304, R305). -/
def tmplDst (t : List Byte) : List Byte :=
  let o := if (byteAt t 59).testBit 1 then 18 else 14
  if (byteAt t 59).testBit 0 then slice t (o + 24) 16 else slice t (o + 16) 4

/-- The source check of step 5.
DEDUCED, log entry 58. -/
def srcOk (s : State) (f : List Byte) (u : Udp) : Bool :=
  ! fChksrc f ||
    (u.src == tmplDst (tmplBytes s (fTmpl f)) && (fRport f == 0 || fRport f == u.sport))

/-! ## Delivery -/

/-- Items to push: queue and bytes, SRTP packets for the cipher engine, and the drops to
count on the way. -/
inductive Deliver where
  | item (q : Nat) (bs : List Byte)
  | secure (chan leg : Nat) (bs : List Byte)
  | drop (r : Nat)
  deriving DecidableEq, Repr

/-- The deliveries carried out, or none when the clearing has too few cells (R329). -/
def deliverAll (stamp flags : Nat) (l : List Deliver) (s : State) : Option State :=
  match l with
  | [] => some s
  | .drop r :: rest => deliverAll stamp flags rest (drop s r)
  | .secure ch leg bs :: rest =>
    match buildItem s stamp flags bs with
    | none => none
    | some (i, s1) =>
      deliverAll stamp flags rest
        (clearingCheck { s1 with pkt := { s1.pkt with secure := s1.pkt.secure ++ [⟨ch, leg, i⟩] } })
  | .item q bs :: rest =>
    match pushBytes s q pktSrc stamp flags bs with
    | none => none
    | some s1 => deliverAll stamp flags rest s1

/-- A delivery to PKT_MISSQ, when MISS_EN is 1 (R305, R307). -/
def missDeliver (s : State) (n flow : Nat) (f : RxFrame) : List Deliver :=
  if bitOf (csrGet s offPktCtl) 8 then
    [.item (csrFld s offPktMissq 15 0)
      (pktPrefix flow 3 (boolBit f.trunc 2) 0 (leBytes 1 n) ++ f.bytes)]
  else []

/-- Whether a UDP payload on an RTP entry is RTCP (R308). -/
def isRtcp (f : List Byte) (u : Udp) : Bool :=
  fRtcp f && (if fMux f then decide (200 ≤ byteAt u.body 1) && decide (byteAt u.body 1 ≤ 204)
    else u.dport == fLport f + 1)

/-- The RTP header fits the payload (R308). -/
def rtpFits (b : List Byte) : Bool :=
  let cc := byteAt b 0 % 16
  let fixed := 12 + 4 * cc
  let ext := if (byteAt b 0).testBit 4 then 4 + 4 * beAt b (fixed + 2) 2 else 0
  decide (12 ≤ b.length) && decide (fixed ≤ b.length)
    && (! (byteAt b 0).testBit 4 || decide (fixed + 4 ≤ b.length)) && decide (fixed + ext ≤ b.length)

/-- The queue of a channel's leg: 0 trunk-to-access, 1 access-to-trunk (R253, R306). -/
def legQueue (b : Binding) (leg : Nat) : Nat := if leg = 0 then b.qTrunk else b.qAccess

/-- The binding of an ACTIVE channel. -/
def activeBind (s : State) (n : Nat) : Option Binding := if chanActive s n then bindGet s n else none

/-- What a classified frame leads to. -/
structure Verdict where
  s : State
  out : List Deliver
  deriving DecidableEq, Repr

/-- R308: RTP and RTCP of entry `i`.
DEDUCED, log entry 58. -/
def classRtp (s : State) (i : Nat) (f : List Byte) (u : Udp) : Verdict :=
  let b := u.body
  let pt := byteAt b 1 % 128
  let sidpt := byteAt f 13 % 128
  let sid := sidpt != 0 && pt == sidpt
  if isRtcp f u then
    if bitOf (csrGet s offPktCtl) 9 then
      ⟨s, [.item (csrFld s offPktRtcpq 15 0) (pktPrefix i 0 0 0 [] ++ b)]⟩
    else ⟨bump s offPktRtcpdisc, []⟩
  else if byteAt b 0 / 64 ≠ 2 ∨ rtpFits b = false ∨ (pt ≠ byteAt f 12 % 128 ∧ sid = false) then
    ⟨s, [.drop 6]⟩
  else
    match activeBind s (flowChan f) with
    | none => ⟨s, [.drop 14]⟩
    | some bd =>
      if (bd.srtp = 1 ∧ fLeg f = 0) ∨ (bd.srtp = 2 ∧ fLeg f = 1) then
        ⟨s, [.secure (flowChan f) (fLeg f) (pktPrefix i 0 (boolBit sid 1) 0 [] ++ b)]⟩
      else ⟨s, [.item (legQueue bd (fLeg f)) (pktPrefix i 0 (boolBit sid 1) 0 [] ++ b)]⟩

/-- Bytes of timeslot `t` out of frames of `nts` bytes. -/
def slotBytes (nts t : Nat) (data : List Byte) : List Byte :=
  (chunks nts data).map fun fr => fr.getD t 0

/-- One timeslot share of a CESoPSN packet (R309). -/
def cesShare (s : State) (p nts seq : Nat) (data : List Byte) (t : Nat) : Deliver :=
  let m := flowBytes s (p + 1 + t)
  match (if flowType m = 3 then activeBind s (flowChan m) else none) with
  | none => .drop 14
  | some bd =>
    .item bd.qAccess (pktPrefix (p + 1 + t) 1 0 0 (leBytes 2 seq ++ leBytes 1 t) ++ slotBytes nts t data)

/-- R309: a CESoPSN packet of pseudowire `p`. -/
def classPw (s : State) (p : Nat) (f : List Byte) (u : Udp) : Verdict :=
  let nts := byteAt f 10
  let b := if (byteAt f 14).testBit 0 then u.body.drop 12 else u.body
  let cw := beAt b 0 4
  let data := b.drop 4
  if b.length < 4 ∨ cw / 0x400000 % 4 ≠ 0 ∨ data.length ≠ nts * 40 * byteAt f 11 then ⟨s, [.drop 7]⟩
  else
    let s1 := if cw.testBit 26 then bump s offPktCesrrx else s
    let s2 := { s1 with pkt := { s1.pkt with cesRx := smapPut 0 s1.pkt.cesRx p (nfnOf s + 1) } }
    if cw.testBit 27 then ⟨s2, [.drop 8]⟩
    else ⟨s2, (List.range nts).map (cesShare s2 p nts (cw % 65536) data)⟩

/-- A member of a bundle datagram: its SID flag, LAG, TAG and frame, and the rest; none
when it is truncated (R311). -/
def memberParse (s : State) (base ntag : Nat) (l : List Byte) :
    Option (Bool × Nat × Nat × List Byte × List Byte) :=
  let tag := beAt l 0 2
  let t := tag % 8192
  let sid := tag.testBit 15
  let m := flowBytes s (base + t)
  if l.length < 2 ∨ ntag ≤ t ∨ flowType m ≠ 5 then none
  else
    let hd := if sid then 3 else 2
    let len := if sid then byteAt l 2 else byteAt m 12
    if l.length < hd + len then none
    else some (sid, tag / 8192 % 4, t, slice l hd len, l.drop (hd + len))

/-- R313 steps 4 and 5: up to `count` members of the data `l`. -/
def members (s : State) (base ntag : Nat) (dnfn : Int) (count : Nat) (l : List Byte) : List Deliver :=
  match count with
  | 0 => if l.isEmpty then [] else [.drop 10]
  | n + 1 =>
    match memberParse s base ntag l with
    | none => [.drop 10]
    | some (sid, lag, t, fr, rest) =>
      let m := flowBytes s (base + t)
      let start := dnfn - 40 * lag - 12 - 40 * ((byteAt m 13 % 16 : Int) - 1)
      let one : Deliver :=
        match activeBind s (flowChan m) with
        | none => .drop 14
        | some bd =>
          .item bd.qTrunk
            (pktPrefix (base + t) 2 (boolBit sid 1) 0 (leBytes 8 (BitVec.ofInt 64 start).toNat) ++ fr)
      one :: members s base ntag dnfn n rest

/-- R313: a bundle datagram of entry `i`. -/
def classBundle (s : State) (i : Nat) (f : List Byte) (u : Udp) : Verdict :=
  let b := u.body
  let bseq := beAt b 2 2
  let epoch := beAt b 8 4
  let plen := beAt b 12 2
  let bad := decide (b.length < 16) || byteAt b 0 != 0x10 || byteAt b 1 == 0 || decide (1400 < plen)
    || b.length != 16 + plen || beAt b 14 2 != 0
  let top := smapGet 0 s.pkt.bunEpoch i
  let rec_ := if top < epoch then [] else smapGet [] s.pkt.bunRec i
  if bad then ⟨s, [.drop 9]⟩
  else if epoch < top ∨ rec_.contains bseq then ⟨s, [.drop 11]⟩
  else
    let s1 := { s with pkt := { s.pkt with
      bunEpoch := smapPut 0 s.pkt.bunEpoch i epoch
      bunRec := smapPut [] s.pkt.bunRec i ((bseq :: rec_).take 64) } }
    ⟨s1, members s1 (leAt f 10 2) (leAt f 12 2) (extend32 (nfnOf s) (beAt b 4 4)) (byteAt b 1) (b.drop 16)⟩

/-- The item of the PTP queue (R47). -/
def ptpItem (n : Nat) (f : RxFrame) : List Byte :=
  leBytes 4 (f.ptp % 1000000000).toNat ++ leBytes 6 (BitVec.ofInt 48 (f.ptp / 1000000000)).toNat
    ++ leBytes 1 n ++ leBytes 1 (boolBit f.asym 0 + boolBit f.unlocked 1) ++ leBytes 4 f.ts ++ f.bytes

/-- Whether a frame goes to the PTP queue (R47). -/
def toPtpq (s : State) (n : Nat) (f : RxFrame) : Bool :=
  ptpOn s n && bitOf (csrGet s offTimePtpq) 31 && ! f.trunc &&
    (match framePtp f.bytes, parseFrame f.bytes with
     | some (_, false), _ => true
     | some (_, true), .udp _ => bitOf (csrGet s offTimeCtl) 8
     | _, _ => false)

/-- Classification of a frame of port `n` (R305). -/
def classify (s : State) (n : Nat) (f : RxFrame) : Verdict :=
  if f.trunc then ⟨s, .drop 0 :: missDeliver s n 0xFFFF f⟩
  else if toPtpq s n f then ⟨s, [.item (csrFld s offTimePtpq 15 0) (ptpItem n f)]⟩
  else
    match parseFrame f.bytes with
    | .drop r miss => ⟨s, .drop r :: (if miss then missDeliver s n 0xFFFF f else [])⟩
    | .udp u =>
      match findFlow s ⟨n, u.tagged, u.vid, u.v6, u.dport⟩ with
      | none => ⟨s, .drop 4 :: missDeliver s n 0xFFFF f⟩
      | some i =>
        let e := flowBytes s i
        if srcOk s e u = false then ⟨s, .drop 5 :: missDeliver s n i f⟩
        else
          match flowType e with
          | 1 => classRtp s i e u
          | 2 => classPw s i e u
          | 4 => classBundle s i e u
          | _ => ⟨s, [.item (flowChan e) (pktPrefix i 0 0 0 [] ++ u.body)]⟩

/-- Cells that a frame takes behind a 16-byte prefix. -/
def frameCells (f : RxFrame) : Nat := (f.bytes.length + 127) / 112

/-- The frame at the head of port `n`'s FIFO taken, classified and delivered, or dropped
whole when the clearing has too few cells (R305, R329).
DEDUCED, log entries 56, 57. -/
def pktReceive (s : State) (n : Nat) : State :=
  match takeRx s n with
  | none => s
  | some (f, s1) =>
    let dry := drop (macCount s1 n 7 1) 12
    if freeCells s1 < frameCells f then dry
    else
      let v := classify (bump (countRx s1 n f) offPktRxpkt) n f
      match deliverAll f.ts (boolBit f.trunc 0) v.out v.s with
      | none => dry
      | some s2 => s2

/-- A frame received by port `n`; the packet engine waits while 512 packets wait at the
cipher engine (R352). -/
def execPktReceive (n : Nat) (s : State) : Result :=
  .next (if n < 4 ∧ s.pkt.secure.length < 512 then pktReceive s n else s)

/-! ## Frames to send (R304) -/

/-- The UDP datagram of a flow's ports with its checksum. -/
def udpBuild (src dst : List Byte) (f payload : List Byte) : List Byte :=
  let len := beBytes 2 (payload.length + 8)
  let ports := beBytes 2 (fLport f) ++ beBytes 2 (fRport f)
  let c := udpSum src dst (ports ++ len ++ zeros 2 ++ payload)
  ports ++ len ++ beBytes 2 (if c = 0 then 65535 else c) ++ payload

/-- The frame that carries `payload` under flow `f`, or none when its template is not
usable (R304).
DEDUCED, log entry 55. -/
def frameBuild (s : State) (f payload : List Byte) : Option (List Byte) :=
  let t := tmplBytes s (fTmpl f)
  if tmplUsable t = false then none
  else
    let o := if (byteAt t 59).testBit 1 then 18 else 14
    let h := t.take (byteAt t 58)
    if (byteAt t 59).testBit 0 then
      let d := udpBuild (slice h (o + 8) 16) (slice h (o + 24) 16) f payload
      some (putBytes h (o + 4) (beBytes 2 d.length) ++ d)
    else
      let d := udpBuild (slice h (o + 12) 4) (slice h (o + 16) 4) f payload
      let h1 := putBytes (putBytes h (o + 2) (beBytes 2 (20 + d.length))) (o + 10) (zeros 2)
      some (putBytes h1 (o + 10) (beBytes 2 (inetSum (slice h1 o 20))) ++ d)

/-- The priority of a frame sent for flow `f` (R303, R332). -/
def flowPrio (s : State) (f : List Byte) : Nat :=
  if fTagged f then fPcp f else macFld s (fPort f) offMacCtl 18 16

/-- A frame handed to a MAC by the packet engine. -/
def pktSend (s : State) (port prio : Nat) (items : List Item) (f : List Byte) : State :=
  handTx (bump s offPktTxpkt) port prio false items f

/-- An item freed unsent under reason 15 (R315).
DEDUCED, log entry 53. -/
def badItem (s : State) (i : Item) : State := clearingCheck (drop (freeItem s i) 15)

/-- An item of KIND 0 or 3 sent at once (R315).
DEDUCED, log entry 54. -/
def sendItem (s : State) (i : Item) : State :=
  let bs := itemBytes s i
  let body := bs.drop 16
  if byteAt bs 2 = 3 then
    if byteAt bs 8 < 4 then pktSend s (byteAt bs 8) (framePrio s (byteAt bs 8) body) [i] body
    else badItem s i
  else
    let f := flowBytes s (leAt bs 0 2)
    if flowType f = 1 ∨ flowType f = 6 then
      match frameBuild s f body with
      | none => badItem s i
      | some fr => pktSend s (fPort f) (flowPrio s f) [i] fr
    else badItem s i

/-- A held departure added (R314). -/
def holdAdd (s : State) (h : HeldItem) : State :=
  { s with pkt := { s.pkt with held := s.pkt.held ++ [h] } }

/-- An item of KIND 0 or 3 taken: sent, held or freed by its DEP (R314).
DEDUCED, log entry 54. -/
def takeTimed (s : State) (i : Item) : State :=
  let bs := itemBytes s i
  let now : Int := nfnOf s
  let dep := extend32 (nfnOf s) (leAt bs 4 4)
  if (byteAt bs 3).testBit 0 = false then sendItem s i
  else if now + 32000 < dep then clearingCheck (bump (freeItem s i) offPktFardep)
  else if now < dep then holdAdd s ⟨dep, .item i⟩
  else sendItem (if dep < now then bump s offPktLatedep else s) i

/-- The first tick at or after `x` that leaves `phase` modulo `period`. -/
def firstTick (x : Int) (phase period : Nat) : Int := x + ((phase - x) % (period : Int))

/-- A CESoPSN contribution taken (R310).
DEDUCED, log entry 52. -/
def takeCes (s : State) (i : Item) : State :=
  let bs := itemBytes s i
  let p := leAt bs 0 2
  let f := flowBytes s p
  let apt := byteAt f 11
  let r := extend32 (nfnOf s) (leAt bs 12 4)
  let d := firstTick (r + 8) (byteAt f 12) (40 * apt)
  let t := byteAt bs 8
  if flowType f ≠ 2 ∨ tmplUsable (tmplBytes s (fTmpl f)) = false then badItem s i
  else if d < nfnOf s ∨ d.toNat ∈ smapGet [] s.pkt.cesSent p ∨ byteAt f 10 ≤ t then
    clearingCheck (bump (freeItem s i) offPktLatedep)
  else
    let pos := apt - 1 - ((d - 8 - r) / 40).toNat
    { s with pkt := { s.pkt with ces := s.pkt.ces ++ [⟨p, d.toNat, t, pos, i⟩] } }

/-- A member frame taken (R312).
DEDUCED, log entry 53. -/
def takeMember (s : State) (i : Item) : State :=
  let bs := itemBytes s i
  let m := leAt bs 0 2
  let f := flowBytes s m
  let b := leAt f 14 2
  let e := flowBytes s b
  let tag := m - leAt e 10 2
  let sid := (byteAt bs 3).testBit 1
  let len := bs.length - 16
  if flowType f ≠ 5 ∨ flowType e ≠ 4 ∨ m < leAt e 10 2 ∨ leAt e 12 2 ≤ tag
      ∨ tmplUsable (tmplBytes s (fTmpl e)) = false
      ∨ (if sid then 255 < len else len ≠ byteAt f 12) then badItem s i
  else
    let nominal := firstTick (extend32 (nfnOf s) (leAt bs 12 4) + 12) (byteAt e 14) 40
    let next := firstTick (nfnOf s) (byteAt e 14) 40
    let open_ := if smapGet 0 s.pkt.bunSent b = next.toNat + 1 then next + 40 else next
    let d := max nominal open_
    let lag := ((d - nominal) / 40).toNat
    if 3 < lag then clearingCheck (bump (freeItem s i) offPktBlate)
    else
      { s with pkt := { s.pkt with
        bundle := s.pkt.bundle ++ [⟨b, d.toNat, boolBit sid 15 + lag * 8192 + tag, i⟩] } }

/-- An item taken from an input queue (R315). -/
def takeItem (s : State) (i : Item) : State :=
  let bs := itemBytes s i
  if bs.length < 16 then badItem s i
  else
    match byteAt bs 2 with
    | 0 =>
      let f := flowBytes s (leAt bs 0 2)
      if (flowType f = 1 ∨ flowType f = 6) ∧ tmplUsable (tmplBytes s (fTmpl f)) then takeTimed s i
      else badItem s i
    | 1 => takeCes s i
    | 2 => takeMember s i
    | 3 => if byteAt bs 8 < 4 then takeTimed s i else badItem s i
    | _ => badItem s i

/-- The input queue visited next that holds an item, in rising order from `k` (R315).
DEDUCED, log entry 50. -/
def nextInput (s : State) (k : Nat) : Option Nat :=
  ((List.range 8).map fun j => (k + j) % 8).find? fun j =>
    let r := csrGet s (offPktTxq + 4 * j)
    bitOf r 31 && ! (queueGet s (fld r 15 0)).items.isEmpty

/-- The items of a held departure. -/
def heldItems (h : HeldItem) : Nat :=
  match h.what with
  | .item _ => 1
  | .frame _ f => f.items.length

/-- The items the packet engine holds for departure: held items, contributions and member
frames (R310, R312, R314, R318). -/
def pendItems (s : State) : Nat :=
  (s.pkt.held.map heldItems).sum + s.pkt.ces.length + s.pkt.bundle.length

/-- The next item of the input queues taken, unless 65,536 items are pending (R314, R315). -/
def execPktTxTake (s : State) : Result :=
  .next (if 65536 ≤ pendItems s then s
  else
    match nextInput s s.pkt.txAt with
    | none => s
    | some k =>
      let q := csrFld s (offPktTxq + 4 * k) 15 0
      match (queueGet s q).items with
      | [] => s
      | i :: _ =>
        let s1 := (popQueue s q).2
        takeItem { s1 with pkt := { s1.pkt with txAt := (k + 1) % 8 } } i)

/-- What a held departure sends.
DEDUCED, log entry 51. -/
def sendHeld (s : State) (h : Held) : State :=
  match h with
  | .item i => sendItem s i
  | .frame p f => handTx (bump s offPktTxpkt) p f.prio f.express f.items f.bytes

/-- The first held departure that is due, and the others. -/
def takeDue (now : Int) (l : List HeldItem) : Option (HeldItem × List HeldItem) :=
  match l with
  | [] => none
  | h :: r =>
    if h.dep ≤ now then some (h, r)
    else
      match takeDue now r with
      | none => none
      | some (x, r1) => some (x, h :: r1)

/-- A held item whose DEP is reached begins transmission: it is judged at tick boundaries,
so the NFN of the last one counts, not one jumped to since (R314).
DEDUCED, log entries 51, 59. -/
def execPktDeparture (s : State) : Result :=
  .next (match takeDue (min s.pkt.seen (nfnOf s) : Nat) s.pkt.held with
    | none => s
    | some (h, r) => sendHeld { s with pkt := { s.pkt with held := r } } h.what)

/-- One held departure judged afresh after a jump of the NFN (R314). -/
def rejudge (s : State) (h : HeldItem) : State :=
  let now : Int := nfnOf s
  if now + 32000 < h.dep then
    clearingCheck (bump (match h.what with
      | .item i => freeItem s i
      | .frame _ f => f.items.foldl freeItem s) offPktFardep)
  else if h.dep < now then sendHeld (bump s offPktLatedep) h.what
  else holdAdd s h

/-- Every held departure judged afresh.
DEDUCED, log entry 59. -/
def rejudgeAll (s : State) : State :=
  s.pkt.held.foldl rejudge { s with pkt := { s.pkt with held := [] } }

/-! ## CESoPSN packets (R310) -/

/-- The contribution placed last in position `pos` of timeslot `t`. -/
def cesFind (l : List CesPart) (t pos : Nat) : Option CesPart :=
  l.reverse.find? fun c => c.slot == t && c.pos == pos

/-- The 40 bytes of a position: contributed, or IDLE. -/
def cesBlock (s : State) (idle : Byte) (l : List CesPart) (t pos : Nat) : List Byte :=
  match cesFind l t pos with
  | none => List.replicate 40 idle
  | some c => padTo 40 ((itemBytes s c.item).drop 16)

/-- Positions of a packet that nothing was contributed to. -/
def cesMissing (l : List CesPart) (nts apt : Nat) : Nat :=
  ((List.range nts).map fun t =>
    ((List.range apt).filter fun p => (cesFind l t p).isNone).length).sum

/-- The frames of a packet: `apt` × 40 of `nts` bytes. -/
def cesData (s : State) (idle : Byte) (l : List CesPart) (nts apt : Nat) : List Byte :=
  let cols := (List.range nts).map fun t => (List.range apt).flatMap fun p => cesBlock s idle l t p
  (List.range (apt * 40)).flatMap fun k => cols.map fun c => c.getD k 0

/-- PKT_CTL.RDEF as it acts. -/
def rdef (s : State) : Nat := max 1 (csrFld s offPktCtl 7 0)

/-- The packet of pseudowire `p` for departure `d` (R309, R310).
DESIGN CHOICE, log entry 18; DEDUCED, log entry 52. -/
def cesPacket (s : State) (p d : Nat) (f : List Byte) (l : List CesPart) : List Byte :=
  let nts := byteAt f 10
  let apt := byteAt f 11
  let seq := smapGet 0 s.pkt.cesSeq p
  let rx := smapGet 0 s.pkt.cesRx p
  let r := decide (rx = 0 ∨ rx + rdef s * 40 * apt ≤ nfnOf s)
  let data := cesData s (f.getD 13 0) l nts apt
  let len := if data.length < 64 then data.length else 0
  let hdr := if (byteAt f 14).testBit 0 then beBytes 12 (Config.cesRtp p d % 2 ^ 96) else []
  hdr ++ beBytes 4 (boolBit r 26 + len * 65536 + seq) ++ data

/-- The packet of pseudowire `p` for departure `d` built and sent, or held until `d`. -/
def cesBuild (s : State) (p : Nat) (d : Nat) : State :=
  let f := flowBytes s p
  let mine := s.pkt.ces.filter fun c => c.flow == p && c.dep == d
  let items := mine.map fun c => c.item
  let seq := smapGet 0 s.pkt.cesSeq p
  let s1 := { s with pkt := { s.pkt with
    ces := s.pkt.ces.filter fun c => ! (c.flow == p && c.dep == d)
    cesSent := smapPut [] s.pkt.cesSent p (d :: (smapGet [] s.pkt.cesSent p).filter fun x => decide (nfnOf s ≤ x))
    cesSeq := smapPut 0 s.pkt.cesSeq p ((seq + 1) % 65536) } }
  let s2 := cntAdd s1 offPktCesmiss (cesMissing mine (byteAt f 10) (byteAt f 11))
  match frameBuild s f (cesPacket s p d f mine) with
  | none => items.foldl badItem s2
  | some fr =>
    if nfnOf s < d then holdAdd s2 ⟨d, .frame (fPort f) ⟨fr, flowPrio s f, false, elapsed s.time, items⟩⟩
    else pktSend s2 (fPort f) (flowPrio s f) items fr

/-- The departure of pseudowire `p` that is due or full now, if one is: the departures already
built whose ticks have not passed are kept in `cesSent` (R310).
DEDUCED, log entry 52. -/
def cesDue (s : State) (p : Nat) (f : List Byte) : Option Nat :=
  let period := 40 * byteAt f 11
  let d := (firstTick (nfnOf s) (byteAt f 12) period).toNat
  if d = nfnOf s ∧ d ∉ smapGet [] s.pkt.cesSent p then some d
  else
    (s.pkt.ces.find? fun c => c.flow == p && (decide (c.dep < nfnOf s) ||
      cesMissing (s.pkt.ces.filter fun x => x.flow == p && x.dep == c.dep) (byteAt f 10) (byteAt f 11) == 0)).map
        fun c => c.dep

def execCesPacketBuild (p : Nat) (s : State) : Result :=
  .next (let f := flowBytes s p
    if flowType f = 2 then
      match cesDue s p f with
      | none => s
      | some d => cesBuild s p d
    else s)

/-! ## Bundles (R311, R312) -/

/-- The sender's role epoch, 0 when unpaired (R311). -/
def bundleEpoch (s : State) : Nat :=
  if bitOf (csrGet s offMirrCtl) 31 then (csrGet s offMirrEpoch).toNat else 0

/-- The member data of one placed frame. -/
def memberData (s : State) (b : BundleFrame) : List Byte :=
  let body := (itemBytes s b.item).drop 16
  beBytes 2 b.tag ++ (if b.tag.testBit 15 then leBytes 1 body.length else []) ++ body

/-- The frames that fit the next datagram, its member data, and the rest. -/
def packBundle (s : State) (count plen : Nat) (l : List BundleFrame) :
    List BundleFrame × List Byte × List BundleFrame :=
  match l with
  | [] => ([], [], [])
  | b :: r =>
    let d := memberData s b
    if 255 ≤ count ∨ 1400 < plen + d.length then ([], [], b :: r)
    else
      let x := packBundle s (count + 1) (plen + d.length) r
      (b :: x.1, d ++ x.2.1, x.2.2)

/-- One datagram sent, BSEQ advanced. -/
def sendBundle (s : State) (b d : Nat) (f : List Byte) (fs : List BundleFrame) (data : List Byte) : State :=
  let seq := smapGet 0 s.pkt.bunSeq b
  let hdr := leBytes 1 0x10 ++ leBytes 1 fs.length ++ beBytes 2 seq ++ beBytes 4 d ++ beBytes 4 (bundleEpoch s)
    ++ beBytes 2 data.length ++ zeros 2
  let s1 := { s with pkt := { s.pkt with bunSeq := smapPut 0 s.pkt.bunSeq b ((seq + 1) % 65536) } }
  let items := fs.map fun x => x.item
  match frameBuild s f (hdr ++ data) with
  | none => items.foldl badItem s
  | some fr => pktSend s1 (fPort f) (flowPrio s f) items fr

/-- The placed frames sent in as many datagrams as they need, with fuel. -/
def sendBundles (fuel : Nat) (s : State) (b d : Nat) (f : List Byte) (l : List BundleFrame) : State :=
  match fuel with
  | 0 => s
  | n + 1 =>
    match l with
    | [] => s
    | _ :: _ =>
      let x := packBundle s 0 0 l
      sendBundles n (sendBundle s b d f x.1 x.2.1) b d f x.2.2

/-- The bundle departure of entry `b` at the current tick (R312). -/
def execBundleDeparture (b : Nat) (s : State) : Result :=
  .next (let f := flowBytes s b
    let d := nfnOf s
    if flowType f = 4 ∧ d % 40 = byteAt f 14 ∧ smapGet 0 s.pkt.bunSent b ≠ d + 1 then
      let mine := s.pkt.bundle.filter fun x => x.flow == b && decide (x.dep ≤ d)
      let s1 := { s with pkt := { s.pkt with
        bundle := s.pkt.bundle.filter fun x => ! (x.flow == b && decide (x.dep ≤ d))
        bunSent := smapPut 0 s.pkt.bunSent b (d + 1) } }
      sendBundles mine.length s1 b d f mine
    else s)

/-! ## The flow and template windows (R318) -/

/-- The staged 16 bytes of PKT_FDATA0–3. -/
def stagedFlow (s : State) : List Byte :=
  (List.range 4).flatMap fun i => leBytes 4 (csrGet s (offPktFdata + 4 * i)).toNat

/-- The staged 64 bytes of PKT_TDATA0–15. -/
def stagedTmpl (s : State) : List Byte :=
  (List.range 16).flatMap fun i => leBytes 4 (csrGet s (offPktTdata + 4 * i)).toNat

/-- Bytes `i` to `j` − 1 of an entry are zero. -/
def zeroIn (f : List Byte) (i j : Nat) : Bool := (slice f i (j - i)).all fun b => b == 0

/-- Code 1 of PKT_FSTAT: an entry that R303 or R305 does not allow. -/
def flowBadForm (f : List Byte) : Bool :=
  let t := flowType f
  let hi := byteAt f 0 / 16
  let keyed := decide (byteAt f 1 < 16) && ! (byteAt f 3).testBit 7 && (fTagged f || fVid f == 0)
    && decide (fTmpl f < 12288)
  match t with
  | 1 => ! (keyed && decide (flowChan f < 16384) && decide (byteAt f 12 < 128) && decide (byteAt f 13 < 128)
      && zeroIn f 14 16 && (fRtcp f || ! fMux f) && ! (fRtcp f && ! fMux f && fLport f == 65535))
  | 2 => ! (keyed && (hi == 0 || hi == 2) && decide (1 ≤ byteAt f 10) && decide (byteAt f 10 ≤ 32)
      && decide (1 ≤ byteAt f 11) && decide (byteAt f 11 ≤ 8) && decide (byteAt f 12 ≤ 39)
      && decide (byteAt f 14 < 2) && zeroIn f 15 16)
  | 3 => ! (hi == 0 && zeroIn f 1 10 && decide (flowChan f < 16384) && zeroIn f 12 16)
  | 4 => ! (keyed && (hi == 0 || hi == 2) && decide (1 ≤ leAt f 12 2) && decide (leAt f 12 2 ≤ 8192)
      && decide (byteAt f 14 ≤ 39) && zeroIn f 15 16)
  | 5 => ! (hi == 0 && zeroIn f 1 10 && decide (flowChan f < 16384) && decide (1 ≤ byteAt f 12)
      && decide (1 ≤ byteAt f 13) && decide (byteAt f 13 ≤ 8))
  | 6 => ! (keyed && (hi == 0 || hi == 2) && zeroIn f 12 16)
  | _ => true

/-- Code 2: another valid entry has a key of `f` (R305). -/
def flowDup (s : State) (i : Nat) (f : List Byte) : Bool :=
  s.pkt.flow.any fun e => e.1 != i && (flowKeys (flowBytes s e.1)).any fun k => (flowKeys f).contains k

/-- Code 3: entry `i` serves a leg of an enabled channel (R318). -/
def flowBound (s : State) (i : Nat) : Bool :=
  let e := flowBytes s i
  (bindings s).any fun b =>
    b.2.fTrunk == i || b.2.fAccess == i ||
      (flowType e == 3 && flowChan e == b.1 &&
        (let p := flowBytes s b.2.fAccess
         flowType p == 2 && decide (b.2.fAccess < i) && decide (i ≤ b.2.fAccess + byteAt p 10))) ||
      (flowType e == 5 && flowChan e == b.1 && leAt e 14 2 == b.2.fTrunk &&
        (let u := flowBytes s b.2.fTrunk
         flowType u == 4 && decide (leAt u 10 2 ≤ i) && decide (i < leAt u 10 2 + leAt u 12 2)))

/-- Code 4: timeslots or tags beyond the table. -/
def flowBeyond (i : Nat) (f : List Byte) : Bool :=
  (flowType f == 2 && decide (65535 < i + byteAt f 10))
    || (flowType f == 4 && decide (65536 < leAt f 10 2 + leAt f 12 2))

/-- PKT_FSTAT set by a command. -/
def flowStat (s : State) (code : Nat) : State := csrPut s offPktFstat (wordOf (0x80000000 + code))

/-- What a write or invalidate of entry `i` resets (R310, R313). -/
def flowFresh (s : State) (i : Nat) : State :=
  { s with pkt := { s.pkt with
    cesSeq := smapPut 0 s.pkt.cesSeq i 0
    bunEpoch := smapPut 0 s.pkt.bunEpoch i 0
    bunRec := smapPut [] s.pkt.bunRec i [] } }

/-- PKT_FCMD invalidate. -/
def flowInvalidate (s : State) (i : Nat) : State :=
  if flowBound s i then flowStat s 3 else flowStat (flowFresh (flowPut s i (zeros 16)) i) 0

/-- PKT_FCMD write (R318); of several conditions the lowest code is reported. -/
def flowWrite (s : State) (i : Nat) (f : List Byte) : State :=
  if f = zeros 16 then flowInvalidate s i
  else if flowBadForm f then flowStat s 1
  else if flowDup s i f then flowStat s 2
  else if flowBound s i then flowStat s 3
  else if flowBeyond i f then flowStat s 4
  else flowStat (flowFresh (flowPut s i f) i) 0

/-- Entry `i` of PKT_FSEL. -/
def flowSel (s : State) : Nat := csrFld s offPktFsel 15 0

def execFlowWrite (s : State) : Result := .next (flowWrite s (flowSel s) (stagedFlow s))

/-- The words of a list put into consecutive registers. -/
def putWords (o n : Nat) (l : List Byte) (s : State) : State :=
  (List.range n).foldl (fun s i => csrPut s (o + 4 * i) (wordOf (leAt l (4 * i) 4))) s

/-- PKT_FCMD read. -/
def flowRead (s : State) : State := flowStat (putWords offPktFdata 4 (flowBytes s (flowSel s)) s) 0

def execFlowRead (s : State) : Result := .next (flowRead s)

def execFlowInvalidate (s : State) : Result := .next (flowInvalidate s (flowSel s))

/-- PKT_TSTAT set by a command. -/
def tmplStat (s : State) (code : Nat) : State := csrPut s offPktTstat (wordOf (0x80000000 + code))

/-- Template `i` serves a flow bound to an enabled channel (R318). -/
def tmplBound (s : State) (i : Nat) : Bool :=
  (bindings s).any fun b =>
    [b.2.fTrunk, b.2.fAccess].any fun j => isKeyed (flowBytes s j) && fTmpl (flowBytes s j) == i

/-- PKT_TCMD write (R304, R318); of both conditions the lower code is reported.
DEDUCED, log entry 55; DESIGN CHOICE, log entry 162. -/
def tmplWrite (s : State) (i : Nat) (t : List Byte) : State :=
  if 12288 ≤ i ∨ tmplUsable t = false then tmplStat s 1
  else if tmplBound s i then tmplStat s 2
  else
    tmplStat { s with pkt := { s.pkt with tmpl := smapPut (zeros 64) s.pkt.tmpl i t
                                          tmplBad := smapPut false s.pkt.tmplBad i false } } 0

/-- Template of PKT_TSEL. -/
def hdrSel (s : State) : Nat := csrFld s offPktTsel 13 0

def execTemplateWrite (s : State) : Result := .next (tmplWrite s (hdrSel s) (stagedTmpl s))

/-- PKT_TCMD read. -/
def tmplReadOut (s : State) : State :=
  if 12288 ≤ hdrSel s then tmplStat s 1
  else tmplStat (putWords offPktTdata 16 (tmplBytes s (hdrSel s)) s) 0

def execTemplateRead (s : State) : Result := .next (tmplReadOut s)

/-- An uncorrectable error in flow entry or header template `i` (R316). -/
def execFlowTableError (tmpl : Bool) (i : Nat) (s : State) : Result :=
  .next (if (if tmpl then i < 12288 else i < 65536) then
    let s1 := if tmpl then { s with pkt := { s.pkt with tmplBad := smapPut false s.pkt.tmplBad i true } }
      else { s with pkt := { s.pkt with flowBad := smapPut false s.pkt.flowBad i true } }
    raise0 s1 0x07 1 0 (leBytes 2 i ++ leBytes 1 tmpl.toNat)
  else s)

end Sys2Proof.Machine
end

