-- ==== Sys2Proof/Machine/Units.lean ====
section
/-! DEFINITION. What the four coprocessor units share: command words (R142),
completions and their delivery (R143), and items changed in place. -/

namespace Sys2Proof.Machine

/-- Fields of W0 (R142). -/
def cmdCode (c : UnitCmd) : Nat := fld c.w0 7 0
def cmdFlags (c : UnitCmd) : Nat := fld c.w0 15 8
def cmdChan (c : UnitCmd) : Nat := fld c.w0 31 16

/-- The completion value of R143. -/
def completionValue (code unit info : Nat) : Word := wordOf (code + unit * 0x100 + info * 0x10000)

/-- A command ended: its completion waits for delivery. -/
def unitEnd (u : UnitSt) (c : UnitCmd) (code unit info key : Nat) : UnitSt :=
  { u with done := u.done ++ [⟨c.w1, completionValue code unit info, key⟩] }

/-- Whether completion `i` of the list is the oldest of those that `same` orders with it.
DEDUCED, log entry 38. -/
def firstOfKey (same : Nat → Nat → Bool) (l : List Completion) (i : Nat) (key : Nat) : Bool :=
  (l.take i).all fun c => ! same c.key key

/-- Delivery of the `i`th completion of unit `unit`, when its target takes it (R143,
R173); the rest of the completions, or none while it is held.
DEDUCED, log entry 38. -/
def deliverDone (same : Nat → Nat → Bool) (s : State) (u : UnitSt) (i unit : Nat) : Option (State × List Completion) :=
  match u.done[i]? with
  | none => none
  | some c =>
    if firstOfKey same u.done i c.key then
      match deliverCompletion s c.target c.value unit with
      | none => none
      | some s1 => some (s1, u.done.eraseIdx i)
    else none

/-- Whether back-pressure holds a completion of a unit (R173): one whose turn it is and
whose target does not take it. -/
def unitHeld (same : Nat → Nat → Bool) (s : State) (u : UnitSt) (unit : Nat) : Bool :=
  u.done.zipIdx.any fun x =>
    firstOfKey same u.done x.2 x.1.key && (deliverCompletion s x.1.target x.1.value unit).isNone

/-- Ordering by one number. -/
def sameKey (a b : Nat) : Bool := a == b

/-- The oldest command of a queue when its code is `code`, and the rest. -/
def unitTake (u : UnitSt) (code : Nat) : Option (UnitCmd × UnitSt) :=
  match u.q with
  | [] => none
  | c :: r => if cmdCode c = code then some (c, { u with q := r }) else none

/-- The lengths of an item's cells. -/
def itemLens (s : State) (i : Item) : List Nat := (itemCells s i).map (cellLen s)

/-- Lengths cut so that they hold `n` bytes in all. -/
def cutLens (l : List Nat) (n : Nat) : List Nat :=
  match l with
  | [] => []
  | x :: r => min x n :: cutLens r (n - x)

/-- Data and lengths written into the cells of an item, the rest of their headers kept. -/
def rewriteCells (s : State) (cs lens : List Nat) (bs : List Byte) : State :=
  match cs, lens with
  | c :: r, n :: t =>
    rewriteCells (memWrite (memPut s (cellAddr s c + 8) 2 n) (cellAddr s c + 16) (bs.take n)) r t (bs.drop n)
  | _, _ => s

/-- The lengths with `k` more in the last one. -/
def growLast (l : List Nat) (k : Nat) : List Nat :=
  match l with
  | [] => []
  | [x] => [x + k]
  | x :: r => x :: growLast r k

/-- Whether `a` to `a` + `n` lies in heartwood. -/
def inHeartwood (a n : Nat) : Bool := decide (hwBase ≤ a) && decide (a + n ≤ hwEnd)

end Sys2Proof.Machine
end

