-- ==== Sys2Proof/Machine/Echo.lean ====
section
/-! DEFINITION. The echo canceller array (06_echo_canceller.md): EC records, the processing
of a block, and every ECA row of the opcode table.  What the spec gives exactly is computed;
the smoothing of powers, the decimation filter, the tone detector's reading and roundings are
free values. -/

namespace Sys2Proof.Machine

def ecaSrc : Nat := 0x04

/-! ## Modes (R190) -/

def ecRing (mode : Nat) : Nat := if mode = 2 then 2048 else 1024
def ecBlockLen (mode : Nat) : Nat := if mode = 4 then 80 else 40
def ecMaxWin (mode : Nat) : Nat := if mode = 2 then 6 else if mode = 4 then 4 else 3
def ecBinWidth (mode : Nat) : Nat := if mode = 4 then 16 else 8
def ecBinCount (mode : Nat) : Nat := ecRing mode / ecBinWidth mode
def ecPair (mode : Nat) : Bool := mode == 2 || mode == 4

/-- A window of the filter: START, AGE, ENERGY and coefficients. -/
structure EcWin where
  start : Nat
  age : Nat
  energy : Nat
  h : List Int
  deriving DecidableEq, Repr

/-- What the array keeps in the opaque bytes of TONE (R187): blocks in QUIET, blocks for
which the tone has lasted in each direction, the direction of the tone, blocks since the
record left SEARCH, the shape of the comfort noise and its last sample, and the state of the
two detectors.  DEDUCED, log entry 99. -/
structure EcTone where
  quiet : Nat
  heard0 : Nat
  heard1 : Nat
  dir : Nat
  since : Nat
  shape : Int
  last : Int
  keep0 : Nat
  keep1 : Nat
  deriving DecidableEq, Repr

/-- An EC record, or a pair, as a block works on it (R187, R189, R190). -/
structure Ec where
  mode : Nat
  cfg : Word
  hpos : Nat
  blkcnt : Nat
  wins : List EcWin
  mu : Nat
  hang : Nat
  conv : Nat
  dtd : Nat
  nlp : Bool
  tone : Nat
  first : Bool
  px : Nat
  ps : Nat
  pe : Nat
  pn : Nat
  erl : Int
  erle : Int
  gain : Nat
  seed : Nat
  tones : EcTone
  /-- The last eight near-end samples, newest first (BDE). -/
  near : List Int
  repl : Nat
  div : Nat
  convCnt : Nat
  refvalid : Nat
  lastblk : Nat
  bins : List Nat
  ring : List Int
  refin : List Int
  deriving DecidableEq, Repr

/-! ## Records as bytes (R186, R187) -/

/-- Signed 16-bit samples of a byte list. -/
def samplesOf (l : List Byte) : List Int := (chunks 2 l).map fun b => signed 16 (leNat b)

/-- Bytes of 16-bit samples. -/
def bytesOf16 (l : List Int) : List Byte := l.flatMap fun x => leBytes 2 (x % 65536).toNat

/-- A window of a record; a START past the delays of the mode is not placed. -/
def winOf (rec : List Byte) (slot mode : Nat) : EcWin :=
  let st := leAt rec (0xE10 + 8 * slot) 2
  { start := if st ≤ ecRing mode - 128 then st else 0xFFFF
    age := leAt rec (0xE12 + 8 * slot) 2
    energy := leAt rec (0xE14 + 8 * slot) 4
    h := (chunks 4 ((rec.drop (0x800 + 0x200 * slot)).take 0x200)).map fun b => signed 24 (leNat b % 16777216) }

/-- TONE of a record.  DEDUCED, log entry 99. -/
def toneOf (rec : List Byte) : EcTone where
  quiet := leAt rec 0xE48 2
  heard0 := leAt rec 0xE4A 2
  heard1 := leAt rec 0xE4C 2
  dir := byteAt rec 0xE4E % 2
  since := leAt rec 0xE50 4
  shape := signed 16 (leAt rec 0xE54 2)
  last := signed 16 (leAt rec 0xE56 2)
  keep0 := leAt rec 0xE58 4
  keep1 := leAt rec 0xE5C 4

/-- The 24 bytes of TONE. -/
def toneBytes (t : EcTone) : List Byte :=
  leBytes 2 t.quiet ++ leBytes 2 t.heard0 ++ leBytes 2 t.heard1 ++ leBytes 1 t.dir ++ zeros 1
    ++ leBytes 4 t.since ++ bytesOf16 [t.shape, t.last] ++ leBytes 4 t.keep0 ++ leBytes 4 t.keep1

/-- Windows of a record or pair: windows from 3 on stand in the tail. -/
def winsOf (head tail : List Byte) (mode : Nat) : List EcWin :=
  (List.range (ecMaxWin mode)).map fun w => if w < 3 then winOf head w mode else winOf tail (w - 3) mode

def ecOf (head tail : List Byte) : Ec :=
  let cfg := wordOf (leAt head 0xE04 4)
  let mode := fld cfg 2 0
  let st := wordOf (leAt head 0xE2C 4)
  let hist := fun (r : List Byte) => samplesOf (r.take 0x800)
  let bins := fun (r : List Byte) => (chunks 2 ((r.drop 0xF00).take 256)).map leNat
  { mode := mode
    cfg := cfg
    hpos := leAt head 0xE0A 2 % ecRing mode
    blkcnt := leAt head 0xE0C 4
    wins := winsOf head tail mode
    mu := leAt head 0xE28 2
    hang := leAt head 0xE2A 2
    conv := fld st 1 0
    dtd := fld st 3 2
    nlp := bitOf st 4
    tone := fld st 6 5
    first := bitOf st 7
    px := leAt head 0xE30 4
    ps := leAt head 0xE34 4
    pe := leAt head 0xE38 4
    pn := leAt head 0xE3C 4
    erl := signed 16 (leAt head 0xE40 2)
    erle := signed 16 (leAt head 0xE42 2)
    gain := leAt head 0xE44 2
    seed := leAt head 0xE46 2
    tones := toneOf head
    near := samplesOf ((head.drop 0xE60).take 16)
    repl := byteAt head 0xE70
    div := byteAt head 0xE71
    convCnt := leAt head 0xE72 2
    refvalid := leAt head 0xE74 4
    lastblk := leAt head 0xE78 2
    bins := (bins head ++ bins tail).take (ecBinCount mode)
    ring := (hist head ++ hist tail).take (ecRing mode)
    refin := if mode = 4 then samplesOf (tail.take 160) else samplesOf ((head.drop 0xE80).take 80) }

/-- The bytes of a window's coefficients and of its descriptor. -/
def winBytes (w : EcWin) : List Byte × List Byte :=
  (w.h.flatMap fun x => leBytes 4 (x % 4294967296).toNat,
   leBytes 2 w.start ++ leBytes 2 w.age ++ leBytes 4 w.energy)

def putWin (rec : List Byte) (slot : Nat) (w : EcWin) : List Byte :=
  putBytes (putBytes rec (0x800 + 0x200 * slot) (winBytes w).1) (0xE10 + 8 * slot) (winBytes w).2

def putWins (rec : List Byte) (slot : Nat) (ws : List EcWin) : List Byte :=
  match ws with
  | [] => rec
  | w :: r => putWins (putWin rec slot w) (slot + 1) r

/-- STATE of a record (R189). -/
def stateWord (e : Ec) : Nat :=
  e.conv + e.dtd * 4 + boolBit e.nlp 4 + e.tone * 32 + boolBit e.first 7

/-- The control fields of a head record. -/
def controlPuts (e : Ec) : List (Nat × List Byte) :=
  [(0xE04, leBytes 4 e.cfg.toNat), (0xE0A, leBytes 2 e.hpos ++ leBytes 4 e.blkcnt),
   (0xE28, leBytes 2 e.mu ++ leBytes 2 e.hang ++ leBytes 4 (stateWord e)
     ++ leBytes 4 e.px ++ leBytes 4 e.ps ++ leBytes 4 e.pe ++ leBytes 4 e.pn
     ++ leBytes 2 (e.erl % 65536).toNat ++ leBytes 2 (e.erle % 65536).toNat
     ++ leBytes 2 e.gain ++ leBytes 2 e.seed ++ toneBytes e.tones ++ padTo 16 (bytesOf16 e.near)
     ++ leBytes 1 e.repl ++ leBytes 1 e.div ++ leBytes 2 e.convCnt ++ leBytes 4 e.refvalid ++ leBytes 2 e.lastblk)]

def putAll (rec : List Byte) (l : List (Nat × List Byte)) : List Byte :=
  l.foldl (fun r p => putBytes r p.1 p.2) rec

/-- The head record after a command; its REFIN is the tail's in wideband (R190, R193). -/
def headOf (e : Ec) (head : List Byte) : List Byte :=
  let r0 := putAll (putWins head 0 (e.wins.take 3)) (controlPuts e)
  let r := if e.mode = 4 then r0 else putBytes r0 0xE80 (bytesOf16 e.refin)
  putAll r [(0, bytesOf16 (e.ring.take 1024)), (0xF00, (e.bins.take 128).flatMap fun b => leBytes 2 b)]

/-- A tail record: MAGIC, OWNER, CFG, LINK and the areas of R190; every other field zero. -/
def tailOf (e : Ec) (owner link : Nat) : List Byte :=
  let base := putAll (zeros 0x1000) [(0xE00, leBytes 2 0x4543 ++ leBytes 2 owner
    ++ leBytes 4 (setFld e.cfg 2 0 (e.mode + 1)).toNat ++ leBytes 2 link)]
  let r := putWins base 0 (e.wins.drop 3)
  if e.mode = 4 then putBytes r 0 (bytesOf16 e.refin)
  else putAll r [(0, bytesOf16 (e.ring.drop 1024)), (0xF00, (e.bins.drop 128).flatMap fun b => leBytes 2 b)]

/-! ## The filter (R193, R194) -/

def sat16 (x : Int) : Int := clampInt (-32768) 32767 x

/-- Window placed. -/
def placedWin (w : EcWin) : Bool := w.start != 0xFFFF

/-- The samples a window sees, from the stream newest first. -/
def winSamples (stream : List Int) (w : EcWin) : List Int := (stream.drop w.start).take 128

def dot (a b : List Int) : Int := (List.zipWith (fun x y => x * y) a b).sum

/-- y of R194: the 48-bit sum, rounded at bit 23 and saturated to 16 bits. -/
def filterOut (stream : List Int) (ws : List EcWin) : Int :=
  let acc := ((ws.filter placedWin).map fun w => dot w.h (winSamples stream w)).sum
  sat16 ((clampInt (-(2 ^ 47)) (2 ^ 47 - 1) acc + 2 ^ 22) / 2 ^ 23)

/-! ## One sample -/

/-- What a block's registers and command fix. -/
structure EcEnv where
  muConv : Nat
  muTrack : Nat
  delta : Nat
  thr : Nat
  hangLen : Nat
  nlpDb : Nat
  /-- Adaptation is suspended for the whole block (R195, R196, R201). -/
  suspend : Bool
  bypass : Bool
  nlpOff : Bool
  deriving DecidableEq, Repr

/-- Work on a block: the record, the reference newest first, the outputs newest first, the
saturated updates, and the free values drawn. -/
structure EcRun where
  e : Ec
  stream : List Int
  out : List Int
  /-- The errors of the samples in which DTD was IDLE, newest first (R206). -/
  idle : List Int
  satc : Nat
  f : Nat
  deriving DecidableEq, Repr

def maxAbs (l : List Int) : Nat := l.foldl (fun m x => max m x.natAbs) 0

/-- `a` is at least `db` dB above `b`, both powers. -/
def dbAbove (a b db : Nat) : Bool := decide (b ^ 10 * 10 ^ db ≤ a ^ 10)

/-- A free power of a smoothed quantity. -/
def freePower (f : Nat) : Nat := Config.ecaNum f % 4294967296

/-- The double-talk detector on one sample (R203): DTD and DTDHANG. -/
def dtdStep (v : EcEnv) (e : Ec) (s : Int) (big : Nat) : Nat × Nat :=
  let far := decide (levelPower 40 < e.px)
  if far && decide (v.thr * big ≤ s.natAbs * 32768) then (2, v.hangLen)
  else if 0 < e.hang then (2, e.hang - 1)
  else if far then (1, 0)
  else if levelPower 40 < e.ps then (3, 0)
  else (0, 0)

/-- The NLP suppresses in this sample (R205). -/
def nlpHolds (v : EcEnv) (e : Ec) : Bool :=
  bitOf e.cfg 4 && e.dtd == 1 && e.tone == 0 && ! v.nlpOff && dbAbove e.px e.pe v.nlpDb

/-- The sequence of R206 with feedback x¹⁶ + x¹⁴ + x¹³ + x¹¹ + 1, one step on.
DESIGN CHOICE, log entry 167. -/
def noiseStep (x : Nat) : Nat :=
  x / 2 + 32768 * ((x ^^^ (x / 4) ^^^ (x / 8) ^^^ (x / 32)) % 2)

/-- One sample of comfort noise (R206): the sequence stepped, shaped by a first-order filter
that keeps its power, and scaled to PN, with a free rounding.
DESIGN CHOICE, log entry 167. -/
def comfort (e : Ec) (f : Nat) : Ec × Int :=
  let seed := noiseStep e.seed
  let a := e.tones.shape
  let v := (signed 16 seed * rootOf (2 ^ 30 - a.natAbs * a.natAbs) + a * e.tones.last) / 32768
  ({ e with seed := seed, tones := { e.tones with last := sat16 v } },
   v * rootOf (3 * e.pn) / 32768 + (Config.ecaNum f % 2 : Nat))

/-- The NLP output for `err` and comfort noise `c` at gain `g`, in units of 2⁻¹⁵ (R205).
DEDUCED, log entry 100. -/
def nlpOut (err c : Int) (g f : Nat) : Int :=
  let round : Int := (Config.ecaNum f % 32768 : Nat)
  sat16 ((err * g + c * ((0x8000 - g : Nat) : Int) + round) / 32768)

/-- The output of a sample that passes through the NLP at gain `g` (R205, R206); the
sequence steps for each sample that carries noise. -/
def nlpSample (e : Ec) (err : Int) (g f : Nat) : Ec × Int :=
  if bitOf e.cfg 4 = false ∨ g = 0x8000 then (e, err)
  else if bitOf e.cfg 5 then
    let x := comfort e f
    (x.1, nlpOut err x.2 g (f + 1))
  else (e, nlpOut err 0 g (f + 1))

/-- The step size of a window (R201).
DEDUCED, log entry 100. -/
def muOf (v : EcEnv) (e : Ec) (w : EcWin) : Nat :=
  if v.suspend || ! bitOf e.cfg 7 || e.dtd != 1 || e.tone != 0 then 0
  else if e.conv ≤ 1 ∨ w.age < 8 then v.muConv
  else v.muTrack

/-- A coefficient updated (R200): the increment in real terms, its gain held to 16
significant bits, rounded half up to Q1.23 and saturated. -/
def adaptTap (mu : Nat) (err : Int) (den eps : Nat) (h x : Int) : Int :=
  let num : Int := (mu : Int) * err * x * 256
  let g : Int := 131070 + eps
  h + (if den = 0 then 0 else (2 * num * g + den * 131072) / (2 * den * 131072))

/-- A window adapted, with the number of saturations. -/
def adaptWin (v : EcEnv) (e : Ec) (stream : List Int) (err : Int) (den eps : Nat) (w : EcWin) : EcWin × Nat :=
  let mu := muOf v e w
  if placedWin w ∧ mu ≠ 0 then
    let l := List.zipWith (adaptTap mu err den eps) w.h (winSamples stream w)
    ({ w with h := l.map fun x => clampInt (-8388608) 8388607 x },
     (l.filter fun x => decide (x < -8388608) || decide (8388607 < x)).length)
  else (w, 0)

/-- Adaptation after a sample (R200). -/
def adaptAll (v : EcEnv) (e : Ec) (stream : List Int) (err : Int) (f : Nat) : List EcWin × Nat :=
  let placed := e.wins.filter placedWin
  let power := (placed.map fun w => (dot (winSamples stream w) (winSamples stream w)).toNat).sum
  let den := power + v.delta * (128 * placed.length)
  let r := e.wins.map (adaptWin v e stream err den (Config.ecaNum f % 5))
  (r.map fun x => x.1, (r.map fun x => x.2).sum)

/-- One sample of a block (R193): reference `x`, near-end input `s`.
DEDUCED, log entry 100. -/
def ecSample (v : EcEnv) (r : EcRun) (x s : Int) : EcRun :=
  let stream := x :: r.stream
  let placed := r.e.wins.filter placedWin
  let err := if placed.isEmpty then s else sat16 (s - filterOut stream r.e.wins)
  let reach := if placed.isEmpty then ecRing r.e.mode else (placed.map fun w => w.start + 128).foldl max 0
  let e0 := { r.e with px := freePower r.f, ps := freePower (r.f + 1), pe := freePower (r.f + 2) }
  let d := dtdStep v e0 s (maxAbs (stream.take reach))
  let e1 := { e0 with dtd := d.1, hang := d.2 }
  let sup := nlpHolds v e1
  let g := if sup then e1.gain - 0x1000 else min 0x8000 (e1.gain + 0x1000)
  let pass := v.bypass || bitOf e1.cfg 8 || e1.tone == 2 || e1.tone == 3
  let o := if pass then (e1, s) else nlpSample e1 err g (r.f + 3)
  let a := adaptAll v e1 stream err (r.f + 5)
  let mu := match (placed.getLast?) with
    | none => e1.mu
    | some w => muOf v e1 w
  { e := { o.1 with gain := g, nlp := sup, wins := a.1, mu := mu }
    stream := stream
    out := o.2 :: r.out
    idle := if e1.dtd = 0 then err :: r.idle else r.idle
    satc := r.satc + a.2
    f := r.f + 6 }

/-- The samples of a block in order. -/
def ecSamples (v : EcEnv) (r : EcRun) (xs ss : List Int) : EcRun :=
  match xs, ss with
  | x :: xs, s :: ss => ecSamples v (ecSample v r x s) xs ss
  | _, _ => r

/-! ## Block end: estimator, windows, divergence, convergence, tone -/

/-- Whether a window covers bin `b`: all its delays lie inside it (R198). -/
def winCovers (width b : Nat) (w : EcWin) : Bool :=
  placedWin w && decide (w.start ≤ b * width) && decide (b * width + width ≤ w.start + 128)

/-- The largest bin for which `p` holds: its number and level, the lowest of those that tie. -/
def largestBin (bins : List Nat) (p : Nat → Bool) : Option (Nat × Nat) :=
  bins.zipIdx.foldl (fun best x =>
    if p x.2 then
      match best with
      | none => some (x.2, x.1)
      | some b => if b.2 < x.1 then some (x.2, x.1) else best
    else best) none

def overlaps (a b : Int) : Bool := decide (a < b + 128) && decide (b < a + 128)

/-- Where a window for bin `b` would start among the windows `ws` (R198), or none. -/
def placeStart (mode b : Nat) (ws : List EcWin) : Option Nat :=
  let w := ecBinWidth mode
  let t : Int := ecRing mode
  let s0 := clampInt 0 (t - 128) ((w : Int) * b - 2 * w)
  let hit := fun (x : Int) => (ws.filter placedWin).find? fun v => overlaps x v.start
  let s1 : Int := match hit s0 with
    | none => s0
    | some v => if v.start ≤ w * b then (v.start : Int) + 128 else (v.start : Int) - 128
  if (hit s1).isSome ∨ s1 < 0 ∨ t - 128 < s1 then none else some s1.toNat

def newWin (start : Nat) : EcWin := ⟨start, 0, 0, List.replicate 128 0⟩

def noWin : EcWin := newWin 0xFFFF

/-- Windows that CFG.NWIN allows.
DEDUCED, log entry 95. -/
def allowedWins (e : Ec) : Nat :=
  let n := fld e.cfg 11 9
  if n = 0 then ecMaxWin e.mode else min n (ecMaxWin e.mode)

/-- A change of a window: its number, whether it re-places one, old and new START, the bin. -/
structure WinChange where
  w : Nat
  again : Bool
  old : Nat
  new : Nat
  bin : Nat
  deriving DecidableEq, Repr

/-- The first window placed takes the record from SEARCH to CONVERGING (R198, R202). -/
def leaveSearch (e : Ec) : Ec :=
  if e.conv = 0 then { e with conv := 1, convCnt := 0, tones := { e.tones with since := 0 } } else e

/-- Placement (R198).
DEDUCED, log entry 98. -/
def placeWindow (e : Ec) (thr : Nat) : Ec × Option WinChange :=
  let ws := e.wins
  let n := (ws.filter placedWin).length
  match largestBin e.bins fun b => ! ws.any (winCovers (ecBinWidth e.mode) b), ws.findIdx? fun w => ! placedWin w with
  | some (b, v), some i =>
    if n < allowedWins e ∧ thr ≤ v then
      match placeStart e.mode b ws with
      | none => (e, none)
      | some st =>
        (leaveSearch { e with wins := ws.set i (newWin st) },
         some ⟨i, false, 0xFFFF, st, b⟩)
    else (e, none)
  | _, _ => (e, none)

/-- The weakest window of age 40 blocks or more (R199): its number.
DEDUCED, log entry 97. -/
def weakestWin (ws : List EcWin) : Option Nat :=
  (ws.zipIdx.foldl (fun best x =>
    if placedWin x.1 ∧ 40 ≤ x.1.age then
      match best with
      | none => some x
      | some b => if x.1.energy < b.1.energy then some x else best
    else best) none).map fun x => x.2

/-- Re-placement (R199): REPLCNT, and the weakest window moved.
DEDUCED, log entry 97. -/
def replaceWindow (e : Ec) (db persist : Nat) : Ec × Option WinChange :=
  let ws := e.wins
  if (ws.filter placedWin).length < allowedWins e then (e, none)
  else
    let width := ecBinWidth e.mode
    match weakestWin ws with
    | none => ({ e with repl := 0 }, none)
    | some i =>
      let weak := ws.getD i noWin
      match largestBin e.bins (fun b => ! ws.any (winCovers width b)),
          largestBin e.bins (fun b => winCovers width b weak) with
      | some (b, v), some (_, u) =>
        if u ^ 20 * 10 ^ db ≤ v ^ 20 then
          if e.repl + 1 < persist then ({ e with repl := e.repl + 1 }, none)
          else
            match placeStart e.mode b (ws.set i noWin) with
            | none => ({ e with repl := min 255 (e.repl + 1) }, none)
            | some st =>
              ({ e with wins := ws.set i (newWin st), conv := 1, convCnt := 0, repl := 0 }, some ⟨i, true, weak.start, st, b⟩)
        else ({ e with repl := 0 }, none)
      | _, _ => ({ e with repl := 0 }, none)

/-- ENERGY of the coefficients, in units of 2⁻²⁴. -/
def energyOf (h : List Int) : Nat := min 0xFFFFFFFF ((dot h h).toNat / 2 ^ 22)

/-- Windows one block older, with their energy. -/
def ageWin (w : EcWin) : EcWin :=
  if placedWin w then { w with age := min 0xFFFF (w.age + 1), energy := energyOf w.h } else w

/-- A stream, newest sample first, decimated to 2 kHz by `d`: `n` samples, newest first
(R197). -/
def decimate (d : Nat) (newest : List Int) (n : Nat) : List Int :=
  (List.range n).map fun j => Config.ecaDecim d ((newest.drop (d * j)).take 16)

/-- The normalised correlation of the near-end samples with a stretch of the reference, Q0.16:
|Σ s x| / √(Σ s² Σ x²), with a free rounding, and free where an energy is zero (R197). -/
def correlation (sd xd : List Int) (f : Nat) : Nat :=
  let x := xd.take sd.length
  let c := (dot sd x).natAbs
  let en := (dot sd sd * dot x x).toNat
  if en = 0 then Config.ecaNum f % 65536
  else min 65535 (lastWith (fun v => decide (v * v * en ≤ c * c * 2 ^ 32)) 17 0 + Config.ecaNum f % 2)

/-- The estimator's update (R197): the block's near-end samples `ss` against the reference
`stream`, newest first, at every lag of 2 kHz; two adjacent lags make a bin, which follows
their maximum by 1/16.
DESIGN CHOICE, log entry 24; DEDUCED, log entry 98. -/
def estimate (e : Ec) (stream ss : List Int) (f : Nat) : Ec :=
  let d := ecBinWidth e.mode / 2
  let n := ecBlockLen e.mode / d
  let sd := decimate d (ss.reverse ++ e.near) n
  let xd := decimate d stream (ecRing e.mode / d + n)
  let at_ := fun (l : Nat) => correlation sd (xd.drop l) (f + l)
  { e with bins := e.bins.zipIdx.map fun b =>
      let v : Int := (max (at_ (2 * b.2)) (at_ (2 * b.2 + 1)) : Nat)
      (clampInt 0 65535 ((b.1 : Int) + (v - b.1 + 8) / 16)).toNat }

/-- The record after a divergence reset (R204). -/
def clearFilter (e : Ec) : Ec :=
  { e with wins := e.wins.map fun _ => noWin, bins := e.bins.map fun _ => 0, conv := 0, div := 0, convCnt := 0, repl := 0 }

/-- Divergence (R204). -/
def diverge (e : Ec) (n : Nat) : Ec × Bool :=
  if n = 0 ∨ e.dtd ≠ 1 then (e, false)
  else if e.ps ^ 10 * 10 ^ 3 < e.pe ^ 10 then
    if n ≤ e.div + 1 then (clearFilter e, true) else ({ e with div := e.div + 1 }, false)
  else ({ e with div := 0 }, false)

/-- Convergence at block end (R202): whether the record has become CONVERGED.  A FAR block is one
whose last sample is FAR.
DEDUCED, log entries 97, 183. -/
def converge (e : Ec) (db : Nat) : Ec × Bool :=
  if e.dtd ≠ 1 then (e, false)
  else
    let lim : Int := (db : Int) * 256
    match e.conv with
    | 1 =>
      if lim ≤ e.erle then
        if 20 ≤ e.convCnt + 1 then ({ e with conv := 2, convCnt := 0 }, true)
        else ({ e with convCnt := e.convCnt + 1 }, false)
      else ({ e with convCnt := 0 }, false)
    | 2 =>
      if e.erle < lim - 12 * 256 then
        if 40 ≤ e.convCnt + 1 then ({ e with conv := 1, convCnt := 0 }, false)
        else ({ e with convCnt := e.convCnt + 1 }, false)
      else ({ e with convCnt := 0 }, false)
    | _ => (e, false)

/-- 10 log10 of a ratio of powers in Q8.8 dB (R202), with a free rounding; free where a power
is zero. -/
def dbRatio (a b f : Nat) : Int :=
  if a = 0 ∨ b = 0 then Config.ecaDb a b else decibels a b + (Config.ecaNum f % 2 : Nat)

/-- ERL and ERLE, updated while DTD is FAR (R202). -/
def measure (e : Ec) (f : Nat) : Ec :=
  if e.dtd = 1 then { e with erl := dbRatio e.px e.ps f, erle := dbRatio e.ps e.pe (f + 1) } else e

/-- The mean power of a block, in units of 2⁻³⁰ of full scale. -/
def blockPower (l : List Int) : Nat := (dot l l).toNat / l.length

/-- The block holds the answer tone (R207): 2100 Hz ± 21 Hz at or above −`level` dBm0. -/
def hasTone (rate level : Nat) (l : List Int) : Bool :=
  decide (2079000 ≤ Config.toneHz rate l) && decide (Config.toneHz rate l ≤ 2121000)
    && decide (levelPower level < blockPower l)

/-- The two directions heard in a block: blocks for which each tone has lasted, and the
detectors' states. -/
def hear (t : EcTone) (rate level : Nat) (xs ss : List Int) : EcTone :=
  let run := fun (n : Nat) (l : List Int) => if hasTone rate level l then min 0xFFFF (n + 1) else 0
  { t with
    heard0 := run t.heard0 xs
    heard1 := run t.heard1 ss
    keep0 := Config.toneKeep t.keep0 xs % 4294967296
    keep1 := Config.toneKeep t.keep1 ss % 4294967296 }

/-- A step of phase of 180° ± 25° (R207). -/
def isReversal (deg : Nat) : Bool := decide (155 ≤ deg % 360) && decide (deg % 360 ≤ 205)

/-- The tone disabler at block end (R207), for the reference `xs` and the near-end input `ss`
of the block; 200 ms are 40 blocks.
DEDUCED, log entry 99. -/
def toneEnd (e : Ec) (level quiet hold : Nat) (xs ss : List Int) : Ec :=
  if bitOf e.cfg 6 = false then { e with tones := { e.tones with heard0 := 0, heard1 := 0 } }
  else
    let rate := if e.mode = 4 then 16 else 8
    let old := e.tones
    let t := { hear old rate level xs ss with quiet := 0 }
    let q := levelPower quiet
    match e.tone with
    | 0 =>
      if 40 ≤ t.heard0 then { e with tone := 1, tones := { t with dir := 0 } }
      else if 40 ≤ t.heard1 then { e with tone := 1, tones := { t with dir := 1 } }
      else { e with tones := t }
    | 1 =>
      let x := if t.dir = 0 then (old.keep0, xs, t.heard0) else (old.keep1, ss, t.heard1)
      if isReversal (Config.toneStep x.1 x.2.1) then { e with tone := 2, tones := t }
      else { e with tone := if x.2.2 = 0 then 0 else 1, tones := t }
    | 2 => { e with tone := if e.px ≤ q ∧ e.ps ≤ q then 3 else 2, tones := t }
    | _ =>
      if q < e.px ∨ q < e.ps then { e with tone := 2, tones := t }
      else if hold ≤ old.quiet + 1 then { e with tone := 0, dtd := 0, hang := 0, tones := t }
      else { e with tones := { t with quiet := old.quiet + 1 } }

/-- The shape of the comfort noise at block end: the lag-1 correlation of the errors of the
block's IDLE samples, Q1.15 (R206).
DESIGN CHOICE, log entry 167. -/
def shapeEnd (e : Ec) (idle : List Int) : Ec :=
  let r0 := dot idle idle
  if r0 = 0 then e
  else { e with tones := { e.tones with shape := clampInt (-32767) 32767 (dot idle idle.tail * 32768 / r0) } }

/-- The most that PN rises by in a block: 3 dB per second is 0.345 % a block, and a PN too small for
a unit of it rises by one in as many blocks as one takes (R206).
DEDUCED, log entry 166. -/
def noiseRise (e : Ec) : Nat :=
  let up := e.pn * 345 / 100000
  if up = 0 ∧ e.blkcnt % (100000 / (e.pn * 345) + 1) = 0 then 1 else up

/-- Background noise at block end (R206): down with PE at once, up towards it by no more than
`noiseRise` while DTD is IDLE or NEAR, then between its two levels.
DEDUCED, log entry 166. -/
def noiseEnd (e : Ec) (lo hi f : Nat) : Ec :=
  let up := Config.ecaNum f % (noiseRise e + 1)
  let n := if e.pe < e.pn then e.pe
    else if e.dtd = 0 ∨ e.dtd = 3 then min e.pe (e.pn + up)
    else e.pn
  let level := fun (l k : Nat) => levelPower l + Config.ecaNum (f + k) % 2
  { e with pn := min (max n (level lo 1)) (level hi 2) }

/-! ## BLOCK (R193, R195, R196) -/

/-- Samples written into the ring from position `p` on. -/
def ringPut (ring : List Int) (p : Nat) (l : List Int) : List Int :=
  match l with
  | [] => ring
  | x :: r => ringPut (ring.set (p % ring.length) x) (p + 1) r

/-- The gap rule (R195): whether the number is refused, whether there is a gap, and the
record with the missing blocks written as silence. -/
def gapRule (e : Ec) (number : Nat) : Option (Bool × Ec) :=
  let g := (number + 65536 - e.lastblk) % 65536
  let len := ecBlockLen e.mode
  if e.first ∨ g = 1 then some (false, e)
  else if g = 0 ∨ 32768 ≤ g then none
  else
    let ring := if 27 ≤ g then e.ring.map fun _ => 0 else e.ring
    let n := (g - 1) * len
    some (true, { e with
      ring := ringPut ring e.hpos (List.replicate (min n (ecRing e.mode)) 0)
      hpos := (e.hpos + n) % ecRing e.mode })

/-- History newest first. -/
def histNewest (e : Ec) : List Int := (e.ring.drop e.hpos ++ e.ring.take e.hpos).reverse

/-- What a block leaves: the record, the output, INFO, and what it counts and tells. -/
structure EcDone where
  e : Ec
  out : List Int
  info : Nat
  satc : Nat
  noref : Bool
  gap : Bool
  change : Option WinChange
  diverged : Bool
  converged : Bool
  f : Nat
  deriving DecidableEq, Repr

/-- Register values of a block (R217). -/
structure EcRegs where
  env : EcEnv
  convDb : Nat
  divN : Nat
  cngMin : Nat
  cngMax : Nat
  bdeThr : Nat
  replDb : Nat
  replN : Nat
  hold : Nat
  quiet : Nat
  level : Nat
  deriving DecidableEq, Repr

def ecRegs (s : State) (flags : Nat) : EcRegs :=
  let pos := fun (n : Nat) => if 0x8000 ≤ n then 0 else n
  let thr := csrFld s offEcaDtd 31 16
  let cmin := csrFld s offEcaNlp 23 16
  { env := {
      muConv := pos (csrFld s offEcaStep 31 16)
      muTrack := pos (csrFld s offEcaStep 15 0)
      delta := csrFld s offEcaAdapt 31 16
      thr := if thr = 0 ∨ 0x8000 ≤ thr then 1 else thr
      hangLen := csrFld s offEcaDtd 15 0
      nlpDb := csrFld s offEcaNlp 7 0
      suspend := flags.testBit 0
      bypass := flags.testBit 1
      nlpOff := flags.testBit 2 }
    convDb := max 12 (csrFld s offEcaAdapt 15 8)
    divN := csrFld s offEcaAdapt 7 0
    cngMin := cmin
    cngMax := min cmin (csrFld s offEcaNlp 15 8)
    bdeThr := csrFld s offEcaRepl 31 16
    replDb := csrFld s offEcaRepl 15 8
    replN := max 1 (csrFld s offEcaRepl 7 0)
    hold := max 1 (csrFld s offEcaTone 31 16)
    quiet := csrFld s offEcaTone 15 8
    level := csrFld s offEcaTone 7 0 }

/-- INFO of a BLOCK (R211). -/
def blockInfo (e : Ec) (noref changed diverged gap : Bool) : Nat :=
  let steps := (clampInt 0 31 (e.erle / 512)).toNat
  e.conv + e.dtd * 4 + boolBit e.nlp 4 + e.tone * 32 + boolBit noref 7 + boolBit changed 8
    + boolBit diverged 9 + boolBit gap 10 + steps * 2048

/-- A block processed (R193); none when its number is refused.  A block that places a window
compares none for re-placement, and what waits for FAR looks at its last sample.
DEDUCED, log entries 98, 183. -/
def ecBlock (v : EcRegs) (e0 : Ec) (number : Nat) (input : List Int) (f : Nat) : Option EcDone :=
  match gapRule e0 number with
  | none => none
  | some (gap, e1) =>
    let noref := e1.refvalid == 0
    let refin := if noref then e1.refin.map fun _ => 0 else e1.refin
    let env := { v.env with suspend := v.env.suspend || gap || noref }
    let stopped := e1.tone == 2 || e1.tone == 3
    let r := ecSamples env ⟨{ e1 with refin := refin }, histNewest e1, [], [], 0, f⟩ refin input
    let t := r.e.tones
    let e2 := measure { r.e with
      wins := r.e.wins.map ageWin
      tones := { t with since := if r.e.conv = 0 then 0 else (t.since + 1) % 4294967296 } } r.f
    let e3 := if e2.dtd = 1 ∧ stopped = false then estimate e2 r.stream input (r.f + 2) else e2
    let f1 := r.f + 2 + 2 * e3.bins.length
    let x := if e3.dtd = 1 ∧ stopped = false then placeWindow e3 v.bdeThr else (e3, none)
    let y := if stopped || x.2.isSome then (x.1, x.2) else replaceWindow x.1 v.replDb v.replN
    let d := if stopped then (y.1, false) else diverge y.1 v.divN
    let c := converge d.1 v.convDb
    let e4 := toneEnd (shapeEnd (noiseEnd c.1 v.cngMin v.cngMax f1) r.idle) v.level v.quiet v.hold refin input
    let e5 := { e4 with
      near := (input.reverse ++ e4.near).take 8
      ring := ringPut e4.ring e4.hpos refin
      hpos := (e4.hpos + ecBlockLen e4.mode) % ecRing e4.mode
      refvalid := 0
      blkcnt := (e4.blkcnt + 1) % 4294967296
      lastblk := number
      first := false }
    some {
      e := e5
      out := r.out.reverse
      info := blockInfo e5 noref y.2.isSome d.2 gap
      satc := r.satc
      noref := noref
      gap := gap
      change := y.2
      diverged := d.2
      converged := c.2
      f := f1 + 3 }

/-! ## Records in heartwood (R185, R210) -/

/-- The record and, for two-record modes, its partner, as a command names them. -/
structure EcRef where
  r : Nat
  owner : Nat
  cfg : Word
  mode : Nat
  link : Nat
  deriving DecidableEq, Repr

def ecRefOf (s : State) (r : Nat) : EcRef :=
  let b := memBytes s (ecAddr s r + 0xE00) 16
  let cfg := wordOf (leAt b 4 4)
  ⟨r, leAt b 2 2, cfg, fld cfg 2 0, leAt b 8 2⟩

def ecMagic (s : State) (r : Nat) : Nat := memNat s (ecAddr s r + 0xE00) 2

/-- The tail that a head names is initialised, of its mode, and names the head. -/
def ecTailOk (s : State) (h : EcRef) : Bool :=
  let t := ecRefOf s h.link
  decide (h.link < ecCount s) && ecMagic s h.link == 0x4543 && t.mode == h.mode + 1 && t.link == h.r

/-- The first uncorrectable word of the records of a head. -/
def ecBadWord (s : State) (h : EcRef) : Option Nat :=
  let bad := fun (r : Nat) => ((List.range 512).map fun i => ecAddr s r + 8 * i).find? fun a => isPoison s a
  match bad h.r with
  | some a => some a
  | none => if ecPair h.mode && decide (h.link < ecCount s) then bad h.link else none

/-- A record written afresh (R210): its four words, and every window of the mode that stands
in it not placed (R190). -/
def ecFresh (r magic owner : Nat) (cfg : Word) (link : Nat) (head : Bool) : List Byte :=
  let n := ecMaxWin (if head then fld cfg 2 0 else fld cfg 2 0 - 1)
  let wins := List.replicate (if head then 3 else n - 3) (winBytes noWin).2
  putAll (zeros 0x1000) [(0xE00, leBytes 2 magic ++ leBytes 2 owner ++ leBytes 4 cfg.toNat ++ leBytes 2 link),
    (0xE10, wins.flatten), (0xE2C, leBytes 4 (if head then 0x80 else 0)),
    (0xE46, leBytes 2 (if head then r + 1 else 0))]

/-- A record or pair as INIT writes it. -/
def ecWriteFresh (s : State) (h : EcRef) : State :=
  let s1 := memWrite s (ecAddr s h.r) (ecFresh h.r 0x4543 h.owner h.cfg h.link true)
  if ecPair h.mode then
    memWrite s1 (ecAddr s h.link) (ecFresh h.link 0x4543 h.owner (setFld h.cfg 2 0 (h.mode + 1)) h.r false)
  else s1

/-- Whether the word of MAGIC, OWNER and CFG of a record is unreadable, or that of LINK. -/
def ecHeadBad (s : State) (r : Nat) : Bool := isPoison s (ecAddr s r + 0xE00)
def ecLinkBad (s : State) (r : Nat) : Bool := isPoison s (ecAddr s r + 0xE08)
def ecCtlBad (s : State) (r : Nat) : Bool := ecHeadBad s r || ecLinkBad s r

/-- A record reinitialised after uncorrectable data from what it held of the four words; one of them
that was unreadable is a free value, and MAGIC is then 0 (R190, R210). -/
def ecReinit (s : State) (r : Nat) : State :=
  let h := ecRefOf s r
  let x := fun (bad : Bool) (k v : Nat) => if bad then Config.ecaNum (s.free + k) % 65536 else v
  let y := ecHeadBad s r
  let cfg := if y then wordOf (Config.ecaNum (s.free + 1)) else h.cfg
  let bytes := ecFresh r (if ecCtlBad s r then 0 else ecMagic s r) (x y 0 h.owner) cfg
    (x (ecLinkBad s r) 2 h.link) (y || (h.mode != 3 && h.mode != 5))
  { memWrite s (ecAddr s r) bytes with free := s.free + 3 }

/-- A command ends with code 0x07 (R210). -/
def ecUncorrectable (s : State) (h : EcRef) (code bad : Nat) : Nat × Nat × State :=
  let pair := ! ecCtlBad s h.r && ecPair h.mode && decide (h.link < ecCount s) && h.link != h.r
  let ctl := ecCtlBad s h.r || (pair && ecCtlBad s h.link)
  let owner := if ecHeadBad s h.r then Config.ecaNum s.free % 65536 else h.owner
  let s1 := ecReinit s h.r
  let s2 := if pair then ecReinit s1 h.link else s1
  (7, 0, raise (bump s2 offEcaRecerr) ecaSrc 1 owner (boolBit ctl 0)
    (leBytes 2 h.r ++ leBytes 1 code ++ zeros 1 ++ leBytes 4 bad))

/-- Fields of a command that must be zero (R208, R209). -/
def ecaFieldsOk (c : UnitCmd) : Bool :=
  match cmdCode c with
  | 1 => decide (cmdFlags c < 8)
  | 2 => cmdFlags c == 0
  | 5 => cmdFlags c == 0 && fld c.w2 31 16 == 0 && c.w3 == 0
  | _ => cmdFlags c == 0 && fld c.w2 31 16 == 0

/-- A CFG without bits that R188 leaves zero. -/
def ecCfgOk (w : Word) : Bool := ! bitOf w 3 && fld w 31 12 == 0

/-- What a command finds of its record: a refusal, or the head (R210).
DEDUCED, log entry 101. -/
def ecaFind (s : State) (c : UnitCmd) : Nat × EcRef :=
  let r := fld c.w2 15 0
  let h := ecRefOf s r
  if ecCount s ≤ r then (2, h)
  else if (ecBadWord s h).isSome then (7, h)
  else if ecMagic s r ≠ 0x4543 ∨ (h.mode ≠ 1 ∧ h.mode ≠ 2 ∧ h.mode ≠ 4) ∨ (ecPair h.mode ∧ ecTailOk s h = false) then (3, h)
  else if cmdChan c ≠ h.owner then (4, h)
  else (0, h)

/-- A command on an initialised record: refusals of R210, then `f`.
DEDUCED, log entries 96, 101. -/
def ecaOn (s : State) (c : UnitCmd) (f : EcRef → Nat × Nat × State) : Nat × Nat × State :=
  if ecaFieldsOk c = false then (1, 0, s)
  else
    let x := ecaFind s c
    if x.1 = 7 then
      match ecBadWord s x.2 with
      | none => (7, 0, s)
      | some a => ecUncorrectable s x.2 (cmdCode c) a
    else if x.1 ≠ 0 then (x.1, 0, s)
    else f x.2

def ecHeadBytes (s : State) (h : EcRef) : List Byte := memBytes s (ecAddr s h.r) 0x1000
def ecTailBytes (s : State) (h : EcRef) : List Byte :=
  if ecPair h.mode then memBytes s (ecAddr s h.link) 0x1000 else []

/-- A record and its partner written back. -/
def ecPut (s : State) (h : EcRef) (e : Ec) : State :=
  let s1 := memWrite s (ecAddr s h.r) (headOf e (ecHeadBytes s h))
  if ecPair h.mode then memWrite s1 (ecAddr s h.link) (tailOf e h.owner h.r) else s1

/-- Events of a block (R216). -/
def blockEvents (s : State) (h : EcRef) (old : Ec) (d : EcDone) : State :=
  let on := fun (i : Nat) => bitOf (csrGet s offEcaCtl) i
  let rec_ := leBytes 2 h.r
  let blk := leBytes 4 d.e.blkcnt
  let s1 := match d.change with
    | none => s
    | some w =>
      let s0 := bump s offEcaReplc
      if on 0 then
        raise s0 ecaSrc 3 h.owner (w.w + boolBit w.again 3)
          (rec_ ++ leBytes 2 w.old ++ leBytes 2 w.new ++ leBytes 1 w.bin ++ zeros 1 ++ blk)
      else s0
  let s2 := if d.diverged then
      let s0 := bump s1 offEcaDivrg
      if on 3 then raise s0 ecaSrc 4 h.owner 0 (rec_ ++ leBytes 2 (d.e.erle % 65536).toNat ++ blk) else s0
    else s1
  let s3 := if d.converged && on 1 then
      raise s2 ecaSrc 5 h.owner 0 (rec_ ++ leBytes 2 (d.e.erle % 65536).toNat ++ leBytes 4 d.e.tones.since)
    else s2
  if old.tone ≠ d.e.tone ∧ (old.tone = 2 ∨ d.e.tone = 2) ∧ on 2 then
    raise s3 ecaSrc 2 h.owner (d.e.tone + old.tone * 4)
      (rec_ ++ leBytes 1 d.e.tones.dir ++ zeros 1 ++ blk)
  else s3

/-- BLOCK (R193), with input bytes as they stand.
DEDUCED, log entry 182. -/
def ecaBlock (s : State) (c : UnitCmd) : Nat × Nat × State :=
  ecaOn s c fun h =>
    let a := c.w3.toNat
    let n := 2 * ecBlockLen h.mode
    if a % 8 ≠ 0 ∨ inHeartwood a n = false ∨ (ecAddr s 0 < a + n ∧ a < ecAddr s (ecCount s)) then (5, 0, s)
    else
      let e := ecOf (ecHeadBytes s h) (ecTailBytes s h)
      match ecBlock (ecRegs s (cmdFlags c)) e (fld c.w2 31 16) (samplesOf (memBytes s a n)) s.free with
      | none => (10, 0, s)
      | some d =>
        let s1 := { ecPut (memWrite s a (bytesOf16 d.out)) h d.e with free := d.f }
        let s2 := cntAdd (bump s1 offEcaBlk) offEcaSatc d.satc
        let s3 := if d.noref then bump s2 offEcaNoref else s2
        let s4 := if d.gap then bump s3 offEcaGap else s3
        (0, d.info, blockEvents s4 h e d)

/-- INIT (R209, R210), which reads nothing of the record.
DEDUCED, log entry 182. -/
def ecaInit (s : State) (c : UnitCmd) : Nat × Nat × State :=
  let r := fld c.w2 15 0
  let p := fld c.w2 31 16
  let mode := fld c.w3 2 0
  if ecaFieldsOk c = false then (1, 0, s)
  else if ecCount s ≤ r ∨ (ecPair mode ∧ ecCount s ≤ p) then (2, 0, s)
  else if (ecPair mode ∧ p = r) ∨ (mode = 1 ∧ p ≠ 0) then (6, 0, s)
  else if ecCfgOk c.w3 = false ∨ (mode ≠ 1 ∧ mode ≠ 2 ∧ mode ≠ 4) then (9, 0, s)
  else (0, 0, ecWriteFresh s ⟨r, cmdChan c, c.w3, mode, p⟩)

/-- A SAVE or RESTORE area: aligned, in heartwood, outside the records named (R209). -/
def ecAreaOk (s : State) (h : EcRef) (a : Nat) : Bool :=
  let n := if ecPair h.mode then 0x2000 else 0x1000
  let apart := fun (r : Nat) => decide (a + n ≤ ecAddr s r) || decide (ecAddr s r + 0x1000 ≤ a)
  a % 0x1000 == 0 && inHeartwood a n && apart h.r && (! ecPair h.mode || apart h.link)

def ecaSave (s : State) (c : UnitCmd) : Nat × Nat × State :=
  ecaOn s c fun h =>
    if ecAreaOk s h c.w3.toNat = false then (5, 0, s)
    else (0, 0, memWrite s c.w3.toNat (ecHeadBytes s h ++ ecTailBytes s h))

/-- Windows of an image are in range and do not overlap. -/
def winsOk (mode : Nat) (starts : List Nat) : Bool :=
  match starts with
  | [] => true
  | x :: r =>
    (x == 0xFFFF || (decide (x ≤ ecRing mode - 128) && r.all fun y => y == 0xFFFF || ! overlaps x y)) && winsOk mode r

/-- RESTORE (R209, R210): an image names its target's present tail, and one that does not read is
not consistent.
DEDUCED, log entries 96, 182. -/
def ecaRestore (s : State) (c : UnitCmd) : Nat × Nat × State :=
  ecaOn s c fun h =>
    let a := c.w3.toNat
    if ecAreaOk s h a = false then (5, 0, s)
    else
      let head := memBytes s a 0x1000
      let cfg := wordOf (leAt head 0xE04 4)
      let mode := fld cfg 2 0
      let link := leAt head 0xE08 2
      let tail := if ecPair mode then memBytes s (a + 0x1000) 0x1000 else []
      let start := fun (w : Nat) => if w < 3 then leAt head (0xE10 + 8 * w) 2 else leAt tail (0xE10 + 8 * (w - 3)) 2
      let st := wordOf (leAt head 0xE2C 4)
      if link ≠ (if ecPair mode then h.link else 0) ∨ (ecPair mode ∧ ecPair h.mode = false) then (6, 0, s)
      else if leAt head 0xE00 2 ≠ 0x4543 ∨ (mode ≠ 1 ∧ mode ≠ 2 ∧ mode ≠ 4) ∨ leAt head 0xE02 2 ≠ cmdChan c
          ∨ winsOk mode ((List.range (ecMaxWin mode)).map start) = false ∨ fld st 1 0 = 3 ∨ fld st 31 8 ≠ 0
          ∨ anyPoison s a (head.length + tail.length) then (8, 0, s)
      else
        let head1 := putAll head [(0xE2C, leBytes 4 (setBit st 7 true).toNat), (0xE74, zeros 4)]
        let s1 := memWrite s (ecAddr s h.r) head1
        (0, 0, if ecPair mode then memWrite s1 (ecAddr s h.link) tail else s1)

/-- RESET (R209). -/
def ecaReset (s : State) (c : UnitCmd) : Nat × Nat × State :=
  ecaOn s c fun h =>
    let e := ecOf (ecHeadBytes s h) (ecTailBytes s h)
    (0, 0, ecPut s h { e with
      wins := e.wins.map fun _ => noWin
      bins := e.bins.map fun _ => 0
      conv := 0
      convCnt := 0
      tones := { e.tones with since := 0 } })

/-- SETCFG (R209): a tone state other than NORMAL ends when TONE_EN is cleared (R207). -/
def ecaSetcfg (s : State) (c : UnitCmd) : Nat × Nat × State :=
  ecaOn s c fun h =>
    if ecCfgOk c.w3 = false ∨ fld c.w3 2 0 ≠ h.mode then (9, 0, s)
    else
      let e := ecOf (ecHeadBytes s h) (ecTailBytes s h)
      let e1 := { e with cfg := c.w3, tone := if bitOf c.w3 6 then e.tone else 0 }
      let s1 := ecPut s h e1
      (0, 0, if e.tone = 2 ∧ e1.tone = 0 ∧ bitOf (csrGet s offEcaCtl) 2 then
          raise s1 ecaSrc 2 h.owner (e.tone * 4) (leBytes 2 h.r ++ leBytes 1 e.tones.dir ++ zeros 1 ++ leBytes 4 e.blkcnt)
        else s1)

/-! ## Queue and clusters (R182, R208, R212) -/

/-- The lowest-numbered idle cluster. -/
def idleCluster (s : State) : Option Nat := (List.range 4).find? fun c => ! s.eca.busy.contains c

/-- The ordering number of a command: the record it names and its partner, or the record
twice (R212). -/
def ecaKey (s : State) (c : UnitCmd) : Nat :=
  let r := fld c.w2 15 0
  let h := ecRefOf s r
  let p := if cmdCode c = 2 then (if ecPair (fld c.w3 2 0) then fld c.w2 31 16 else r)
    else if r < ecCount s ∧ ecMagic s r = 0x4543 ∧ 2 ≤ h.mode ∧ h.mode ≤ 5 then h.link else r
  r + 65536 * p

/-- Two commands name a common record, or records of one pair (R212). -/
def ecaSame (a b : Nat) : Bool :=
  a % 65536 == b % 65536 || a % 65536 == b / 65536 || a / 65536 == b % 65536 || a / 65536 == b / 65536

/-- Whether the array begins no command: every cluster is busy, or it holds a completion
(R173, R182). -/
def ecaHeld (s : State) : Bool := unitHeld ecaSame s s.eca.unit ecaSrc

/-- The cluster for the next command to begin (R173, R182). -/
def ecaFree (s : State) : Option Nat := if ecaHeld s then none else idleCluster s

/-- The code is one of R209. -/
def ecaKnown (c : UnitCmd) : Bool := decide (1 ≤ cmdCode c) && decide (cmdCode c ≤ 6)

/-- Commands of no known code that stand at the head begun, each ending with code 0x01, at
most `n` of them (R142, R210). -/
def ecaSettleN (n : Nat) (s : State) : State :=
  match n with
  | 0 => s
  | n + 1 =>
    match ecaFree s, s.eca.unit.q with
    | some k, c :: r =>
      if ecaKnown c then s
      else ecaSettleN n { s with eca :=
        ⟨unitEnd { s.eca.unit with q := r } c 1 ecaSrc 0 (ecaKey s c), s.eca.busy ++ [k]⟩ }
    | _, _ => s

def ecaSettle (s : State) : State := ecaSettleN s.eca.unit.q.length s

/-- The head command begun on a cluster when its code is `code`. -/
def ecaTake (s : State) (code : Nat) (f : State → UnitCmd → Nat × Nat × State) : State :=
  match ecaFree s, unitTake s.eca.unit code with
  | some k, some (c, u) =>
    let r := f (correctAt { s with eca := { s.eca with unit := u } } (unitPlace ecaSrc) offEcaEcc) c
    let s1 := cntAdd r.2.2 (offEcaClcyc + 8 * k) (Config.ecaNum r.2.2.free % 2801)
    { s1 with
      free := s1.free + 1
      eca := ⟨unitEnd s1.eca.unit c r.1 ecaSrc r.2.1 (ecaKey s c), s1.eca.busy ++ [k]⟩ }
  | _, _ => s

/-- A command of code `code` begins when it stands at the head of the queue and the array
can begin it; commands of no known code before and behind it end. -/
def ecaBegin (s : State) (code : Nat) (f : State → UnitCmd → Nat × Nat × State) : State :=
  ecaSettle (ecaTake (ecaSettle s) code f)

def execEcaBlock (s : State) : Result := .next (ecaBegin s 1 ecaBlock)
def execEcaInit (s : State) : Result := .next (ecaBegin s 2 ecaInit)
def execEcaSave (s : State) : Result := .next (ecaBegin s 3 ecaSave)
def execEcaRestore (s : State) : Result := .next (ecaBegin s 4 ecaRestore)
def execEcaReset (s : State) : Result := .next (ecaBegin s 5 ecaReset)
def execEcaSetcfg (s : State) : Result := .next (ecaBegin s 6 ecaSetcfg)

/-- A CPX to UNIT 0 (R208); none when the queue is full. -/
def ecaEnqueue (s : State) (c : UnitCmd) : Option State :=
  if 512 ≤ s.eca.unit.q.length then none
  else
    let u := s.eca.unit
    some (ecaSettle { s with eca := { s.eca with unit := { u with q := u.q ++ [c] } } })

def execEcaCompletionDeliver (i : Nat) (s : State) : Result :=
  .next (match deliverDone ecaSame s s.eca.unit i ecaSrc with
    | none => s
    | some (s1, d) => ecaSettle { s1 with eca := ⟨{ s1.eca.unit with done := d }, s1.eca.busy.eraseIdx i⟩ })

/-- ECA_STAT. -/
def ecaStat (s : State) : Word :=
  wordOf (((List.range 4).map fun c => boolBit (s.eca.busy.contains c) (24 + c)).sum
    + boolBit (ecaHeld s) 16 + s.eca.unit.q.length)

end Sys2Proof.Machine
end

