-- ==== Sys2Proof/Machine/Chains.lean ====
section
/-! DEFINITION. The resampler and filter bank (07_resampler_filters.md): chain state
blocks, the resampler, the stages, drift correction, and every RSF row of the opcode table.
The resampler's prototype is a free value, for the spec gives its response alone. -/

namespace Sys2Proof.Machine

def rsfSrc : Nat := 0x05

/-! ## The state block (R222–R225) -/

/-- An energy detector (R238). -/
structure Det where
  src : Nat
  sm : Nat
  on : Bool
  onThr : Nat
  offThr : Nat
  e : Nat
  deriving DecidableEq, Repr

/-- A chain: its state block and what stands beside it.  PHACC, which is opaque to firmware,
holds the position `frac` and WSTART_prev as far as it fits; `anchor`, `cnt`,
`oldDelay`, `skip`, `past` and the rest of `wprev` are `RsfSide`'s. -/
structure Chain where
  magic : Nat
  owner : Nat
  cfg : Word
  dest : Word
  tgt : Word
  nomstep : Nat
  trim : Int
  frac : Nat
  cnt : Nat
  oldDelay : Nat
  skip : Nat
  past : List Int
  wprev : Int
  anchor : Bool
  delay : Nat
  delayNew : Nat
  xfcnt : Nat
  xfkind : Nat
  settle : Nat
  active : Nat
  flags : Nat
  fifo : List Int
  head : Nat
  runcnt : Nat
  priv : List Byte
  anchorTs : Nat
  anchorT : Int
  wstart : Int
  wmin : Int
  pmin : Int
  lasto : Int
  nwin : Nat
  dets : List Det
  dline : List Int
  histA : List Int
  histB : List Int
  bankA : List Byte
  bankB : List Byte
  deriving DecidableEq, Repr

def int64At (b : List Byte) (o : Nat) : Int := signed 64 (leAt b o 8)

def detOf (b : List Byte) (d : Nat) : Det :=
  let o := 0x80 + 16 * d
  ⟨byteAt b o, byteAt b (o + 1), byteAt b (o + 2) % 2 == 1, leAt b (o + 4) 4, leAt b (o + 8) 4, leAt b (o + 12) 4⟩

def detBytes (d : Det) : List Byte :=
  leBytes 1 d.src ++ leBytes 1 d.sm ++ leBytes 1 d.on.toNat ++ zeros 1 ++ leBytes 4 d.onThr ++ leBytes 4 d.offThr
    ++ leBytes 4 d.e

/-- The chain of a state block, with nothing beside it.
DEDUCED, log entry 103. -/
def chainOf (b : List Byte) : Chain :=
  let ph := leAt b 0x18 8
  let lvl := min 128 (leAt b 0x28 2)
  let head := leAt b 0x2A 2 % 128
  let ring := samplesOf ((b.drop 0xC0).take 256)
  { magic := leAt b 0 2
    owner := leAt b 2 2
    cfg := wordOf (leAt b 4 4)
    dest := wordOf (leAt b 8 4)
    tgt := wordOf (leAt b 0xC 4)
    nomstep := leAt b 0x10 4
    trim := signed 32 (leAt b 0x14 4)
    frac := ph % 2 ^ 28
    cnt := 0
    oldDelay := 0
    skip := 0
    past := []
    wprev := (ph / 2 ^ 28 % 2 ^ 35 : Nat)
    anchor := false
    delay := byteAt b 0x20
    delayNew := byteAt b 0x21
    xfcnt := byteAt b 0x22
    xfkind := byteAt b 0x23
    settle := leAt b 0x24 2
    active := byteAt b 0x26 % 2
    flags := byteAt b 0x27
    fifo := (ring.drop head ++ ring.take head).take lvl
    head := head
    runcnt := leAt b 0x2C 4
    priv := (b.drop 0x30).take 16
    anchorTs := leAt b 0x40 4
    anchorT := int64At b 0x48
    wstart := int64At b 0x50
    wmin := int64At b 0x58
    pmin := int64At b 0x60
    lasto := int64At b 0x68
    nwin := leAt b 0x70 2
    dets := (List.range 4).map (detOf b)
    dline := samplesOf ((b.drop 0x1C0).take 80)
    histA := samplesOf ((b.drop 0x210).take 64)
    histB := samplesOf ((b.drop 0x250).take 64)
    bankA := (b.drop 0x290).take 184
    bankB := (b.drop 0x348).take 184 }

/-- Samples held to `n` entries, zeros after them. -/
def padInts (n : Nat) (l : List Int) : List Int := l.take n ++ List.replicate (n - l.length) 0

/-- The ring with the held samples at `head`, zeros elsewhere. -/
def ringOf (head : Nat) (l : List Int) : List Int :=
  let r := padInts 128 l
  r.drop (128 - head) ++ r.take (128 - head)

def bytes64 (x : Int) : List Byte := leBytes 8 (x % 2 ^ 64).toNat

/-- DEDUCED, log entry 103. -/
def phacc (c : Chain) : Nat :=
  c.frac % 2 ^ 28 + (c.wprev % 2 ^ 36).toNat * 2 ^ 28

/-- A chain with what stands beside its block. -/
def withSide (c : Chain) (x : RsfSide) : Chain :=
  { c with
    cnt := x.cnt
    oldDelay := x.oldDelay
    skip := x.skip
    past := x.past
    anchor := x.anchor
    wprev := x.wprev / 2 ^ 36 * 2 ^ 36 + c.wprev % 2 ^ 36 }

/-- What stands beside the block of a chain; `line` is the old path's delay line. -/
def sideOf (c : Chain) (line : List Int) : RsfSide where
  wprev := c.wprev
  anchor := c.anchor
  oldLine := line
  oldDelay := c.oldDelay
  cnt := c.cnt
  skip := c.skip
  past := c.past

/-- The 1,024 bytes of a state block.
DEDUCED, log entry 103. -/
def chainBytes (c : Chain) : List Byte :=
  padTo 1024 (leBytes 2 c.magic ++ leBytes 2 c.owner ++ leBytes 4 c.cfg.toNat ++ leBytes 4 c.dest.toNat
    ++ leBytes 4 c.tgt.toNat ++ leBytes 4 c.nomstep ++ leBytes 4 (c.trim % 4294967296).toNat ++ leBytes 8 (phacc c)
    ++ leBytes 1 c.delay ++ leBytes 1 c.delayNew ++ leBytes 1 c.xfcnt ++ leBytes 1 c.xfkind ++ leBytes 2 c.settle
    ++ leBytes 1 c.active ++ leBytes 1 c.flags ++ leBytes 2 c.fifo.length ++ leBytes 2 c.head ++ leBytes 4 c.runcnt
    ++ padTo 16 c.priv ++ leBytes 4 c.anchorTs ++ zeros 4 ++ bytes64 c.anchorT ++ bytes64 c.wstart ++ bytes64 c.wmin
    ++ bytes64 c.pmin ++ bytes64 c.lasto ++ leBytes 2 c.nwin ++ zeros 14 ++ c.dets.flatMap detBytes
    ++ bytesOf16 (ringOf c.head c.fifo) ++ bytesOf16 (padInts 40 c.dline) ++ bytesOf16 (padInts 32 c.histA)
    ++ bytesOf16 (padInts 32 c.histB) ++ padTo 184 c.bankA ++ padTo 184 c.bankB)

/-! ## CFG and banks (R224, R225) -/

def rsEn (c : Word) : Bool := bitOf c 0
def inRate (c : Word) : Nat := fld c 2 1
def outRate (c : Word) : Nat := fld c 4 3
def rtpClk (c : Word) : Nat := fld c 6 5
def driftEn (c : Word) : Bool := bitOf c 7
def toneClass (c : Word) : Bool := bitOf c 8
def destRec (c : Word) : Bool := bitOf c 9

/-- Samples of 5 ms at a rate. -/
def rateLen (r : Nat) : Nat := if r = 0 then 40 else if r = 1 then 80 else 240

def outN (c : Word) : Nat := rateLen (outRate c)

/-- NOMSTEP (R227). -/
def nomStep (c : Word) : Nat :=
  let a := rateLen (inRate c)
  let b := rateLen (outRate c)
  (a * 2 ^ 28 + b / 2) / b

/-- STEP (R227). -/
def stepOf (c : Chain) : Nat :=
  if rsEn c.cfg then ((c.nomstep : Int) + (c.nomstep : Int) * c.trim / 2 ^ 40).toNat else 2 ^ 28

/-- A stage of a bank (R225): TYPE, TAPS, SHIFT, DECIM and its coefficients. -/
structure Stage where
  type : Nat
  taps : Nat
  shift : Int
  decim : Nat
  h : List Int
  deriving DecidableEq, Repr

/-- The stages of a bank, up to the first of TYPE 0. -/
def stagesFrom (fuel : Nat) (desc : List Byte) (coefs : List Int) : List Stage :=
  match fuel with
  | 0 => []
  | fuel + 1 =>
    if byteAt desc 0 = 0 then []
    else
      let taps := byteAt desc 1
      ⟨byteAt desc 0, taps, signed 8 (byteAt desc 2), byteAt desc 3, coefs.take taps⟩
        :: stagesFrom fuel (desc.drop 4) (coefs.drop taps)

def stagesOf (bank : List Byte) : List Stage := stagesFrom 4 (bank.take 16) (samplesOf (bank.drop 16))

def stageHist (x : Stage) : Nat := if x.type = 1 then 4 else x.taps - 1

/-- The product of the DECIM values. -/
def decimOf (l : List Stage) : Nat := (l.map fun x => x.decim).foldl (fun a b => a * b) 1

def bankEmpty (bank : List Byte) : Bool := (bank.take 16).all fun b => b == 0

/-- A stage descriptor's values lie in range (R225). -/
def stageOk (x : Stage) : Bool :=
  decide (-8 ≤ x.shift) && decide (x.shift ≤ 3)
    && (if x.type = 1 then x.taps == 5 && x.decim == 1
        else x.type == 2 && decide (1 ≤ x.taps) && decide (x.taps ≤ 32)
          && (x.decim == 1 || x.decim == 2 || x.decim == 4 || x.decim == 8))

/-- A bank is valid for a chain (R225). -/
def bankOk (cfg : Word) (bank : List Byte) : Bool :=
  let l := stagesOf bank
  ((bank.take 16).drop (4 * l.length)).all (fun b => b == 0)
    && l.all stageOk && decide ((l.map fun x => x.taps).sum ≤ 84) && decide ((l.map stageHist).sum ≤ 32)
    && decide (0 < decimOf l) && outN cfg % decimOf l == 0 && (toneClass cfg || decimOf l == 1)

/-- Banks agree in TYPE, TAPS and DECIM at every stage. -/
def compatible (a b : List Byte) : Bool :=
  (List.range 4).all fun i =>
    [0, 1, 3].all fun k => byteAt a (4 * i + k) == byteAt b (4 * i + k)

/-! ## Stage arithmetic (R226) -/

/-- The output of a stage from its exact sum, and whether it saturates. -/
def stageRound (acc : Int) (shift : Int) : Int × Bool :=
  let k := (16 - shift).toNat
  let y := (2 * acc + 2 ^ (k - 1)) / 2 ^ k
  (sat16 y, decide (y < -32768) || decide (32767 < y))

/-- What a stage makes of one input: its output, its history after it, and saturation.
`due` says whether it computes an output. -/
def stageStep (x : Stage) (hist : List Int) (v : Int) (due : Bool) : Option Int × List Int × Bool :=
  if x.type = 1 then
    let g := fun (i : Nat) => hist.getD i 0
    let b := fun (i : Nat) => x.h.getD i 0
    let y := stageRound (b 0 * v + b 1 * g 0 + b 2 * g 1 - b 3 * g 2 - b 4 * g 3) x.shift
    (some y.1, [v, g 0, y.1, g 2], y.2)
  else
    let w := v :: hist
    let next := w.take (x.taps - 1)
    if due then
      let y := stageRound (dot x.h w) x.shift
      (some y.1, next, y.2)
    else (none, next, false)

/-- One sample through the stages: the outputs of each stage that computed one, the final
output, the history, and the saturated outputs.  `n` counts samples since the step. -/
def runStages (l : List Stage) (hist : List Int) (n : Nat) (v : Int) : List (Option Int) × Option Int × List Int × Nat :=
  match l with
  | [] => ([], some v, [], 0)
  | x :: r =>
    let y := stageStep x (hist.take (stageHist x)) v (n % x.decim == 0)
    let rest := hist.drop (stageHist x)
    match y.1 with
    | none => (List.replicate (r.length + 1) none, none, y.2.1 ++ rest, y.2.2.toNat)
    | some o =>
      let z := runStages r rest (n / x.decim) o
      (some o :: z.1, z.2.1, y.2.1 ++ z.2.2.1, y.2.2.toNat + z.2.2.2)

/-! ## Steps and settling (R235, R236) -/

/-- The settling length L (R236). -/
def settleLen (s : State) (c : Chain) : Nat :=
  let bank := if c.active = 0 then c.bankA else c.bankB
  let l := stagesOf bank
  (if rsEn c.cfg then 16 else 0)
    + (l.map fun x => if x.type = 2 then x.taps - 1 else csrFld s offRsfSettle 7 0).sum

/-- A step: the active history cleared, and the settling of the chain's class begun. -/
def chainStep (s : State) (c : Chain) (whole : Bool) : Chain :=
  let c1 := if c.active = 0 then { c with histA := List.replicate 32 0 } else { c with histB := List.replicate 32 0 }
  let c2 := if whole then { c1 with fifo := [], head := 0, frac := 0, wprev := 0, past := [] } else c1
  { c2 with
    cnt := 0
    settle := if toneClass c.cfg then 0 else settleLen s c
    skip := if toneClass c.cfg then 15 else 0 }

/-! ## Drift correction (R229) -/

/-- RTP units per second. -/
def rtpRate (cfg : Word) : Nat := if rtpClk cfg = 0 then 8000 else if rtpClk cfg = 1 then 16000 else 48000

/-- The trim limit in trim units. -/
def trimLimit (s : State) : Int := ((min 1000 (csrFld s offRsfDrift 9 0) * 2 ^ 40 / 1000000 : Nat) : Int)

/-- What an observation leads to. -/
structure DriftEnd where
  c : Chain
  new : Bool
  clamped : Option Int
  restart : Option Int
  deriving DecidableEq, Repr

/-- An observation: RTP timestamp and arrival time (R229).
DEDUCED, log entry 104. -/
def observe (s : State) (c : Chain) (ts : Nat) (t : Int) : DriftEnd :=
  let set := fun (c : Chain) => { c with
    anchor := true, anchorTs := ts, anchorT := t, wstart := t, wmin := 0, lasto := 0, nwin := 0 }
  if c.anchor = false then ⟨set c, false, none, none⟩
  else
    let rate := rtpRate c.cfg
    let d : Int := ((ts + 4294967296 - c.anchorTs) % 4294967296 : Nat)
    let o := ((t - c.anchorT) * rate - d * 1000000000) / rate
    let jump : Int := (max 1 (csrFld s offRsfDriftj 15 0) * 1000000 : Nat)
    if jump < (o - c.lasto).natAbs then ⟨set c, false, none, some o⟩
    else
      let wmin := min c.wmin o
      let win : Int := (max 1 (csrFld s offRsfDrift 31 24) * 1000000000 : Nat)
      if t < c.wstart + win then ⟨{ c with lasto := o, wmin := wmin }, false, none, none⟩
      else
        let est := 2 * (c.pmin - wmin) * 2 ^ 40 / (t - c.wprev)
        let raw := if c.nwin = 1 then est else c.trim + (est - c.trim) / 2 ^ csrFld s offRsfDrift 19 16
        let lim := trimLimit s
        let trim := clampInt (-lim) lim raw
        let use := decide (1 ≤ c.nwin)
        ⟨{ c with
            lasto := o
            trim := if use then trim else c.trim
            pmin := wmin
            wprev := c.wstart
            wstart := t
            wmin := o
            nwin := min 0xFFFF (c.nwin + 1) },
          use, if use && decide (trim ≠ raw) then some raw else none, none⟩

/-! ## One block (R221, R228, R231–R233, R238) -/

/-- Work on a RUN. -/
structure RsfRun where
  c : Chain
  /-- Delay line of the old path while a fade runs, newest first. -/
  oldLine : List Int
  /-- The latest output of the old path. -/
  oldLast : Int
  out : List Int
  short : Bool
  sat : Nat
  swapped : Bool
  settling : Bool
  /-- Detectors that changed, and the index of the first change. -/
  changed : Nat
  firstAt : Option Nat
  /-- Samples that each source produced: stages 0–3 and the resampler. -/
  counts : List Nat
  /-- SWAPPOS and whether it fades, until the swap is taken. -/
  swapAt : Option (Nat × Bool)
  deriving DecidableEq, Repr

def bankOf (c : Chain) (k : Nat) : List Byte := if k = 0 then c.bankA else c.bankB
def histOf (c : Chain) (k : Nat) : List Int := if k = 0 then c.histA else c.histB
def putHist (c : Chain) (k : Nat) (h : List Int) : Chain :=
  if k = 0 then { c with histA := padInts 32 h } else { c with histB := padInts 32 h }

/-- Input samples to one sample of the lower rate (R227). -/
def rateStep (cfg : Word) : Nat := max 1 (rateLen (inRate cfg) / rateLen (outRate cfg))

/-- A coefficient of the prototype at a position: linear between adjacent phases, exact, in
units of 2⁻³⁶ (R227). -/
def polyCoef (cfg : Word) (frac tap : Nat) : Int :=
  let h := fun (ph : Nat) => Config.rsfProto (inRate cfg) (outRate cfg) ph tap
  let ph := frac / 2 ^ 21
  let w : Int := (frac % 2 ^ 21 : Nat)
  h ph * (2 ^ 21 - w) + h (ph + 1) * w

/-- A resampled sample (R227): the 16 taps at the lower rate over the samples consumed, newest
first, rounded half up to Q1.15. -/
def polyphase (cfg : Word) (frac : Nat) (past : List Int) : Int :=
  let coefs := (List.range (16 * rateStep cfg)).map (polyCoef cfg frac)
  sat16 ((dot coefs past + 2 ^ 35) / 2 ^ 36)

/-- The next resampler output (R227, R228).
DESIGN CHOICE, log entry 25. -/
def resample (r : RsfRun) : Int × RsfRun :=
  let c := r.c
  if r.short then (0, r)
  else
    let pos := c.frac + stepOf c
    let k := pos / 2 ^ 28
    if c.fifo.length < k then (0, { r with c := { c with fifo := [], head := (c.head + c.fifo.length) % 128 }, short := true })
    else
      let past := ((c.fifo.take k).reverse ++ c.past).take 96
      let v := if rsEn c.cfg then polyphase c.cfg (pos % 2 ^ 28) past else c.fifo.headD 0
      (v, { r with c := { c with
        fifo := c.fifo.drop k, head := (c.head + k) % 128, frac := pos % 2 ^ 28, past := past } })

/-- A bank swap taken at the present sample (R232, R233, R235).
DEDUCED, log entry 102. -/
def takeSwap (s : State) (r : RsfRun) (fade : Bool) : RsfRun :=
  let c := r.c
  let new := 1 - c.active
  let comp := compatible (bankOf c c.active) (bankOf c new)
  let c1 := putHist c new (if comp then histOf c c.active else [])
  let c2 := { c1 with active := new, flags := c1.flags / 4 * 4 }
  let c3 :=
    if fade then { c2 with xfcnt := 32, xfkind := 1, oldDelay := c2.delay }
    else if comp then c2
    else chainStep s c2 false
  { r with c := c3, swapped := true, oldLine := if fade then c3.dline else r.oldLine }

/-- A delay change taken at the present sample (R231, R233, R234).
DEDUCED, log entry 102. -/
def takeDelay (r : RsfRun) (fade : Bool) : RsfRun :=
  let c := r.c
  let c1 := { c with delay := c.delayNew, flags := c.flags % 4 }
  if 0 < c.xfcnt then { r with c := c1 }
  else if fade then { r with c := { c1 with xfcnt := 32, xfkind := 2, oldDelay := c.delay }, oldLine := c.dline }
  else { r with c := c1 }

/-- Changes that fall due before resampler sample `i`, unless a fade runs (R234). -/
def takeChanges (s : State) (r : RsfRun) (i : Nat) : RsfRun :=
  if 0 < r.c.xfcnt then
    match r.swapAt with
    | some (p, fade) =>
      if p ≤ i then
        { r with swapAt := none, c := { r.c with flags := r.c.flags / 4 * 4 + 1 + boolBit fade 1 } }
      else r
    | none => r
  else
    let delayDue := r.c.flags.testBit 2
    let delayFades := r.c.flags.testBit 3
    let r1 :=
      match r.swapAt with
      | some (p, fade) =>
        if r.c.flags.testBit 0 then takeSwap s r (r.c.flags.testBit 1 || (delayDue && delayFades))
        else if p ≤ i then takeSwap s { r with swapAt := none } (fade || (delayDue && delayFades))
        else r
      | none =>
        if r.c.flags.testBit 0 then takeSwap s r (r.c.flags.testBit 1 || (delayDue && delayFades)) else r
    if delayDue then takeDelay r1 delayFades else r1

/-- A detector fed one sample of its source (R238): the detector, and whether it changed. -/
def feedDet (d : Det) (x : Int) : Det × Bool :=
  let e := ((d.e : Int) + (x * x - d.e) / 2 ^ d.sm).toNat
  let on := if d.on then decide (d.offThr ≤ e) else decide (d.onThr ≤ e)
  ({ d with e := e, on := on }, on != d.on)

/-- The detectors after the samples of their sources: `src i` is what source `i` produced. -/
def feedDets (r : RsfRun) (quiet : Bool) (src : Nat → Option Int) (ds : List Det) (i : Nat) : List Det × RsfRun :=
  match ds with
  | [] => ([], r)
  | d :: t =>
    match (if d.src ≤ 4 then src d.src else none) with
    | none =>
      let x := feedDets r quiet src t (i + 1)
      (d :: x.1, x.2)
    | some v =>
      if quiet then
        let x := feedDets r quiet src t (i + 1)
        (d :: x.1, x.2)
      else if r.c.skip.testBit i then
        let x := feedDets { r with c := { r.c with skip := r.c.skip - 2 ^ i } } quiet src t (i + 1)
        (d :: x.1, x.2)
      else
        let y := feedDet d v
        let r1 := if y.2 then { r with
            changed := r.changed ||| 2 ^ i
            firstAt := match r.firstAt with
              | none => some (r.counts.getD d.src 0)
              | some k => some k }
          else r
        let x := feedDets r1 quiet src t (i + 1)
        (y.1 :: x.1, x.2)

/-- The chain's sample `d` back from the newest. -/
def delayed (line : List Int) (d : Nat) : Int := line.getD d 0

/-- One resampler sample through the chain: sample `i` of the block. -/
def rsfSample (s : State) (r0 : RsfRun) (i : Nat) : RsfRun :=
  let r1 := takeChanges s r0 i
  let x := resample r1
  let r2 := x.2
  let c := r2.c
  let bank := stagesOf (bankOf c c.active)
  let y := runStages bank (histOf c c.active) c.cnt x.1
  let fading := decide (0 < c.xfcnt)
  let old := if fading && c.xfkind == 1 then
      some (runStages (stagesOf (bankOf c (1 - c.active))) (histOf c (1 - c.active)) c.cnt x.1)
    else none
  let c1 := putHist c c.active (y.2.2.1)
  let c2 := match old with
    | some z => putHist c1 (1 - c1.active) z.2.2.1
    | none => c1
  let sat := y.2.2.2 + (match old with
    | some z => z.2.2.2
    | none => 0)
  let oldOut := match old with
    | some z => z.2.1
    | none => y.2.1
  let src := fun (k : Nat) => if k = 4 then some x.1 else (y.1.getD k none)
  let quiet := decide (0 < c.settle)
  let fed := feedDets { r2 with c := c2 } quiet src c2.dets 0
  let r3 := fed.2
  let c3 := { r3.c with dets := fed.1, cnt := (c.cnt + 1) % outN c.cfg }
  let counts := r3.counts.zipIdx.map fun n => n.1 + (src n.2).isSome.toNat
  let r4 := { r3 with c := c3, sat := r3.sat + sat, counts := counts }
  match y.2.1 with
  | none => r4
  | some v =>
    let last := oldOut.getD r4.oldLast
    let line := v :: r4.c.dline.take 39
    let oldLine := if fading then last :: r4.oldLine.take 39 else r4.oldLine
    let k : Int := ((32 - c3.xfcnt : Nat) : Int)
    let new := delayed line c3.delay
    let o :=
      if fading then (2 * (delayed oldLine c3.oldDelay * (32 - k) + new * k) + 32) / 64 else new
    let emit := if quiet then 0 else o
    let c4 := { c3 with
      dline := line
      settle := c3.settle - 1
      xfcnt := c3.xfcnt - 1
      xfkind := if fading && c3.xfcnt == 1 then 0 else c3.xfkind }
    { r4 with c := c4, oldLine := oldLine, oldLast := last, out := emit :: r4.out, settling := r4.settling || quiet }

/-- The samples of a block from number `i` on. -/
def rsfSamples (s : State) (n i : Nat) (r : RsfRun) : RsfRun :=
  match n with
  | 0 => r
  | n + 1 => rsfSamples s n (i + 1) (rsfSample s r i)

/-! ## Commands (R240–R244) -/

/-- A state block address (R222). -/
def blockAddrOk (s : State) (a : Nat) : Bool :=
  a % 1024 == 0 && inHeartwood a 1024
    && (decide (a + 1024 ≤ ecAddr s 0) || decide (ecAddr s (ecCount s) ≤ a))

/-- CFG, DEST, DELAY and detectors that INIT and RESTORE accept (R224, R231, R241).
DEDUCED, log entry 184. -/
def chainOk (c : Chain) : Bool :=
  inRate c.cfg != 3 && outRate c.cfg != 3 && rtpClk c.cfg != 3
    && (rsEn c.cfg || inRate c.cfg == outRate c.cfg)
    && (if destRec c.cfg then ! toneClass c.cfg && fld c.dest 31 16 == 0
        else c.dest.toNat % 8 == 0 && inHeartwood c.dest.toNat (2 * outN c.cfg))
    && decide (c.delay ≤ 39) && bankOk c.cfg c.bankA
    && c.dets.all fun d => decide (d.sm ≤ 15) && (decide (d.src ≤ 4) || d.src == 0xFF) && decide (d.offThr ≤ d.onThr)

/-- The chain that INIT makes of an image (R241). -/
def chainInit (s : State) (owner : Nat) (i : Chain) : Chain :=
  chainStep s { i with
    magic := 0x5253
    owner := owner
    nomstep := nomStep i.cfg
    trim := 0
    oldDelay := 0
    wprev := 0
    anchor := false
    delayNew := 0
    xfcnt := 0
    xfkind := 0
    active := 0
    flags := 0
    runcnt := 0
    anchorTs := 0
    anchorT := 0
    wstart := 0
    wmin := 0
    pmin := 0
    lasto := 0
    nwin := 0
    dets := i.dets.map fun d => { d with on := false, e := 0 }
    dline := List.replicate 40 0
    histA := List.replicate 32 0
    histB := List.replicate 32 0
    bankB := zeros 184 } true

/-- DEDUCED, log entry 102. -/
def sidePut (s : State) (a : Nat) (x : RsfSide) : State :=
  { s with rsf := { s.rsf with side := smapPut RsfSide.reset s.rsf.side a x } }

/-- Outcome of a command: code, INFO, a detector operand, and the state. -/
structure RsfEnd where
  code : Nat
  info : Nat
  operand : Option (Word × Word)
  s : State
  deriving DecidableEq, Repr

def rsfNo (s : State) (code : Nat) : RsfEnd := ⟨code, 0, none, s⟩

/-- The bytes where a chain's output goes: heartwood, or the REFIN of an EC record (R243).  A LINK that
names no record of the region takes none.
DEDUCED, log entry 185. -/
def rsfDest (s : State) (c : Chain) (out : List Int) : Option State :=
  let bs := bytesOf16 out
  if destRec c.cfg then
    let r := fld c.dest 15 0
    let h := ecRefOf s r
    let fits := if outN c.cfg = 40 then h.mode == 1 || h.mode == 2 else outN c.cfg == 80 && h.mode == 4
    if decide (r < ecCount s) && ecMagic s r == 0x4543 && h.owner == c.owner && fits then
      let s1 := if h.mode ≠ 4 then memWrite s (ecAddr s r + 0xE80) bs
        else if h.link < ecCount s then memWrite s (ecAddr s h.link) bs
        else s
      some (memPut s1 (ecAddr s r + 0xE74) 4 1)
    else none
  else some (memWrite s c.dest.toNat bs)

/-- Where code 0x07 writes zeros (R244): the chain's destination, where CFG, DEST and what
DECIM divides by could be read.
DEDUCED, log entry 105. -/
def rsfSilence (s : State) (a : Nat) (x : Chain) : State :=
  let bank := if x.active = 0 then 0x290 else 0x348
  let known := ! toneClass x.cfg || ! (anyPoison s (a + 0x26) 1 || anyPoison s (a + bank) 184)
  if anyPoison s a 16 || ! known then s
  else
    let d := if toneClass x.cfg then decimOf (stagesOf (bankOf x x.active)) else 1
    (rsfDest s x (List.replicate (outN x.cfg / d) 0)).getD s

/-- A block reinitialised after uncorrectable data (R244): from MAGIC, OWNER, CFG, DEST, TGT
and the active bank as read, PRIV untouched.  Where one of those could not be read, MAGIC is 0;
where MAGIC's own word could not, its other fields are free values.
DEDUCED, log entry 105. -/
def rsfReinit (s : State) (a : Nat) (x : Chain) (lost : Bool) : State :=
  if lost then
    if isPoison s a then
      { memWrite s a (leBytes 2 0 ++ leBytes 6 (Config.rsfNum s.free)) with free := s.free + 1 }
    else memPut s a 2 0
  else
    let y := chainInit s x.owner { x with
      bankA := bankOf x x.active, delay := 0, dets := List.replicate 4 ⟨0xFF, 0, false, 0, 0, 0⟩ }
    let b := chainBytes { y with magic := x.magic }
    sidePut (memWrite (memWrite s a (b.take 0x30)) (a + 0x40) (b.drop 0x40)) a (sideOf y [])

/-- A command ends with code 0x07 (R244).
DEDUCED, log entry 105. -/
def rsfUncorrectable (s : State) (c : UnitCmd) (a bad : Nat) : RsfEnd :=
  let x := chainOf (memBytes s a 1024)
  let unread := fun (o n : Nat) => anyPoison s (a + o) n
  let lost := unread 0 16 || unread 0x26 1 || unread (if x.active = 0 then 0x290 else 0x348) 184
  let owner := if unread 2 2 then 0xFFFF else x.owner
  let s1 := rsfReinit (rsfSilence s a x) a x lost
  ⟨7, 0, none, raise (bump s1 offRsfRecerr) rsfSrc 1 owner (boolBit lost 0)
    (leBytes 4 a ++ leBytes 1 (cmdCode c) ++ zeros 3 ++ leBytes 4 bad)⟩

/-- The first uncorrectable word of an area. -/
def firstBad (s : State) (a n : Nat) : Option Nat :=
  ((List.range (n / 8)).map fun i => a + 8 * i).find? fun w => isPoison s w

/-- Fields of a command that must be zero (R240). -/
def rsfFieldsOk (c : UnitCmd) : Bool := if cmdCode c = 4 then decide (cmdFlags c < 2) else cmdFlags c == 0

/-- A command on an initialised state block: refusals of R244, then `f`.
DEDUCED, log entry 105. -/
def rsfOn (s : State) (c : UnitCmd) (f : Nat → Chain → RsfEnd) : RsfEnd :=
  let a := c.w2.toNat
  if rsfFieldsOk c = false then rsfNo s 1
  else if blockAddrOk s a = false then rsfNo s 2
  else if isPoison s a = false ∧ memNat s a 2 ≠ 0x5253 then rsfNo s 3
  else
    match firstBad s a 1024 with
    | some w => rsfUncorrectable s c a w
    | none =>
      let x := chainOf (memBytes s a 1024)
      if x.magic ≠ 0x5253 then rsfNo s 3
      else if cmdChan c ≠ x.owner then rsfNo s 4
      else f a x

/-- Events and counts of an observation (R229, R247). -/
def driftEvents (s : State) (a : Nat) (d : DriftEnd) : State :=
  let s1 := match d.clamped with
    | none => s
    | some raw =>
      let s0 := bump s offRsfClamp
      if bitOf (csrGet s offRsfCtl) 0 then
        raise s0 rsfSrc 2 d.c.owner 0 (leBytes 4 a
          ++ leBytes 4 (clampInt (-2147483648) 2147483647 raw % 4294967296).toNat
          ++ leBytes 4 (d.c.trim % 4294967296).toNat)
      else s0
  match d.restart with
  | none => s1
  | some o => if bitOf (csrGet s offRsfCtl) 1 then raise s1 rsfSrc 3 d.c.owner 0 (leBytes 4 a ++ bytes64 o) else s1

/-- The operand of changed detectors (R239). -/
def detOperand (c : Chain) (changed : Nat) (firstAt : Option Nat) : Word :=
  let on := (c.dets.zipIdx.map fun d => boolBit d.1.on d.2).sum
  wordOf (on + changed * 16 + firstAt.getD 0 % 256 * 256 + 2 ^ 31)

/-- RUN on a good chain and a good input area.
DEDUCED, log entry 104. -/
def rsfRunOn (s : State) (a : Nat) (c : Chain) (hdr : List Byte) (nin : Nat) (input : List Int) : RsfEnd :=
  let fl := byteAt hdr 2
  let side := smapGet RsfSide.reset s.rsf.side a
  let c0 := withSide c side
  let d := if fl.testBit 0 && driftEn c.cfg then observe s c0 (leAt hdr 4 4) (leAt hdr 8 8)
    else ⟨c0, false, none, none⟩
  let s1 := driftEvents s a d
  let c1 := if fl.testBit 1 then chainStep s1 d.c true else d.c
  let c2 := { c1 with fifo := c1.fifo ++ input.take nin, runcnt := (c1.runcnt + 1) % 4294967296 }
  let swap := if fl.testBit 2 then some (byteAt hdr 3, fl.testBit 3) else none
  let r0 : RsfRun := {
    c := c2, oldLine := side.oldLine, oldLast := 0, out := [], short := false, sat := 0, swapped := false
    settling := false, changed := 0, firstAt := none, counts := [0, 0, 0, 0, 0], swapAt := swap }
  let r := rsfSamples s1 (outN c.cfg) 0 r0
  let excess := decide (128 < r.c.fifo.length)
  let c3 := { r.c with fifo := r.c.fifo.take 128 }
  let c4 := match r.swapAt with
    | some (_, fade) => { c3 with flags := c3.flags / 4 * 4 + 1 + boolBit fade 1 }
    | none => c3
  let s2 := sidePut (memWrite s1 a (chainBytes c4)) a (sideOf c4 (if 0 < c4.xfcnt then r.oldLine else []))
  let s3 := cntAdd (bump s2 offRsfRun) offRsfSatc r.sat
  let s4 := if r.short then bump s3 offRsfShort else s3
  let s5 := if excess then bump s4 offRsfOver else s4
  let s6 := if r.settling then bump s5 offRsfSettleCnt else s5
  let operand := if r.changed ≠ 0 ∧ c4.tgt ≠ 0xFFFFFFFF#32 then some (c4.tgt, detOperand c4 r.changed r.firstAt) else none
  let info := boolBit r.settling 0 + boolBit r.short 1 + boolBit excess 2 + boolBit (r.sat != 0) 3
    + boolBit r.swapped 4 + boolBit (c4.xfcnt != 0) 5 + boolBit d.clamped.isSome 6 + boolBit d.new 7
    + c4.fifo.length * 256
  match rsfDest s6 c4 r.out.reverse with
  | none => ⟨8, 0, operand, s6⟩
  | some s7 => ⟨0, info, operand, s7⟩

/-- RUN (R221, R242). -/
def rsfRun (s : State) (c : UnitCmd) : RsfEnd :=
  rsfOn s c fun a x =>
    let w := c.w3.toNat
    if w % 16 ≠ 0 ∨ inHeartwood w 16 = false then rsfNo s 5
    else
      let hdr := memBytes s w 16
      let nin := leAt hdr 0 2
      let fl := byteAt hdr 2
      let pos := byteAt hdr 3
      if 480 < nin ∨ 16 ≤ fl ∨ outN x.cfg ≤ pos ∨ (fl.testBit 2 = false ∧ pos ≠ 0)
          ∨ inHeartwood w (16 + 2 * nin) = false then rsfNo s 5
      else if fl.testBit 2 ∧ bankEmpty (bankOf x (1 - x.active)) then rsfNo s 6
      else rsfRunOn s a x hdr nin (samplesOf (memBytes s (w + 16) (2 * nin)))

/-- An image area (R241).
DEDUCED, log entry 105. -/
def rsfImage (a align n : Nat) : Bool := a % align == 0 && inHeartwood a n

def rsfInit (s : State) (c : UnitCmd) : RsfEnd :=
  let a := c.w2.toNat
  let w := c.w3.toNat
  if rsfFieldsOk c = false then rsfNo s 1
  else if blockAddrOk s a = false then rsfNo s 2
  else if rsfImage w 1024 1024 = false then rsfNo s 5
  else
    let i := chainOf (memBytes s w 1024)
    if chainOk i = false ∨ anyPoison s w 1024 then rsfNo s 6
    else
      let x := chainInit s (cmdChan c) i
      ⟨0, 0, none, sidePut (memWrite s a (chainBytes x)) a (sideOf x [])⟩

def rsfLoadbank (s : State) (c : UnitCmd) : RsfEnd :=
  rsfOn s c fun a x =>
    let w := c.w3.toNat
    if rsfImage w 8 184 = false then rsfNo s 5
    else
      let b := memBytes s w 184
      if bankOk x.cfg b = false ∨ anyPoison s w 184 then rsfNo s 6
      else if x.xfkind = 1 then rsfNo s 9
      else
        let y := if x.active = 0 then { x with bankB := b } else { x with bankA := b }
        ⟨0, 0, none, memWrite s a (chainBytes y)⟩

def rsfSetdelay (s : State) (c : UnitCmd) : RsfEnd :=
  rsfOn s c fun a x =>
    if 39 < c.w3.toNat then rsfNo s 5
    else
      let fl := x.flags % 4 + 4 + boolBit ((cmdFlags c).testBit 0) 3
      ⟨0, 0, none, memWrite s a (chainBytes { x with delayNew := c.w3.toNat, flags := fl })⟩

/-- DEDUCED, log entry 104. -/
def rsfSetratio (s : State) (c : UnitCmd) : RsfEnd :=
  rsfOn s c fun a x =>
    let lim := trimLimit s
    let y := { x with trim := clampInt (-lim) lim c.w3.toInt, anchor := false }
    ⟨0, 0, none, sidePut (memWrite s a (chainBytes y)) a { smapGet RsfSide.reset s.rsf.side a with anchor := false }⟩

def rsfSave (s : State) (c : UnitCmd) : RsfEnd :=
  rsfOn s c fun a _ =>
    let w := c.w3.toNat
    if rsfImage w 1024 1024 = false then rsfNo s 5
    else ⟨0, 0, none, memWrite s w (memBytes s a 1024)⟩

/-- The fields that a step after RESTORE writes into the image copied in (R235, R241). -/
def restorePuts (x : Chain) : List (Nat × List Byte) :=
  [(0x10, leBytes 4 x.nomstep), (0x18, leBytes 8 (phacc x)), (0x24, leBytes 2 x.settle),
   (0x28, leBytes 2 x.fifo.length ++ leBytes 2 x.head),
   (if x.active = 0 then 0x210 else 0x250, zeros 64)]

/-- RESTORE (R241): the image checked as INIT checks one, copied in whole, then a step. -/
def rsfRestore (s : State) (c : UnitCmd) : RsfEnd :=
  let a := c.w2.toNat
  let w := c.w3.toNat
  if rsfFieldsOk c = false then rsfNo s 1
  else if blockAddrOk s a = false then rsfNo s 2
  else if rsfImage w 1024 1024 = false then rsfNo s 5
  else
    let b := memBytes s w 1024
    let i := chainOf b
    if i.magic ≠ 0x5253 then rsfNo s 3
    else if i.owner ≠ cmdChan c then rsfNo s 4
    else if chainOk i = false ∨ anyPoison s w 1024 then rsfNo s 6
    else
      let x := chainStep s { i with nomstep := nomStep i.cfg, wprev := 0, anchor := false } true
      ⟨0, 0, none, sidePut (memWrite s a (putAll b (restorePuts x))) a (sideOf x [])⟩

/-! ## Queue and pipes (R220, R240) -/

def idlePipe (s : State) : Option Nat := [0, 1].find? fun p => ! s.rsf.busy.contains p

/-- A command ended on pipe `k`: its operand, then its completion (R239). -/
def rsfFinish (c : UnitCmd) (k : Nat) (e : RsfEnd) : State :=
  let s1 := cntAdd e.s (offRsfPcyc + 8 * k) (Config.rsfNum e.s.free % 4000)
  let key := c.w2.toNat
  let op := match e.operand with
    | none => []
    | some o => [(⟨o.1, o.2, key⟩ : Completion)]
  let u := unitEnd { s1.rsf.unit with done := s1.rsf.unit.done ++ op } c e.code rsfSrc e.info key
  { s1 with
    free := s1.free + 1
    rsf := { s1.rsf with unit := u, busy := s1.rsf.busy ++ (op.map fun _ => k) ++ [k] } }

/-- Whether the RSF holds a completion or an operand (R173). -/
def rsfHeld (s : State) : Bool := unitHeld sameKey s s.rsf.unit rsfSrc

/-- The pipe for the next command to begin (R173, R220). -/
def rsfFree (s : State) : Option Nat := if rsfHeld s then none else idlePipe s

/-- The code is one of R241. -/
def rsfKnown (c : UnitCmd) : Bool := decide (1 ≤ cmdCode c) && decide (cmdCode c ≤ 7)

/-- Commands of no known code that stand at the head begun, each ending with code 0x01, at
most `n` of them (R142, R244). -/
def rsfSettleN (n : Nat) (s : State) : State :=
  match n with
  | 0 => s
  | n + 1 =>
    match rsfFree s, s.rsf.unit.q with
    | some k, c :: r =>
      if rsfKnown c then s
      else rsfSettleN n (rsfFinish c k (rsfNo { s with rsf := { s.rsf with unit := { s.rsf.unit with q := r } } } 1))
    | _, _ => s

def rsfSettle (s : State) : State := rsfSettleN s.rsf.unit.q.length s

/-- The head command begun on a pipe when its code is `code`. -/
def rsfTake (s : State) (code : Nat) (f : State → UnitCmd → RsfEnd) : State :=
  match rsfFree s, unitTake s.rsf.unit code with
  | some k, some (c, u) =>
    rsfFinish c k (f (correctAt { s with rsf := { s.rsf with unit := u } } (unitPlace rsfSrc) offRsfEcc) c)
  | _, _ => s

/-- A command of code `code` begins when it stands at the head of the queue and a pipe can
begin it; commands of no known code before and behind it end. -/
def rsfBegin (s : State) (code : Nat) (f : State → UnitCmd → RsfEnd) : State :=
  rsfSettle (rsfTake (rsfSettle s) code f)

def execRsfRun (s : State) : Result := .next (rsfBegin s 1 rsfRun)
def execRsfInit (s : State) : Result := .next (rsfBegin s 2 rsfInit)
def execRsfLoadbank (s : State) : Result := .next (rsfBegin s 3 rsfLoadbank)
def execRsfSetdelay (s : State) : Result := .next (rsfBegin s 4 rsfSetdelay)
def execRsfSetratio (s : State) : Result := .next (rsfBegin s 5 rsfSetratio)
def execRsfSave (s : State) : Result := .next (rsfBegin s 6 rsfSave)
def execRsfRestore (s : State) : Result := .next (rsfBegin s 7 rsfRestore)

/-- A CPX to UNIT 1 (R240); none when the queue is full. -/
def rsfEnqueue (s : State) (c : UnitCmd) : Option State :=
  if 256 ≤ s.rsf.unit.q.length then none
  else
    let u := s.rsf.unit
    some (rsfSettle { s with rsf := { s.rsf with unit := { u with q := u.q ++ [c] } } })

def execRsfCompletionDeliver (i : Nat) (s : State) : Result :=
  .next (match deliverDone sameKey s s.rsf.unit i rsfSrc with
    | none => s
    | some (s1, d) => rsfSettle
        { s1 with rsf := { s1.rsf with unit := { s1.rsf.unit with done := d }, busy := s1.rsf.busy.eraseIdx i } })

/-- RSF_STAT. -/
def rsfStat (s : State) : Word :=
  wordOf (((List.range 2).map fun p => boolBit (s.rsf.busy.contains p) (24 + p)).sum
    + boolBit (rsfHeld s) 16 + s.rsf.unit.q.length)

end Sys2Proof.Machine
end

