-- ==== Sys2Proof/Machine/G711.lean ====
section
/-! DEFINITION. The G.711 codecs of the Media ROM (R281, R282): A-law values stand at bits
15:3 and µ-law values at bits 15:2 of a sample. -/

namespace Sys2Proof.Machine

/-- The magnitude of a sample with its sign, as both laws code it: the 13-bit A-law value. -/
def alawValue (b : Byte) : Int :=
  let v := (b ^^^ 0x55#8).toNat
  let seg := v / 16 % 8
  let m := if seg = 0 then 2 * (v % 16) + 1 else (2 * (v % 16) + 33) * 2 ^ (seg - 1)
  if v.testBit 7 then (m : Int) else - (m : Int)

/-- The 14-bit µ-law value. -/
def ulawValue (b : Byte) : Int :=
  let v := (~~~ b).toNat
  let m := (2 * (v % 16) + 33) * 2 ^ (v / 16 % 8) - 33
  if v.testBit 7 then - (m : Int) else (m : Int)

/-- A decoded sample: `mu` says µ-law (R282). -/
def g711Decode (mu : Bool) (b : Byte) : Int := if mu then 4 * ulawValue b else 8 * alawValue b

/-- The first of eight segments, each twice as long as the one before, that reaches to `m`; 8
beyond the last. -/
def segOf (top m : Nat) : Nat := ((List.range 8).filter fun i => decide (top * 2 ^ i ≤ m)).length

/-- The A-law code of a sample.
DESIGN CHOICE, log entry 175. -/
def alawEncode (x : Int) : Byte :=
  let v := x / 8
  let m := (if v < 0 then - v - 1 else v).toNat
  let seg := segOf 32 m
  let code := if seg = 8 then 0x7F else seg * 16 + (if seg < 2 then m / 2 else m / 2 ^ seg) % 16
  BitVec.ofNat 8 code ^^^ (if v < 0 then 0x55#8 else 0xD5#8)

/-- The µ-law code of a sample.
DESIGN CHOICE, log entry 175. -/
def ulawEncode (x : Int) : Byte :=
  let v := x / 4
  let m := min 8159 v.natAbs + 33
  let seg := segOf 64 m
  let code := if seg = 8 then 0x7F else seg * 16 + m / 2 ^ (seg + 1) % 16
  BitVec.ofNat 8 code ^^^ (if v < 0 then 0x7F#8 else 0xFF#8)

def g711Encode (mu : Bool) (x : Int) : Byte := if mu then ulawEncode x else alawEncode x

/-- Samples of 16 bits from their bytes, and back. -/
def pcmOf (l : List Byte) : List Int := (chunks 2 l).map fun b => signed 16 (leNat b)
def pcmBytes (l : List Int) : List Byte := l.flatMap fun x => leBytes 2 (x % 65536).toNat

end Sys2Proof.Machine
end

