-- ==== Sys2Proof/Machine/Rom.lean ====
section
/-! DEFINITION. The Media ROM (R276, R279, R281): its directory, its template records and
its kernels, whose code the spec does not give. -/

namespace Sys2Proof.Machine

/-- A row of R281: identifier, size, and state and cycles where the table gives them. -/
structure Kernel where
  id : Nat
  size : Nat
  state : Option Nat
  cycles : Option Nat
  deriving DecidableEq, Repr

/-- The kernels of version 0x0100, in the order of R281. -/
def kernels : List Kernel := [
  ⟨0x00010101, 512, some 0, some 160⟩,
  ⟨0x00010102, 512, some 0, some 120⟩,
  ⟨0x00010201, 3072, some 48, some 4800⟩,
  ⟨0x00010202, 2816, some 48, some 4400⟩,
  ⟨0x00010301, 4096, some 64, some 7600⟩,
  ⟨0x00010302, 3840, some 64, some 7000⟩,
  ⟨0x00010401, 12288, some 176, some 42000⟩,
  ⟨0x00010402, 5120, some 160, some 9000⟩,
  ⟨0x00020001, 1536, some 64, some 2400⟩,
  ⟨0x00020002, 1024, some 16, some 1800⟩,
  ⟨0x00020003, 1536, some 16, some 2200⟩,
  ⟨0x00030001, 1280, some 12, some 3600⟩,
  ⟨0x00030002, 1280, some 12, some 3200⟩,
  ⟨0x00030003, 1536, some 12, some 4400⟩,
  ⟨0x00030004, 2048, some 12, some 5200⟩,
  ⟨0x00030005, 1792, some 8, some 3000⟩,
  ⟨0x00040001, 768, some 8, some 900⟩,
  ⟨0x00050001, 6144, none, none⟩]

/-- A place in the Media ROM that the directory gives: below 4 MiB and a multiple of 4.
DESIGN CHOICE, log entry 26. -/
def romPlace (i : Nat) : Nat := Config.romPlace i % 0x100000 * 4

/-- Bytes of row `i` of the kernel directory (R279). -/
def kernelEntry (i : Nat) (k : Kernel) : List Byte :=
  leBytes 4 k.id ++ leBytes 2 (Config.romNum i 0) ++ zeros 2 ++ leBytes 4 (romPlace (i + 2))
    ++ leBytes 4 k.size ++ leBytes 4 (k.state.getD (Config.romNum i 1))
    ++ leBytes 4 (k.cycles.getD (Config.romNum i 2))

/-- The directory at the start of the Media ROM (R279). -/
def romDirectory : List Byte :=
  [0x4D#8, 0x52#8, 0x4F#8, 0x4D#8] ++ leBytes 2 0x0100 ++ leBytes 2 kernels.length
    ++ leBytes 4 (romPlace 0) ++ leBytes 4 (romPlace 1) ++ zeros 48
    ++ (kernels.zipIdx.flatMap fun x => kernelEntry x.2 x.1)

/-- The two template records (R276, R153). -/
def romTemplates : List Byte :=
  leBytes 4 0x01 ++ leBytes 4 0x0001E81F ++ leBytes 4 0x0000FFFF
    ++ leBytes 4 0x02 ++ leBytes 4 0x00110022 ++ leBytes 4 0x0000FFFF

/-- A byte of the Media ROM at an offset from 0x4000_0000. -/
def romAt (o : Nat) : Byte :=
  if o < romDirectory.length then romDirectory.getD o 0
  else if romPlace 0 ≤ o ∧ o < romPlace 0 + 24 then romTemplates.getD (o - romPlace 0) 0
  else Config.romByte o

/-- `n` bytes of the Media ROM from offset `o` on. -/
def romBytes (o n : Nat) : List Byte := (List.range n).map fun i => romAt (o + i)

/-- The row of a kernel and its place in the directory. -/
def findKernel (id : Nat) : Option (Kernel × Nat) := kernels.zipIdx.find? fun x => x.1.id == id

end Sys2Proof.Machine
end

