-- ==== Sys2Proof/Machine/Kernel.lean ====
section
/-! DEFINITION. The kernels of the Media ROM in an engine's PM (R113, R279–R282): where they
stand, and what a call of one does.
DESIGN CHOICE, log entry 26. -/

namespace Sys2Proof.Machine

/-! ## Where kernels stand -/

/-- The kernels of engine `e` that share no byte of PM with `n` bytes from `o` on. -/
def kernDrop (s : State) (e o n : Nat) : State :=
  let apart := fun (k : KernAt) => k.eng != e || decide (o + n ≤ k.at_) || decide (k.at_ + (kernels.getD k.row ⟨0, 0, none, none⟩).size ≤ o)
  { s with core := { s.core with kern := s.core.kern.filter apart } }

/-- Kernel `row` of the ROM placed at `o` of engine `e`'s PM. -/
def kernPlace (s : State) (e o row : Nat) : State :=
  let s1 := kernDrop s e o (kernels.getD row ⟨0, 0, none, none⟩).size
  { s1 with core := { s1.core with kern := s1.core.kern ++ [⟨e, o, row⟩] } }

/-- The kernel in which fetch address `pc` of engine `e` lies. -/
def kernelAt (s : State) (e pc : Nat) : Option KernAt :=
  s.core.kern.find? fun k =>
    k.eng == e && decide (k.at_ ≤ pc) && decide (pc < k.at_ + (kernels.getD k.row ⟨0, 0, none, none⟩).size)

/-! ## Kernel calls (R116, R280) -/

/-- The tones of two frequencies out of six, 1 to 15: number n adds the frequencies of its pair. -/
def twoOfSix (f : List Nat) (n : Nat) : List Nat :=
  let pair := [(0, 1), (0, 2), (1, 2), (0, 3), (1, 3), (2, 3), (0, 4), (1, 4), (2, 4), (3, 4), (0, 5), (1, 5), (2, 5),
    (3, 5), (4, 5)].getD (n - 1) (0, 0)
  [f.getD pair.1 0, f.getD pair.2 0]

/-- The frequencies of a DTMF key: 0 to 9, *, #, A to D, by row and column of the keypad. -/
def dtmfHz (n : Nat) : List Nat :=
  let key := [(3, 1), (0, 0), (0, 1), (0, 2), (1, 0), (1, 1), (1, 2), (2, 0), (2, 1), (2, 2), (3, 0), (3, 2), (0, 3),
    (1, 3), (2, 3), (3, 3)].getD n (0, 0)
  [[697, 770, 852, 941].getD key.1 0, [1209, 1336, 1477, 1633].getD key.2 0]

/-- The frequencies in Hz of a tone of the generator (R283); those of a call-progress tone come from
its cadence table.
PRESUMED, log entry 187. -/
def toneFreqs (n : Nat) : List Nat :=
  if 0x10 ≤ n ∧ n ≤ 0x1F then dtmfHz (n - 0x10)
  else if 0x20 ≤ n ∧ n ≤ 0x2E then twoOfSix [700, 900, 1100, 1300, 1500, 1700] (n - 0x1F)
  else if 0x30 ≤ n ∧ n ≤ 0x3E then twoOfSix [1380, 1500, 1620, 1740, 1860, 1980] (n - 0x2F)
  else if 0x40 ≤ n ∧ n ≤ 0x4E then twoOfSix [1140, 1020, 900, 780, 660, 540] (n - 0x3F)
  else if n = 0x50 ∨ n = 0x51 then [2100]
  else if n = 0x52 then [1100]
  else []

/-- Block `i` of a tone at a level per frequency in −dBm0 (R260, R282, R283): ANSam reverses its phase
every 450 ms, CNG sounds for 0.5 s of 3.5 s, and a call-progress tone follows its cadence table.
PRESUMED, log entry 187. -/
def toneBlock (n level i bytes : Nat) (table : List Byte) : List Byte :=
  if n = 0x52 ∧ 100 ≤ i % 700 then zeros bytes
  else
    let kind := if 0x60 ≤ n ∧ n ≤ 0x67 then 3 else if n = 0x51 then 1 + i / 90 % 2 else 0
    padTo bytes (Config.toneWave (toneFreqs n) (levelPower level) kind (if kind = 3 then leBytes 1 n ++ table else []) i)

/-- What a kernel takes and gives: bytes of input and of output, and the count it returns in G1. -/
structure KernelIo where
  input : Nat
  output : Nat
  count : Nat
  deriving DecidableEq, Repr

/-- Bytes of one 5 ms block at the rate a mode selects: 0 8 kHz, 1 16 kHz. -/
def rateBytes (mode : Nat) : Nat := if mode % 2 = 1 then 160 else 80

/-- Bits of a G.726 sample in a mode (R281). -/
def g726Bits (mode : Nat) : Nat := max 2 (min 5 mode)

/-- Bytes of a G.729A frame that an encoder gives with Annex B's VAD: voice, SID, or none.
DESIGN CHOICE, log entry 26. -/
def g729Len (mode n : Nat) : Nat := if mode % 2 = 0 then 10 else [10, 2, 0].getD (n % 3) 10

/-- What kernel `id` takes and gives in a mode; `n` is a free number.
DESIGN CHOICE, log entry 26. -/
def kernelIo (id mode n : Nat) : KernelIo :=
  match id with
  | 0x00010101 => ⟨80, 40, 40⟩
  | 0x00010102 => ⟨40, 80, 40⟩
  | 0x00010201 => ⟨80, 5 * g726Bits mode, 5 * g726Bits mode⟩
  | 0x00010202 => ⟨5 * g726Bits mode, 80, 40⟩
  | 0x00010301 => ⟨160, 40, 40⟩
  | 0x00010302 => ⟨40, 160, 80⟩
  | 0x00010401 => ⟨160, g729Len mode n, g729Len mode n⟩
  | 0x00010402 => ⟨if mode % 2 = 1 then 0 else 10, 160, 80⟩
  | 0x00020001 => ⟨rateBytes mode, rateBytes mode, rateBytes mode / 2⟩
  | 0x00020002 => ⟨rateBytes mode, 1, 1⟩
  | 0x00020003 => if mode / 2 % 2 = 1 then ⟨11, 80, 40⟩ else ⟨80, 11, 11⟩
  | 0x00040001 => ⟨2, 80, 40⟩
  | _ => ⟨80, 2, 2⟩

/-- What a kernel makes of its input: its output and its new state.  G.711 is computed, and a tone is
given by its number and level; of the other kernels the spec gives the recommendation they follow.
DESIGN CHOICE, log entry 26. -/
def kernelStep (id mode : Nat) (st input : List Byte) : List Byte × List Byte :=
  match id with
  | 0x00010101 => ((pcmOf input).map (g711Encode (mode == 1)), st)
  | 0x00010102 => (pcmBytes (input.map (g711Decode (mode == 1))), st)
  | 0x00040001 =>
    (toneBlock (byteAt input 0) (byteAt input 1) (leAt st 4 4) 80 st, putBytes st 4 (leBytes 4 (leAt st 4 4 + 1)))
  | _ => (Config.kernelOut id mode st input, padTo st.length (Config.kernelNext id mode st input))

/-- A kernel returns to its caller: code in G0, count in G1; temporaries, the link and the flags
are free, and what R116 preserves is kept. -/
def kernelReturn (s : State) (k code count : Nat) : State :=
  let f := fun r => BitVec.ofNat 40 (Config.kernelTemp s.free r)
  let c := flush (ctxGet s k)
  let link := pcOf (gGet c 15)
  let c1 := (List.range 16).foldl (fun c i => if 12 ≤ i ∧ i ≤ 14 then c else regWrite c (.g i) (f i)) c
  let c2 := (List.range 2).foldl (fun c i => regWrite c (.a i) (f (16 + i))) c1
  let c3 := (List.range 4).foldl (fun c i => regWrite (regWrite c (.p i) (f (18 + i))) (.m i) (f (22 + i))) c2
  let c4 := regWrite (regWrite c3 (.g 0) (BitVec.ofNat 40 code)) (.g 1) (BitVec.ofNat 40 count)
  ctxPut { s with free := s.free + 1 } k
    { c4 with
      st := setFld (setFld c4.st 3 0 (Config.kernelTemp s.free 26)) 7 6 (Config.kernelTemp s.free 27)
      pc := link
      slot := c.slot + 1 }

/-- Whether `n` bytes at an address lie in XM or YM. -/
def inXmYm (a n : Nat) : Bool := decide (0x10000 ≤ a) && decide (a + n ≤ 0x30000)

/-- A call of the kernel in row `row` by context `k` (R280): state at G0 in XM, input at G1,
output at G2, mode in G3; YM from 0x2_F800 on is scratch.  An address that breaks R280 gives a
kernel error code, which the spec does not number.
DESIGN CHOICE, log entry 26. -/
def kernelCall (s : State) (k row : Nat) : State :=
  let c := flush (ctxGet s k)
  let base := localBase (k / 4)
  let g := fun i => (gGet c i).toNat
  let x := kernels.getD row ⟨0, 0, none, none⟩
  let n := x.state.getD 0
  let io := kernelIo x.id (g 3) (Config.kernelTemp s.free 27)
  if (n ≠ 0 ∧ (g 0 % 8 ≠ 0 ∨ inXmYm (g 0) n = false ∨ 0x20000 < g 0 + n)) ∨ inXmYm (g 1) io.input = false
      ∨ inXmYm (g 2) io.output = false then
    kernelReturn s k (1 + Config.kernelTemp s.free 28) 0
  else
    let r := kernelStep x.id (g 3) (memBytes s (base + g 0) n) (memBytes s (base + g 1) io.input)
    let s1 := memWrite s (base + 0x2F800) (padTo 2048 (Config.kernelOut x.id (g 3) [] []))
    let s2 := memWrite (memWrite s1 (base + g 2) (padTo io.output r.1)) (base + g 0) r.2
    kernelReturn s2 k 0 io.count

end Sys2Proof.Machine
end

