-- ==== Sys2Proof/Machine/Media.lean ====
section
/-! DEFINITION. The standard channel tasks of the Media ROM (R251, R252, R260, R267–R278, R286):
what the period task and the continuation task do with a channel's record, its queues and the
units.  The kernel that holds them runs in the steps between two waits of a task.
DESIGN CHOICE, log entries 26, 175. -/

namespace Sys2Proof.Machine

/-! ## The record (R251, R252, R275) -/

/-- Where the buffers of a channel lie, and bytes and samples of a block. -/
structure Lay where
  inT : Nat
  outT : Nat
  blk : Nat
  outP : Nat
  codecs : Nat
  bytes : Nat
  deriving DecidableEq, Repr

/-- The layout of channel `n`'s record, or of its companion's on a wideband channel.  The input
headers of chains E and P stand right before their samples. -/
def layOf (s : State) (n : Nat) (wide : Bool) : Lay :=
  if wide then
    let a := chanAddr s (n + 8192)
    ⟨a + 0x060, a + 0x270, a + 0x1C0, a + 0x040, a + 0x310, 160⟩
  else
    let a := chanAddr s n
    ⟨a + 0x290, a + 0x3B0, a + 0x350, a + 0x270, a + 0x0C0, 80⟩

/-- The state blocks of chains T, E and P (R251). -/
def chainT (s : State) (n : Nat) : Nat := chanAddr s n + 0x400
def chainE (s : State) (n : Nat) : Nat := chanAddr s n + 0x800
def chainP (s : State) (n : Nat) : Nat := chanAddr s n + 0xC00

/-- A field of the channel status, `n` bytes at `o` (R275). -/
def statGet (s : State) (ch o n : Nat) : Nat := memNat s (chanAddr s ch + o) n
def statPut (s : State) (ch o n v : Nat) : State := memPut s (chanAddr s ch + o) n v

/-- A counter of the status moved on by `k`, wrapping. -/
def statAdd (s : State) (ch o n k : Nat) : State := if k = 0 then s else statPut s ch o n (statGet s ch o n + k)

/-- FLAGS of the status with bit `i` set to `b`. -/
def statFlag (s : State) (ch i : Nat) (b : Bool) : State :=
  statPut s ch 0x40 4 (setBit (wordOf (statGet s ch 0x40 4)) i b).toNat

/-- What the standard templates keep of a channel. -/
def mediaGet (s : State) (n : Nat) : Media := smapGet Media.reset s.chan.media n
def mediaPut (s : State) (n : Nat) (v : Media) : State :=
  { s with chan := { s.chan with media := smapPut Media.reset s.chan.media n v } }

/-- Playout of a direction, 0 towards the access leg, with what its 16 bytes of the record hold:
timestamp and SSRC of the anchor, B_a by its low bits, depth, gap, and run, flag and state (R251). -/
def playAt (s : State) (n dir : Nat) : Nat := chanAddr s n + 0x60 + 16 * dir
def playGet (s : State) (n dir : Nat) : Play :=
  let m := mediaGet s n
  let b := memBytes s (playAt s n dir) 16
  let x := leAt b 14 2
  { (if dir = 0 then m.toAccess else m.toTrunk) with
    on := x.testBit 15
    first := leAt b 0 4
    ba := extend32 m.rel (leAt b 4 4)
    ssrc := leAt b 8 4
    depth := byteAt b 12
    gap := byteAt b 13
    fall := x.testBit 14
    good := x % 16384 }

/-- Playout of a direction kept: in the record, and beside it what does not fit there.
DESIGN CHOICE, log entry 188. -/
def playPut (s : State) (n dir : Nat) (p : Play) : State :=
  let m := mediaGet s n
  let m1 := if dir = 0 then { m with toAccess := p } else { m with toTrunk := p }
  memWrite (mediaPut s n m1) (playAt s n dir)
    (leBytes 4 p.first ++ leBytes 4 (p.ba % 4294967296).toNat ++ leBytes 4 p.ssrc ++ leBytes 1 p.depth
      ++ leBytes 1 (min 255 p.gap) ++ leBytes 2 (min 16383 p.good + boolBit p.fall 14 + boolBit p.on 15))

/-! ## Live fields (R258, R259, R267) -/

/-- JMIN, JINIT and JMAX in force: each depth to 40, and in order by lowering the larger (R267). -/
def depthsOf (jit : Word) : Nat × Nat × Nat :=
  let jmax := min 40 (fld jit 15 8)
  let jinit := min jmax (fld jit 23 16)
  (min jinit (fld jit 7 0), jinit, jmax)

/-- PHDLY in force (R267). -/
def phdlyOf (proc : Word) : Nat := min 39 (fld proc 13 8)

/-- The ECA's CFG for a channel (R278): MODE, NLP, CNG, TONE and ADAPT_EN, with NWIN 0. -/
def ecCfgOf (mode : Nat) (proc : Word) : Nat :=
  mode + boolBit (bitOf proc 3) 4 + boolBit (bitOf proc 4) 5 + boolBit (bitOf proc 5) 6 + boolBit true 7

/-! ## Codecs of a leg -/

/-- Bytes of a leg's codec state (R281). -/
def codecRoom (codec : Nat) : Nat :=
  if codec ≤ 2 then 96 else if codec ≤ 6 then 160 else if codec = 7 then 192 else 336

/-- Where a leg's codec state lies: the trunk's first, the access leg's behind it (R251, R252). -/
def codecAt (y : Lay) (d : Desc) (trunk : Bool) : Nat :=
  if trunk then y.codecs else y.codecs + (codecRoom (dTcodec d) + 15) / 16 * 16

/-- The kernels that encode and decode a codec, and their mode.  V.150.1 (code 9) has none in
R281: its frames are those of a free kernel.
DESIGN CHOICE, log entry 26. -/
def encKernel (codec : Nat) : Nat :=
  if codec ≤ 2 then 0x00010101 else if codec ≤ 6 then 0x00010201 else if codec = 7 then 0x00010301
  else if codec = 8 then 0x00010401 else 0
def decKernel (codec : Nat) : Nat := if codec = 9 then 1 else encKernel codec + 1
def codecMode (codec : Nat) : Nat := if codec = 2 then 1 else if 3 ≤ codec ∧ codec ≤ 6 then codec - 1 else 0

/-- Bytes of a coded unit: a block, or 10 ms of G.729A. -/
def unitBytes729 (codec : Nat) : Nat :=
  if codec = 8 then 10 else if 3 ≤ codec ∧ codec ≤ 6 then 5 * (codec - 1) else 40

/-- A kernel run on a leg's codec state. -/
def legKernel (s : State) (at_ room id mode : Nat) (input : List Byte) : List Byte × State :=
  let r := kernelStep id mode (memBytes s at_ room) input
  (r.1, if id = 0x00010101 ∨ id = 0x00010102 then s else memWrite s at_ r.2)

/-- The units of a payload decoded. -/
def decodeUnits (s : State) (at_ codec bytes : Nat) (units : List (List Byte)) : List Byte × State :=
  match units with
  | [] => ([], s)
  | u :: r =>
    let x := legKernel s at_ (codecRoom codec) (decKernel codec) (codecMode codec) u
    let y := decodeUnits x.2 at_ codec bytes r
    (padTo (if codec = 8 then 2 * bytes else bytes) x.1 ++ y.1, y.2)

/-! ## Frames in a jitter queue (R271, R307–R313) -/

/-- How a leg is carried. -/
inductive Carry where
  | rtp | bundle | ces
  deriving DecidableEq, Repr

/-- The carriage of a leg (R255). -/
def carryOf (d : Desc) (trunk : Bool) : Carry :=
  if trunk then (if dTtrans d = 1 then .bundle else .rtp) else (if dAtrans d = 0 then .ces else .rtp)

/-- A received frame: its item, its sequence number, its timestamp or S, its SSRC, whether it is a SID
frame, its coded bytes, and its arrival as an NFN and in ns. -/
structure MediaFrame where
  item : Item
  seq : Nat
  ts : Nat
  ssrc : Nat
  sid : Bool
  body : List Byte
  arr : Nat
  arrNs : Nat
  deriving DecidableEq, Repr

/-- The payload of an RTP packet behind header, CSRC list and extension, without padding. -/
def rtpBody (p : List Byte) : List Byte :=
  let h := 12 + 4 * (byteAt p 0 % 16)
  let h1 := if (byteAt p 0).testBit 4 then h + 4 + 4 * beAt p (h + 2) 2 else h
  let l := p.drop h1
  if (byteAt p 0).testBit 5 then l.take (l.length - byteAt l (l.length - 1)) else l

/-- The frame of an item, or none of an item too short to be one. -/
def readFrame (s : State) (w : Carry) (i : Item) : Option MediaFrame :=
  let b := itemBytes s i
  let p := b.drop 16
  let now := (nfnNs s.time).toNat
  let back := (now + 4294967296 - memNat s (cellAddr s i.head + 4) 4) % 4294967296
  let f : MediaFrame := ⟨i, 0, 0, 0, (byteAt b 3).testBit 1, p, (now - back) / 125000, now - back⟩
  match w with
  | .rtp => if p.length < 12 then none else
      some { f with seq := beAt p 2 2, ts := beAt p 4 4, ssrc := beAt p 8 4, body := rtpBody p }
  | .bundle => if b.length < 16 then none else some { f with ts := leAt b 8 8 }
  | .ces => if b.length < 16 then none else some { f with seq := leAt b 8 2, ts := leAt b 8 2 }

/-- What a period knows of one direction: the channel, its queue, the release being played, the
packet time of a CESoPSN leg, its carriage, its codec, where its codec state lies, bytes of a
block, and JIT and PROC. -/
structure PlayEnv where
  ch : Nat
  q : Nat
  rel : Nat
  apt : Nat
  carry : Carry
  codec : Nat
  codecs : Nat
  bytes : Nat
  jit : Word
  proc : Word
  deriving DecidableEq, Repr

/-- The first release of the channel at or after a tick. -/
def releaseFrom (v : PlayEnv) (x : Int) : Int := x + (((v.rel : Int) - x) % 40)

/-- B of a frame (R271). -/
def playNfn (v : PlayEnv) (p : Play) (f : MediaFrame) : Int :=
  match v.carry with
  | .rtp => p.ba + 40 * (signed 32 (f.ts + 4294967296 - p.first) / 40)
  | .bundle => releaseFrom v (f.ts + 40 * p.depth)
  | .ces => p.ba + 40 * v.apt * signed 16 (f.ts + 65536 - p.first)

/-- The anchor set by a frame (R271). -/
def setAnchor (v : PlayEnv) (p : Play) (f : MediaFrame) : Play :=
  let jinit := (depthsOf v.jit).2.1
  { p with on := true, first := f.ts, ba := releaseFrom v (f.arr + 40 * jinit), ssrc := f.ssrc, depth := jinit
           good := 0, fall := false, seen := [] }

/-- Playout after it restarts: no anchor, nothing in hand (R273). -/
def dropAnchor (p : Play) : Play := { p with on := false, gap := 0, sid := none, hand := [], seen := [], fall := false }

/-- An item taken out of a jitter queue and its cells returned. -/
def takeOut (s : State) (q : Nat) (i : Item) : State :=
  let k := queueGet s q
  clearingCheck (bump (queuePut (freeItem s i) q { k with items := k.items.erase i }) offQmgrPop)

/-! ## Judging the queue -/

/-- What reading a queue comes to: the state, the playout, frames that wait, causes of restarts, late
frames, moves of B_a that SLIP counts, and whether the depth rose, so that a block is concealed. -/
structure QueueScan where
  s : State
  p : Play
  wait : List MediaFrame
  causes : List Nat
  late : Nat
  slip : Nat
  rose : Bool
  deriving DecidableEq, Repr

/-- The numbers seen, with that of a frame: 1,024 of them, five times as many as the frames within 1 s
of the block being played. -/
def noteSeen (p : Play) (f : MediaFrame) : List Nat := f.seq :: p.seen.take 1023

/-- A late frame: it raises the depth under ADAPT (R272); else B_a of a CESoPSN leg follows the
source's slip (R274).
DESIGN CHOICE, log entry 175. -/
def lateFrame (v : PlayEnv) (x : QueueScan) (f : MediaFrame) : QueueScan :=
  let x1 := { x with s := takeOut x.s v.q f.item, late := x.late + 1, p := { x.p with good := 0, seen := noteSeen x.p f } }
  if bitOf v.jit 24 ∧ x.p.depth < (depthsOf v.jit).2.2 then
    { x1 with p := { x1.p with depth := x.p.depth + 1, ba := x.p.ba + 40 }, rose := true }
  else if v.carry = .ces then { x1 with p := { x1.p with ba := x.p.ba + 40 }, slip := x.slip + 1 }
  else x1

/-- A restart of playout for a cause (R273): the frames that wait were made for the anchor dropped.
DESIGN CHOICE, log entry 175. -/
def restartScan (v : PlayEnv) (x : QueueScan) (cause : Nat) : QueueScan :=
  { x with
    s := x.wait.foldl (fun a g => takeOut a v.q g.item) x.s
    wait := []
    p := dropAnchor x.p
    causes := x.causes ++ [cause] }

/-- An item of the queue judged: a second frame of one number is discarded uncounted, a new SSRC and
a jump of more than 200 blocks restart playout, the first frame sets the anchor, and a frame whose
B has passed is late (R271–R273). -/
def judgeItem (v : PlayEnv) (x : QueueScan) (i : Item) : QueueScan :=
  match readFrame x.s v.carry i with
  | none => { x with s := takeOut x.s v.q i }
  | some f =>
    let same := v.carry != .bundle && ((x.p.on && x.p.seen.contains f.seq && f.ssrc == x.p.ssrc)
      || x.wait.any fun g => g.seq == f.seq && g.ssrc == f.ssrc)
    if same then { x with s := takeOut x.s v.q i }
    else
      let x1 := if x.p.on && v.carry == .rtp && f.ssrc != x.p.ssrc then restartScan v x 2 else x
      let x2 := if x1.p.on then x1 else { x1 with p := setAnchor v x1.p f }
      let far := decide (8000 < (playNfn v x2.p f - v.rel).natAbs)
      let x3 := if far && x1.p.on then
        (let y := restartScan v x2 1; { y with p := setAnchor v y.p f }) else x2
      if playNfn v x3.p f < v.rel then lateFrame v x3 f else { x3 with wait := x3.wait ++ [f] }

/-- A jitter queue read (R271). -/
def readQueue (v : PlayEnv) (s : State) (p : Play) : QueueScan :=
  (queueGet s v.q).items.foldl (judgeItem v) ⟨s, p, [], [], 0, 0, false⟩

/-! ## Playing a block (R271, R272) -/

/-- A block played: its samples, the state, the playout, whether it was concealed, the frame begun in
it, and whether B_a moved earlier with the source's slip. -/
structure PlayEnd where
  out : List Byte
  s : State
  p : Play
  concealed : Bool
  begun : Option MediaFrame
  slip : Bool
  deriving DecidableEq, Repr

/-- Comfort noise for a SID frame (R259, R281). -/
def comfortBlock (v : PlayEnv) (s : State) (p : Play) (sid : List Byte) : PlayEnd :=
  let x := legKernel s v.codecs (codecRoom v.codec) 0x00020003 2 sid
  ⟨padTo v.bytes x.1, x.2, p, false, none, false⟩

/-- A block that is silent, because a SID frame or comfort noise is in progress: a decrease of the
depth that is due takes effect, and a block is dropped (R272). -/
def fallNow (p : Play) : Play :=
  if p.fall then { p with fall := false, good := 0, depth := p.depth - 1, ba := p.ba - 40 } else p

/-- A block without a frame: comfort noise after a SID frame, concealed under PLC, or silence (R271). -/
def emptyBlock (v : PlayEnv) (s : State) (p0 : Play) : PlayEnd :=
  let p1 := { p0 with gap := p0.gap + 1 }
  let p := if p1.sid.isSome then fallNow p1 else p1
  match (if bitOf v.proc 1 then p.sid else none) with
  | some sid => comfortBlock v s p sid
  | none =>
    if bitOf v.proc 2 then
      let x := legKernel s v.codecs (codecRoom v.codec) 0x00020001 (if v.bytes = 160 then 1 else 0) []
      ⟨padTo v.bytes x.1, x.2, p, true, none, false⟩
    else ⟨zeros v.bytes, s, p, false, none, false⟩

/-- A frame begun: taken out of its queue and decoded. -/
def beginFrame (v : PlayEnv) (s : State) (p : Play) (f : MediaFrame) : PlayEnd :=
  let s1 := takeOut s v.q f.item
  let early := decide ((f.arr : Int) + 80 ≤ playNfn v p f)
  let p1 := { p with gap := 0, good := if early then p.good else 0, seen := noteSeen p f, sid := none }
  if f.sid then
    let p2 := fallNow { p1 with sid := some f.body }
    if bitOf v.proc 1 then { comfortBlock v s1 p2 f.body with begun := some f }
    else ⟨zeros v.bytes, s1, p2, false, some f, false⟩
  else
    let x := decodeUnits s1 v.codecs v.codec v.bytes (chunks (unitBytes729 v.codec) f.body)
    ⟨padTo v.bytes x.1, x.2, { p1 with hand := x.1.drop v.bytes }, false, some f, false⟩

/-- A frame of a CESoPSN leg whose source runs fast: it arrived two blocks or more before the depth
asks, so B_a moves a block earlier with SLIP and one block is dropped, a frame of one block only when
the next one is there to take its place (R274).
DESIGN CHOICE, log entry 175. -/
def beginFast (v : PlayEnv) (s : State) (p : Play) (f : MediaFrame) (wait : List MediaFrame) : PlayEnd :=
  let q := { p with ba := p.ba - 40 }
  if v.apt ≤ 1 then
    match wait.find? fun g => g.seq != f.seq && playNfn v q g == v.rel with
    | none => beginFrame v s p f
    | some g => { beginFrame v (takeOut s v.q f.item) { q with seen := noteSeen q f } g with slip := true }
  else
    let b := beginFrame v s q f
    { b with out := padTo v.bytes b.p.hand, p := { b.p with hand := b.p.hand.drop v.bytes }, slip := true }

/-- One block of a direction, out of the frames that wait. -/
def playBlock (v : PlayEnv) (s : State) (p0 : Play) (wait : List MediaFrame) : PlayEnd :=
  let p := { p0 with good := p0.good + 1 }
  if p.hand ≠ [] then
    ⟨padTo v.bytes p.hand, s, { p with hand := p.hand.drop v.bytes, gap := 0 }, false, none, false⟩
  else
    match wait.find? fun f => decide (playNfn v p f ≤ v.rel) with
    | some f =>
      if v.carry = .ces ∧ (f.arr : Int) + 40 * (p.depth + 2) ≤ playNfn v p f then beginFast v s p f wait
      else beginFrame v s p f
    | none => emptyBlock v s p

/-- The depth as JIT asks for: held at JINIT without ADAPT; with it, a decrease is due when over
2,000 blocks every frame came at least two blocks early and the depth is above JMIN (R272). -/
def tuneDepth (v : PlayEnv) (p : Play) : Play :=
  let j := depthsOf v.jit
  if p.on = false then p
  else if bitOf v.jit 24 then { p with fall := p.fall || (decide (2000 ≤ p.good) && decide (j.1 < p.depth)) }
  else { p with depth := j.2.1, ba := p.ba + 40 * ((j.2.1 : Int) - p.depth), fall := false }

/-! ## Portals and packets (R277, R296) -/

/-- An item pushed through a context's portal: cells come out of the clearing above its reserve, and
the push is stamped (R291, R294, R296). -/
def taskPush (s : State) (k q : Nat) (bs : List Byte) : State :=
  if freeCells s < (bs.length + 111) / 112 + csrFld s offQmgrClrRes 18 0 then bump s offQmgrAllocf
  else (pushBytes s q (0x20 + k / 32) (ts32 s.time) 0 bs).getD (bump s offQmgrAllocf)

/-- A media event on the channel's EVQ (R286). -/
def mediaEvent (s : State) (k ch code : Nat) (data : List Byte) : State :=
  let q := fld (descWord s ch 0x30) 15 0
  if q = 0xFFFF then s else taskPush s k q (eventRecord s (0x20 + k / 32) code ch 0 data)

/-- The input queue of the packet engine that the templates use: the lowest one enabled.
DESIGN CHOICE, log entry 175. -/
def txQueue (s : State) : Option Nat :=
  ((List.range 8).map fun i => csrGet s (offPktTxq + 4 * i)).find? (fun r => bitOf r 31) |>.map fun r => fld r 15 0

/-- A packet handed to the packet engine. -/
def sendItemBytes (s : State) (k : Nat) (bs : List Byte) : State :=
  match txQueue s with
  | none => s
  | some q => taskPush s k q bs

/-- The 16-byte prefix of a sent item (R307). -/
def txPrefix (flow kind flags dep : Nat) (rest : List Byte) : List Byte :=
  leBytes 2 flow ++ leBytes 1 kind ++ leBytes 1 flags ++ leBytes 4 dep ++ padTo 8 rest

/-- The RTP header of a sent packet (R308). -/
def legHeader (o : LegOut) (pt : Nat) (marker : Bool) : List Byte :=
  beBytes 2 (0x8000 + boolBit marker 7 + pt % 128) ++ beBytes 2 o.seq ++ beBytes 4 o.ts ++ beBytes 4 o.ssrc

/-- The timeslot of a pseudowire that names a channel. -/
def slotOfChan (s : State) (pw ch : Nat) : Nat :=
  ((List.range (byteAt (flowBytes s pw) 10)).find? fun t =>
    let m := flowBytes s (pw + 1 + t)
    flowType m == 3 && flowChan m == ch).getD 0

/-- The MEMBER entry of a bundle that names a channel. -/
def memberOfChan (s : State) (b ch : Nat) : Nat :=
  let f := flowBytes s b
  leAt f 10 2 + ((List.range (leAt f 12 2)).find? fun t =>
    let m := flowBytes s (leAt f 10 2 + t)
    flowType m == 5 && flowChan m == ch && leAt m 14 2 == b).getD 0

/-- A whole packet of a leg sent: departures of R277, SID frames on silence (R259).  `own`: the codec's
own VAD gave its SID frames, each of which is sent, behind voice too where the format allows it. -/
def sendPacket (s : State) (k ch flow rel : Nat) (w : Carry) (trunk own : Bool) (o : LegOut) : State × LegOut :=
  let fresh := { o with seq := (o.seq + 1) % 65536, body := [], blocks := 0, voice := false, sid := [], mute := ! o.voice }
  let next := { fresh with ts := (o.ts + 40 * o.blocks) % 4294967296 }
  let voice := if own = false then o.body else if w = .rtp then o.body ++ o.sid else padTo (o.blocks / 2 * 10) o.body
  let body := if o.voice then voice else o.sid
  if (o.voice = false ∧ o.mute ∧ own = false) ∨ body = [] then (s, { next with seq := o.seq })
  else
    match w with
    | .rtp =>
      let f := flowBytes s flow
      let pt := if o.voice then byteAt f 12 else byteAt f 13
      let dep := (rel + if trunk then 12 else 8) % 4294967296
      (sendItemBytes s k (txPrefix flow 0 1 dep [] ++ legHeader o pt (o.voice && o.mute) ++ body), next)
    | .bundle =>
      let m := memberOfChan s flow ch
      (sendItemBytes s k (txPrefix m 2 (if o.voice then 0 else 2) 0 (zeros 4 ++ leBytes 4 rel) ++ body), next)
    | .ces =>
      (sendItemBytes s k (txPrefix flow 1 1 ((rel + 8) % 4294967296)
        (leBytes 1 (slotOfChan s flow ch) ++ zeros 3 ++ leBytes 4 rel) ++ body), next)

/-- A block coded: a unit of G.729A is two blocks; the coded bytes, the half kept, and the state. -/
def encodeBlock (s : State) (at_ codec mode : Nat) (half block : List Byte) : List Byte × List Byte × State :=
  if codec = 8 ∧ half = [] then ([], block, s)
  else
    let x := legKernel s at_ (codecRoom codec) (encKernel codec) mode (half ++ block)
    let n := if codec = 8 then g729Len mode x.1.length else unitBytes729 codec
    (padTo n x.1, [], x.2)

/-- Whether a block is voice: under VAD of a codec without its own, as the VAD kernel finds. -/
def voiceBlock (s : State) (at_ codec : Nat) (vad : Bool) (block : List Byte) : Bool × State :=
  if vad = false ∨ codec = 8 then (true, s)
  else
    let x := legKernel s at_ (codecRoom codec) 0x00020002 (if block.length = 160 then 1 else 0) block
    ((byteAt x.1 0).testBit 0, x.2)

/-- A unit of G.729A coded with Annex B's VAD joins the packet being built: ten bytes are voice, two a
SID frame, and none says that the noise goes on as it was.  Silence ahead of voice leaves a gap.
DESIGN CHOICE, log entry 175. -/
def joinUnit (o : LegOut) (u : List Byte) : LegOut :=
  if u.length = 10 then { o with body := padTo (o.blocks / 2 * 10) o.body ++ u, voice := true, sid := [] }
  else if u = [] then o
  else { o with sid := u }

/-- A block sent on a leg: VAD, coded, and the packet queued when it is complete (R276). -/
def sendBlock (s : State) (k ch flow rel at_ codec pktTime : Nat) (w : Carry) (trunk vad : Bool) (o : LegOut)
    (block : List Byte) : State × LegOut :=
  let a := voiceBlock s at_ codec vad block
  let c := encodeBlock a.2 at_ codec (if codec = 8 then vad.toNat else codecMode codec) o.half block
  let sid := if a.1 then (o.sid, c.2.2) else legKernel c.2.2 at_ (codecRoom codec) 0x00020003 1 block
  let o0 := { o with half := c.2.1, blocks := o.blocks + 1 }
  let o1 := if codec = 8 ∧ vad then { joinUnit { o with half := c.2.1 } c.1 with blocks := o.blocks + 1 }
    else { o0 with body := o.body ++ c.1, voice := o.voice || a.1, sid := sid.1 }
  if (if w = .ces then 1 else pktTime) ≤ o1.blocks then sendPacket sid.2 k ch flow rel w trunk (codec == 8) o1 else (sid.2, o1)

/-! ## Tones (R260, R283) -/

/-- Whether a number names a tone of the generator (R283). -/
def isTone (n : Nat) : Bool :=
  (decide (0x10 ≤ n) && decide (n ≤ 0x1F)) || (decide (0x20 ≤ n) && decide (n ≤ 0x2E))
    || (decide (0x30 ≤ n) && decide (n ≤ 0x3E)) || (decide (0x40 ≤ n) && decide (n ≤ 0x4E))
    || (decide (0x50 ≤ n) && decide (n ≤ 0x52)) || (decide (0x60 ≤ n) && decide (n ≤ 0x67))

/-- The generator's 8 bytes of state, the last of the tone state (R251): tone, level, direction, blocks
left (0 until replaced), and blocks generated. -/
def genAt (s : State) (ch : Nat) : Nat := chanAddr s ch + 0xB8

/-- The command of TONEGEN taken, and GO cleared (R260). -/
def takeTone (s : State) (ch : Nat) : State :=
  let w := descWord s ch 0x2C
  if bitOf w 31 = false then s
  else
    let n := fld w 7 0
    let tone := if isTone n then n else 0
    let level := max 3 (min 40 (fld w 23 16))
    let s1 := busWrite s (chanAddr s ch + 0x2C) (leBytes 4 (setBit w 31 false).toNat)
    memWrite s1 (genAt s1 ch) (leBytes 1 tone ++ leBytes 1 level ++ leBytes 1 (fld w 8 8) ++ leBytes 1 (fld w 30 24) ++ zeros 4)

/-- The signal of direction `dir` (0 towards the access leg) with the tone in its place, if one plays
there; DUR counts its blocks (R260).  The cadence table of a call-progress tone is in the channel's
tone state (R283). -/
def addTone (s : State) (ch dir bytes : Nat) (block : List Byte) : List Byte × State :=
  let g := memBytes s (genAt s ch) 8
  if byteAt g 0 = 0 ∨ byteAt g 2 ≠ dir then (block, s)
  else
    let out := toneBlock (byteAt g 0) (byteAt g 1) (leAt g 4 4) bytes (memBytes s (chanAddr s ch + 0x80) 64)
    let left := byteAt g 3
    let g1 := if left = 1 then zeros 8
      else putBytes (putBytes g 3 (leBytes 1 (left - 1))) 4 (leBytes 4 (leAt g 4 4 + 1))
    (out, memWrite s (genAt s ch) g1)

/-! ## Detectors (R256, R286) -/

/-- The detectors of R256 that REL enables, each with its number in R286, its kernel, its state and the
tones it reports. -/
structure Detector where
  no : Nat
  bit : Nat
  id : Nat
  ofs : Nat
  size : Nat
  first : Nat
  count : Nat
  deriving DecidableEq, Repr

def detectors : List Detector := [
  ⟨0, 18, 0x00030001, 0x80, 12, 0x10, 16⟩,
  ⟨1, 19, 0x00030002, 0x8C, 12, 0x20, 15⟩,
  ⟨2, 20, 0x00030003, 0x98, 12, 0x30, 15⟩,
  ⟨3, 21, 0x00030004, 0xA4, 12, 0x50, 3⟩,
  ⟨4, 22, 0x00030005, 0xB0, 8, 0x60, 8⟩]

/-- The data of a tone event (R286), access-to-trunk. -/
def toneData (tone det third rel : Nat) : List Byte :=
  leBytes 1 tone ++ leBytes 1 det ++ leBytes 1 third ++ zeros 1 ++ leBytes 4 rel

/-- One detector run on a block: a tone begins, lasts or ends (R286); what the detector hears is
free, within the tones it knows.  The last two bytes of its state hold the tone that lasts and its
blocks. -/
def runDetector (s : State) (k ch : Nat) (block : List Byte) (x : Detector) : State :=
  let rel := (mediaGet s ch).rel
  let at_ := chanAddr s ch + x.ofs
  let st := memBytes s at_ x.size
  let r := kernelStep x.id 0 st block
  let tone := if byteAt r.1 0 = 0 then 0 else x.first + byteAt r.1 0 % x.count
  let was := byteAt st (x.size - 2)
  let n := byteAt st (x.size - 1)
  let keep := fun (s : State) (n : Nat) =>
    memWrite s at_ (r.2.take (x.size - 2) ++ leBytes 1 tone ++ leBytes 1 (min 255 n))
  if tone = was then keep s (if tone = 0 then 0 else n + 1)
  else
    let s1 := if was = 0 then s else mediaEvent s k ch 0x41 (toneData was x.no n rel)
    if tone = 0 then keep s1 0
    else statAdd (mediaEvent (keep s1 1) k ch 0x40 (toneData tone x.no (byteAt r.1 1) rel)) ch 0x54 4 1

/-- The enabled detectors run on the cancelled block; on a wideband channel, on chain P's output. -/
def runDetectors (s : State) (k ch : Nat) (rel : Word) (block : List Byte) : State :=
  (detectors.filter fun x => bitOf rel x.bit).foldl (fun a x => runDetector a k ch block x) s

/-! ## Commands to the units (R142) -/

/-- A command that the templates give a unit: to the ECA or the RSF. -/
structure TaskCmd where
  eca : Bool
  w0 : Word
  w1 : Word
  w2 : Word
  w3 : Word
  deriving DecidableEq, Repr

/-- A step of a task from `s` to `t` that gives the units commands.  Where a queue has no room for all
of them the refusal is counted, and the step is done again when the context issues next.
DESIGN CHOICE, log entry 175. -/
def giveAll (s : State) (k : Nat) (l : List TaskCmd) (t : State) (then_ : State → State) : State :=
  let ec := (l.filter fun x => x.eca).length
  let rs := l.length - ec
  if 512 < s.eca.unit.q.length + ec then bump s offEcaQfull
  else if 256 < s.rsf.unit.q.length + rs then bump s offRsfQfull
  else then_ (l.foldl (fun a x =>
    let c : UnitCmd := ⟨x.w0, x.w1, x.w2, x.w3, k, privileged s k⟩
    ((if x.eca then ecaEnqueue a c else rsfEnqueue a c).getD a)) t)

/-- W0 of a command (R208, R240). -/
def cmdW0 (code flags ch : Nat) : Word := wordOf (code + flags * 0x100 + ch * 0x10000)

/-- The KIND 1 target word of a context (R139). -/
def ctxTarget (k : Nat) : Word := wordOf (0x80000000 + k / 32 + k / 4 % 8 * 0x20 + k % 4 * 0x100)

/-- RUN of a chain, with a completion to the context or with none. -/
def runCmd (ch blk area : Nat) (target : Word) : TaskCmd := ⟨false, cmdW0 1 0 ch, target, wordOf blk, wordOf area⟩

/-- The header of an input area (R242). -/
def inputHeader (nin flags ts ns : Nat) : List Byte :=
  leBytes 2 nin ++ leBytes 1 flags ++ zeros 1 ++ leBytes 4 ts ++ leBytes 8 ns

/-! ## The kernel of the standard tasks -/

/-- The context leaves the kernel's step for a WAITEVT, after which it goes on at `pc`. -/
def taskWait (s : State) (k pc : Nat) : State :=
  let c := { ctxGet s k with pc := pc - 4 }
  let s1 := ctxPut s k c
  match takeSig s1 k with
  | some (c1, s2) => refillSig (endInstr s2 k c1) k
  | none => markDlk k s (startWait s1 k c (.waitEvt none))

/-- The task ends with DONE, and the kernel returns to its caller (R140, R168). -/
def taskEnd (s : State) (k : Nat) : State := kernelReturn (endService s k) k 0 0

/-- What a task needs of its channel. -/
structure TaskEnv where
  k : Nat
  ch : Nat
  d : Desc
  y : Lay
  deriving DecidableEq, Repr

/-- The descriptor that a channel's tasks go by: the fixed half as it was accepted, so that no write
to it reaches another channel, and the live half as it stands (R30, R267, R268).
DESIGN CHOICE, log entry 186. -/
def taskDesc (s : State) (ch : Nat) : Desc :=
  let d := descOf s ch
  match bindGet s ch with
  | none => d
  | some b =>
    let w := fun i => b.fixed.getD i 0
    { d with ctl := w 0, media := w 1, ecrec := w 2, keys := w 3, queues := w 4, flows := w 5, rel := w 6, qlim := w 7 }

def taskEnv (s : State) (k ch : Nat) : TaskEnv :=
  let d := taskDesc s ch
  ⟨k, ch, d, layOf s ch (dWide d)⟩

/-- A direction's playout environment: the leg it comes from. -/
def playEnv (s : State) (t : TaskEnv) (fromTrunk : Bool) : PlayEnv where
  ch := t.ch
  q := if fromTrunk then fld t.d.queues 15 0 else fld t.d.queues 31 16
  rel := (mediaGet s t.ch).rel
  apt := fld t.d.media 11 8
  carry := carryOf t.d fromTrunk
  codec := if fromTrunk then dTcodec t.d else dAcodec t.d
  codecs := codecAt t.y t.d fromTrunk
  bytes := t.y.bytes
  jit := t.d.jit
  proc := t.d.proc

/-- Restarts counted and reported (R273). -/
def noteRestarts (s : State) (t : TaskEnv) (causes : List Nat) : State :=
  causes.foldl (fun a c => statAdd (mediaEvent a t.k t.ch 0x42
    (leBytes 1 c ++ zeros 3 ++ leBytes 4 (mediaGet a t.ch).rel)) t.ch 0x50 2 1) s

/-- One or two blocks of a direction played: the samples, the state with its counts, the playout, the
observation, and whether playout restarted. -/
structure DirEnd where
  out : List Byte
  s : State
  p : Play
  obs : Option (Nat × Nat)
  again : Bool
  deriving DecidableEq, Repr

/-- A direction played for a period: `n` blocks are taken, 0 to hold the next one, 2 to take one early
(R274). -/
def playDir (s : State) (t : TaskEnv) (fromTrunk takeover : Bool) (p0 : Play) (n : Nat) : DirEnd :=
  let v := playEnv s t fromTrunk
  let p1 := if takeover then dropAnchor p0 else p0
  let x := readQueue v s (tuneDepth v p1)
  let join := fun (a b : PlayEnd) => { b with
    out := a.out ++ b.out, begun := if a.begun.isSome then a.begun else b.begun, slip := a.slip || b.slip }
  let r : PlayEnd × Nat := match n with
    | 0 => (⟨[], x.s, { x.p with ba := x.p.ba + 40 }, false, none, false⟩, 0)
    | 1 => let b := if x.rose then emptyBlock v x.s x.p else playBlock v x.s x.p x.wait; (b, b.concealed.toNat)
    | _ =>
      let a := playBlock v x.s x.p x.wait
      let b := playBlock v a.s { a.p with ba := a.p.ba - 40 } x.wait
      (join a b, a.concealed.toNat + b.concealed.toNat)
  let p := r.1.p
  let lost := p.on && decide (40 ≤ p.gap)
  let causes := (if takeover then [3] else []) ++ x.causes ++ (if lost then [0] else [])
  let s1 := statAdd (statAdd (statAdd r.1.s t.ch 0x48 4 x.late) t.ch 0x4C 4 r.2) t.ch 0x52 2
    (x.slip + r.1.slip.toNat + if n = 1 then 0 else 1)
  { out := r.1.out
    s := noteRestarts s1 t causes
    p := if lost then dropAnchor p else p
    obs := r.1.begun.map fun f => (f.ts, f.arrNs)
    again := ! causes.isEmpty }

/-! ### The period task -/

/-- CFG of a default image with the class and the kind of destination that R251 gives its chain. -/
def imageCfg (im : List Byte) (tone rec_ : Bool) : Word := setBit (setBit (wordOf (leAt im 4 4)) 8 tone) 9 rec_

/-- The images that INIT takes (R278): the host's, or the ROM's default images as R251 has the chains,
with the channel's rate, addresses, target, phase delay and drift option in them.
DESIGN CHOICE, log entry 175. -/
def placeImages (s : State) (t : TaskEnv) : State :=
  if bitOf t.d.ctl 4 then s
  else
    let wide := dWide t.d
    let image := fun i => romBytes (romPlace 1 + 1024 * (i + if wide then 3 else 0)) 1024
    let rates := fun (w : Word) => setFld (setFld w 2 1 wide.toNat) 4 3 wide.toNat
    let put := fun (im : List Byte) (cfg : Word) (dest : Nat) => putBytes im 4 (leBytes 4 cfg.toNat ++ leBytes 4 dest)
    let imT := put (image 0) (setBit (rates (imageCfg (image 0) false false)) 7 (bitOf t.d.ctl 5)) t.y.outT
    let imE := putBytes (put (image 1) (rates (imageCfg (image 1) false true)) (fld t.d.ecrec 15 0)) 0x20
      (leBytes 1 (phdlyOf t.d.proc))
    let imP := putBytes (put (image 2) (imageCfg (image 2) true false) t.y.outP) 0xC (leBytes 4 (0x03010000 + t.ch))
    memWrite (memWrite (memWrite s (chainT s t.ch) imT) (chainE s t.ch) imE) (chainP s t.ch) imP

/-- Whether the EC record is kept: valid MAGIC, the channel its owner, and the MODE of ECMODE (R268). -/
def keepsEc (s : State) (t : TaskEnv) : Bool :=
  let a := ecAddr s (fld t.d.ecrec 15 0)
  memNat s (a + 0xE00) 2 == 0x4543 && memNat s (a + 0xE02) 2 == t.ch && memNat s (a + 0xE04) 4 % 8 == dEcMode t.d

/-- INIT of the chains and of the EC records (R278); records kept take the channel's options with
SETCFG. -/
def initCmds (s : State) (t : TaskEnv) : List TaskCmd :=
  let init := fun (a : Nat) => (⟨false, cmdW0 2 0 t.ch, 0xFFFFFFFF, wordOf a, wordOf a⟩ : TaskCmd)
  let cfg := wordOf (ecCfgOf (dEcMode t.d) t.d.proc)
  [init (chainT s t.ch), init (chainE s t.ch), init (chainP s t.ch)] ++ (if dEcMode t.d = 0 then []
        else if keepsEc s t then [⟨true, cmdW0 6 0 t.ch, 0xFFFFFFFF, wordOf (fld t.d.ecrec 15 0), cfg⟩]
        else [⟨true, cmdW0 2 0 t.ch, 0xFFFFFFFF, t.d.ecrec, cfg⟩])

/-- Changes of the live options since the last period: SETDELAY with XFADE, and SETCFG (R267). -/
def liveCmds (s : State) (t : TaskEnv) : List TaskCmd :=
  let old := (mediaGet s t.ch).proc
  if dEcMode t.d = 0 then []
  else
    (if phdlyOf old = phdlyOf t.d.proc then []
     else [⟨false, cmdW0 4 1 t.ch, 0xFFFFFFFF, wordOf (chainE s t.ch), wordOf (phdlyOf t.d.proc)⟩])
    ++ (if ecCfgOf (dEcMode t.d) old = ecCfgOf (dEcMode t.d) t.d.proc then []
        else [⟨true, cmdW0 6 0 t.ch, 0xFFFFFFFF, wordOf (fld t.d.ecrec 15 0), wordOf (ecCfgOf (dEcMode t.d) t.d.proc)⟩])

/-- RTP fields with which a leg begins, which the spec leaves open.
DESIGN CHOICE, log entry 26. -/
def freshLeg (s : State) (i : Nat) : LegOut :=
  { LegOut.reset with
    seq := Config.kernelTemp s.free (30 + i) % 65536
    ts := Config.kernelTemp s.free (40 + i) % 4294967296
    ssrc := Config.kernelTemp s.free (50 + i) % 4294967296 }

/-- The record and the task state as the first period leaves them (R278). -/
def freshChannel (s : State) (t : TaskEnv) (rel : Nat) : State :=
  let a := chanAddr s t.ch
  let s1 := memWrite s (a + 0x40) (zeros 0x80)
  let s2 := if dWide t.d then memWrite s1 (chanAddr s1 (t.ch + 8192) + 0x310) (zeros 384) else memWrite s1 (a + 0xC0) (zeros 432)
  let m : Media := { Media.reset with
    access := freshLeg s 0, trunk := freshLeg s 1, rel := rel, proc := t.d.proc }
  mediaPut (placeImages { s2 with free := s2.free + 1 } t) t.ch m

/-- The input area of chain T: header and samples (R242, R274). -/
def putInput (s : State) (t : TaskEnv) (samples : List Byte) (resync : Bool) (obs : Option (Nat × Nat)) : State :=
  let o := if bitOf t.d.ctl 5 && carryOf t.d true == .rtp then obs else none
  memWrite s t.y.inT (inputHeader (samples.length / 2) (boolBit o.isSome 0 + boolBit resync 1) (o.getD (0, 0)).1
    (o.getD (0, 0)).2 ++ samples)

/-- Blocks that a period takes for chain T by its FIFOLVL (R274). -/
def blocksTaken (fifo : Nat) (wide : Bool) : Nat :=
  let f := if wide then fifo / 2 else fifo
  if f < 8 then 2 else if 48 ≤ f then 0 else 1

/-- The status of the playout towards the access leg (R275). -/
def putStatus (s : State) (t : TaskEnv) (p : Play) : State :=
  let s1 := statFlag (statFlag s t.ch 1 p.on) t.ch 2 p.sid.isSome
  let s2 := statPut s1 t.ch 0x44 1 p.depth
  let s3 := if statGet s2 t.ch 0x45 1 < p.depth then statPut s2 t.ch 0x45 1 p.depth else s2
  statPut s3 t.ch 0x58 8 (mediaGet s3 t.ch).rel

/-- Whether this is the first release after a promotion that LASTREL precedes (R464). -/
def tookOver (s : State) (ch : Nat) : Bool :=
  decide (statGet s ch 0x58 8 < s.mirr.promo) && decide (s.mirr.promo ≤ (mediaGet s ch).rel)

/-- A block sent on the access leg, or towards the trunk with VAD as PROC says (R276). -/
def sendLeg (s : State) (t : TaskEnv) (trunk : Bool) (block : List Byte) : State :=
  let m := mediaGet s t.ch
  let r := sendBlock s t.k t.ch (if trunk then fld t.d.flows 15 0 else fld t.d.flows 31 16) (m.rel % 4294967296)
    (codecAt t.y t.d trunk) (if trunk then dTcodec t.d else dAcodec t.d)
    (if trunk then fld t.d.media 15 12 else fld t.d.media 11 8) (carryOf t.d trunk) trunk
    (trunk && bitOf t.d.proc 0) (if trunk then m.trunk else m.access) block
  let m1 := mediaGet r.1 t.ch
  mediaPut r.1 t.ch (if trunk then { m1 with trunk := r.2 } else { m1 with access := r.2 })

/-- The first period: INIT of chains and records, silence both ways, FIRST cleared (R278). -/
def firstPeriod (s : State) (t : TaskEnv) (rel : Nat) : State :=
  let s1 := freshChannel s t rel
  let s2 := sendLeg (sendLeg s1 t false (zeros t.y.bytes)) t true (zeros t.y.bytes)
  let s3 := statPut s2 t.ch 0x58 8 rel
  let s4 := busWrite s3 (chanAddr s3 t.ch + 0x20) (leBytes 4 (setBit (chanStat s3 t.ch) 9 false).toNat)
  giveAll s t.k (initCmds s1 t) s4 fun a => taskEnd a t.k

/-- The period task up to chain T: the command of TONEGEN, the options changed, and the
trunk-to-access block played out, decoded and given to chain T (R260, R267, R276). -/
def periodStart (s : State) (t : TaskEnv) (rel next : Nat) : State :=
  let m := mediaGet s t.ch
  let stop := bitOf t.d.proc 6
  if bitOf (chanStat s t.ch) 9 then firstPeriod s t rel
  else if stop ∧ m.quiet ≠ 0 then taskEnd (statPut s t.ch 0x58 8 rel) t.k
  else
    let s0 := mediaPut s t.ch { m with rel := rel, quiet := stop.toNat }
    let handed := tookOver s0 t.ch
    let s1 := takeTone (if m.quiet = 2 then statFlag s0 t.ch 0 false else s0) t.ch
    let x := playDir s1 t true handed (playGet s1 t.ch 0) (blocksTaken m.fifo (dWide t.d))
    let s2 := playPut (putStatus (putInput x.s t x.out (x.again || m.resync) x.obs) t x.p) t.ch 0 x.p
    let s3 := mediaPut s2 t.ch { mediaGet s2 t.ch with resync := false, proc := t.d.proc, handed := handed }
    giveAll s t.k (liveCmds s t ++ [runCmd t.ch (chainT s t.ch) t.y.inT (ctxTarget t.k)]) s3 fun a => taskWait a t.k next

/-- The end of a channel's orderly stop, once its last period's continuation has ended (R269). -/
def quietEnd (s : State) (t : TaskEnv) : State :=
  let m := mediaGet s t.ch
  if m.quiet = 1 then
    mediaEvent (statFlag (mediaPut s t.ch { m with quiet := 2 }) t.ch 0 true) t.k t.ch 0x43
      (zeros 4 ++ leBytes 4 (m.rel % 4294967296))
  else s

/-- The continuation's work on the cancelled block: chain P, the detectors, a tone towards the trunk,
VAD, and the encoded block queued (R276). -/
def continueWork (s : State) (t : TaskEnv) : State :=
  let s1 := memWrite s (t.y.blk - 16) (inputHeader (t.y.bytes / 2) 0 0 0)
  let cmds := if bitOf t.d.ctl 6 then [runCmd t.ch (chainP s t.ch) (t.y.blk - 16) 0xFFFFFFFF] else []
  let block := memBytes s1 t.y.blk t.y.bytes
  let heard := if dWide t.d then memBytes s1 t.y.outP 32 else block
  let s2 := runDetectors s1 t.k t.ch t.d.rel heard
  let x := addTone s2 t.ch 1 t.y.bytes block
  giveAll s t.k cmds (quietEnd (sendLeg x.2 t true x.1) t) fun a => taskEnd a t.k

/-- The period task's end: the access-to-trunk block played out and given to the ECA, with completion
to slot 1 of (channel, 0x02); without an EC the continuation's work follows at once (R276). -/
def periodEnd (s : State) (t : TaskEnv) : State :=
  let m := mediaGet s t.ch
  let x := playDir s t false m.handed (playGet s t.ch 1) 1
  let s1 := playPut (memWrite x.s t.y.blk x.out) t.ch 1 x.p
  let s2 := mediaPut s1 t.ch { mediaGet s1 t.ch with resync := m.resync || x.again }
  if dEcMode t.d = 0 then continueWork s2 t
  else
    let cmd : TaskCmd := ⟨true, cmdW0 1 0 t.ch, wordOf (0x01020000 + t.ch),
      wordOf (fld t.d.ecrec 15 0 + m.rel / 40 % 65536 * 0x10000), wordOf t.y.blk⟩
    giveAll s t.k [cmd] s2 fun a => taskEnd a t.k

/-- The period task behind chain T: FIFOLVL noted, a tone in place of the block, the block encoded
towards the access leg and given to chain E, whose end it waits for (R274, R276). -/
def periodMid (s : State) (t : TaskEnv) (next : Nat) : State :=
  let g1 := gGet (flush (ctxGet s t.k)) 1
  let m := mediaGet s t.ch
  let s1 := if fld g1 7 0 = 0 then mediaPut s t.ch { m with fifo := fld g1 31 24 } else s
  let x := addTone s1 t.ch 0 t.y.bytes (memBytes s1 t.y.outT t.y.bytes)
  let s2 := sendLeg (memWrite x.2 t.y.outT x.1) t false x.1
  if dEcMode t.d = 0 then periodEnd s2 t
  else
    let s3 := memWrite s2 (t.y.outT - 16) (inputHeader (t.y.bytes / 2) 0 0 0)
    giveAll s t.k [runCmd t.ch (chainE s t.ch) (t.y.outT - 16) (ctxTarget t.k)] s3 fun a => taskWait a t.k next

/-- A step of the kernel of the standard tasks by context `k`, `ofs` bytes into it at `base`: it is
called with what TAKE returned, and goes on behind its waits for the RSF at offsets 0x10 and 0x20.
A task of another template returns with an error.
DESIGN CHOICE, log entries 26, 175. -/
def standardTasks (s : State) (k base ofs : Nat) : State :=
  let c := flush (ctxGet s k)
  match c.task with
  | none => kernelReturn s k 1 0
  | some u =>
    let t := taskEnv s k u.chan
    if u.tmpl = 2 then continueWork s t
    else if u.tmpl ≠ 1 then kernelReturn s k 1 0
    else if ofs = 0 then
      periodStart s t (extend32 (nfnOf s) (gGet c 4).toNat).toNat (base + 0x10)
    else if gGet c 0 ≠ wordOf (0x8000 + rsfSrc) then taskWait s k (base + ofs)
    else if ofs = 0x10 then periodMid s t (base + 0x20)
    else periodEnd s t

/-- The kernel that stands at the PC runs. -/
def kernelRun (s : State) (k : Nat) (x : KernAt) (ofs : Nat) : State :=
  if x.row = 17 then standardTasks s k x.at_ ofs else kernelCall s k x.row

end Sys2Proof.Machine
end

