-- ==== Sys2Proof/Machine/Issue.lean ====
section
/-! DEFINITION. An engine issues (R73, R91, R99, R107, R117): the counts of an issue, the checks
of a fetch, and the kernels of the Media ROM, which run whole. -/

namespace Sys2Proof.Machine

/-- Context `k` issues: LASTCTX, the counts of issues and of changes of the issuing context,
and what PCc and the hold limit need of it (R99, R100, R108).
DESIGN CHOICE, log entry 160. -/
def issueMarks (s : State) (k : Nat) : State :=
  let e := k / 4
  let c := ctxGet s k
  let s1 := ctxPut s k { c with lastPc := c.pc, holdCnt := if stHold c then c.holdCnt + 1 else 0 }
  let s2 := if (engGet s e).last = k % 4 then s1 else bump s1 (engReg offGroveEngSw e)
  bump (engPut s2 e { engGet s2 e with last := k % 4 }) (engReg offGroveEngIss e)

/-- The instruction of the command issues on engine `e` (R117): nothing without a
RUNNING context; an annulled slot is issued without effect (R91, R148); the fetch checks of
R73 and R107; where a kernel of the Media ROM stands, the kernel runs (R280), as the spec gives
what it does and not its code; else `op` acts on the context.
DESIGN CHOICE, log entries 5, 9, 13, 26; DEDUCED, log entries 43, 158. -/
def issue (s : State) (e : Nat) (op : State → Nat → State) : State :=
  match runningOf s e with
  | none => s
  | some k =>
    let c := ctxGet s k
    if annulled c then endInstr (issueMarks s k) k (ctxGet (issueMarks s k) k)
    else if c.pc ≥ pmSize e then excAddress s k (wordOf c.pc)
    else if isPoison s (fetchPa e c.pc) then machineCheck s k (fetchPa e c.pc)
    else
      let s1 := issueMarks (correct s (fetchPa e c.pc) 4) k
      match (if c.pend.isSome then none else kernelAt s e c.pc) with
      | none => op s1 k
      | some x => kernelRun s1 k x (c.pc - x.at_)

end Sys2Proof.Machine
end

