-- ==== Sys2Proof/Machine/Lemgil.lean ====
section
/-! DEFINITION. The Lemgil instructions of 04_instruction_reference.md that act
within the engine: ALU, moves, accumulators, MAC class, loads and stores, control flow
and the system group.  Operands are the encoding fields of R119; a field value that
makes the encoding undefined raises the illegal-instruction exception (R118). -/

namespace Sys2Proof.Machine

/-! ## ALU -/

/-- An ALU instruction: result and flags from the context's registers, both of
latency 1 (R86, R122); `rd` is absent in CMP, TST and CMPI. -/
def aluOp (s : State) (e : Nat) (rd : Option Nat) (f : Ctx → Word × FlagWrite) : State :=
  issue s e fun s k =>
    let c := ctxGet s k
    let r := f c
    let c1 := setFlags c r.2
    endInstr s k (match rd with | none => c1 | some d => sendW c1 1 (.g d) r.1)

/-- The two G operands of a register ALU instruction. -/
def gg (rs rt : BitVec 4) (f : Word → Word → Word × FlagWrite) (c : Ctx) : Word × FlagWrite :=
  f (gGet c rs.toNat) (gGet c rt.toNat)

/-- An immediate, zero-extended. -/
def immZ (i : BitVec 16) : Word := i.zeroExtend 32

/-- An immediate, sign-extended. -/
def immS (i : BitVec 16) : Word := i.signExtend 32

def execAdd (e : Nat) (rd rs rt : BitVec 4) (s : State) : Result :=
  .next (aluOp s e (some rd.toNat) (gg rs rt (aluAdd false)))

def execAdds (e : Nat) (rd rs rt : BitVec 4) (s : State) : Result :=
  .next (aluOp s e (some rd.toNat) (gg rs rt (aluAdd true)))

def execSub (e : Nat) (rd rs rt : BitVec 4) (s : State) : Result :=
  .next (aluOp s e (some rd.toNat) (gg rs rt (aluSub false)))

def execSubs (e : Nat) (rd rs rt : BitVec 4) (s : State) : Result :=
  .next (aluOp s e (some rd.toNat) (gg rs rt (aluSub true)))

def execCmp (e : Nat) (rs rt : BitVec 4) (s : State) : Result :=
  .next (aluOp s e none (gg rs rt (aluSub false)))

def execAnd (e : Nat) (rd rs rt : BitVec 4) (s : State) : Result :=
  .next (aluOp s e (some rd.toNat) (gg rs rt fun a b => aluZN (a &&& b)))

def execOr (e : Nat) (rd rs rt : BitVec 4) (s : State) : Result :=
  .next (aluOp s e (some rd.toNat) (gg rs rt fun a b => aluZN (a ||| b)))

def execXor (e : Nat) (rd rs rt : BitVec 4) (s : State) : Result :=
  .next (aluOp s e (some rd.toNat) (gg rs rt fun a b => aluZN (a ^^^ b)))

def execAndn (e : Nat) (rd rs rt : BitVec 4) (s : State) : Result :=
  .next (aluOp s e (some rd.toNat) (gg rs rt fun a b => aluZN (a &&& ~~~ b)))

def execTst (e : Nat) (rs rt : BitVec 4) (s : State) : Result :=
  .next (aluOp s e none (gg rs rt fun a b => aluZN (a &&& b)))

def execShl (e : Nat) (rd rs rt : BitVec 4) (s : State) : Result :=
  .next (aluOp s e (some rd.toNat) (gg rs rt fun a b => aluZN (shiftLeft a (b.toNat % 64))))

def execShr (e : Nat) (rd rs rt : BitVec 4) (s : State) : Result :=
  .next (aluOp s e (some rd.toNat) (gg rs rt fun a b => aluZN (shiftRight a (b.toNat % 64))))

def execSar (e : Nat) (rd rs rt : BitVec 4) (s : State) : Result :=
  .next (aluOp s e (some rd.toNat) (gg rs rt fun a b => aluZN (shiftArith a (b.toNat % 64))))

def execMin (e : Nat) (rd rs rt : BitVec 4) (s : State) : Result :=
  .next (aluOp s e (some rd.toNat) (gg rs rt fun a b => aluZN (sMin a b)))

def execMax (e : Nat) (rd rs rt : BitVec 4) (s : State) : Result :=
  .next (aluOp s e (some rd.toNat) (gg rs rt fun a b => aluZN (sMax a b)))

def execNeg (e : Nat) (rd rs : BitVec 4) (s : State) : Result :=
  .next (aluOp s e (some rd.toNat) fun c => aluSub false 0 (gGet c rs.toNat))

def execAbs (e : Nat) (rd rs : BitVec 4) (s : State) : Result :=
  .next (aluOp s e (some rd.toNat) fun c => aluAbs (gGet c rs.toNat))

def execClz (e : Nat) (rd rs : BitVec 4) (s : State) : Result :=
  .next (aluOp s e (some rd.toNat) fun c => aluZN (wordOf (leadZeros (gGet c rs.toNat))))

def execMul (e : Nat) (rd rs rt : BitVec 4) (s : State) : Result :=
  .next (aluOp s e (some rd.toNat) (gg rs rt fun a b => aluZN (a * b)))

def execSexh (e : Nat) (rd rs : BitVec 4) (s : State) : Result :=
  .next (aluOp s e (some rd.toNat) fun c =>
    aluZN (((gGet c rs.toNat).truncate 16).signExtend 32))

def execAddi (e : Nat) (rd rs : BitVec 4) (imm : BitVec 16) (s : State) : Result :=
  .next (aluOp s e (some rd.toNat) fun c => aluAdd false (gGet c rs.toNat) (immS imm))

def execAndi (e : Nat) (rd rs : BitVec 4) (imm : BitVec 16) (s : State) : Result :=
  .next (aluOp s e (some rd.toNat) fun c => aluZN (gGet c rs.toNat &&& immZ imm))

def execOri (e : Nat) (rd rs : BitVec 4) (imm : BitVec 16) (s : State) : Result :=
  .next (aluOp s e (some rd.toNat) fun c => aluZN (gGet c rs.toNat ||| immZ imm))

def execXori (e : Nat) (rd rs : BitVec 4) (imm : BitVec 16) (s : State) : Result :=
  .next (aluOp s e (some rd.toNat) fun c => aluZN (gGet c rs.toNat ^^^ immZ imm))

def execCmpi (e : Nat) (rs : BitVec 4) (imm : BitVec 16) (s : State) : Result :=
  .next (aluOp s e none fun c => aluSub false (gGet c rs.toNat) (immS imm))

def execShli (e : Nat) (rd rs : BitVec 4) (sh : BitVec 5) (s : State) : Result :=
  .next (aluOp s e (some rd.toNat) fun c => aluZN (shiftLeft (gGet c rs.toNat) sh.toNat))

def execShri (e : Nat) (rd rs : BitVec 4) (sh : BitVec 5) (s : State) : Result :=
  .next (aluOp s e (some rd.toNat) fun c => aluZN (shiftRight (gGet c rs.toNat) sh.toNat))

def execSari (e : Nat) (rd rs : BitVec 4) (sh : BitVec 5) (s : State) : Result :=
  .next (aluOp s e (some rd.toNat) fun c => aluZN (shiftArith (gGet c rs.toNat) sh.toNat))

/-! ## Moves -/

/-- A G, P or M register by class code and number, if it exists (R120). -/
def gpmReg (cl n : Nat) : Option RegId :=
  match cl with
  | 0 => if n < 16 then some (.g n) else none
  | 1 => if n < 8 then some (.p n) else none
  | 2 => if n < 8 then some (.m n) else none
  | _ => none

/-- The 32-bit value of a G, P, M or special register. -/
def regRead (c : Ctx) (r : RegId) : Word :=
  match r with
  | .g n => gGet c n
  | .p n => pGet c n
  | .m n => mGet c n
  | .sp n => spGet c n
  | .a n => (aGet c n).truncate 32
  | .stAV => 0
  | .stSS => 0

/-- An instruction that acts, or raises the illegal-instruction exception where `x` is
`none` (R118). -/
def orIllegal (s : State) (k : Nat) (x : Option Ctx) : State :=
  match x with
  | none => excIllegal s k
  | some c => endInstr s k c

def execMovi (e : Nat) (rd : BitVec 4) (cl : BitVec 3) (imm : BitVec 16) (s : State) : Result :=
  .next (issue s e fun s k =>
    let c := ctxGet s k
    orIllegal s k ((gpmReg cl.toNat rd.toNat).map fun r => sendW c 1 r (immZ imm)))

def execMovhi (e : Nat) (rd : BitVec 4) (cl : BitVec 3) (imm : BitVec 16) (s : State) : Result :=
  .next (issue s e fun s k =>
    let c := ctxGet s k
    orIllegal s k ((gpmReg cl.toNat rd.toNat).map fun r =>
      sendW c 1 r ((regRead c r &&& 0xFFFF#32) ||| (immZ imm <<< 16))))

/-- ST after a MOV to it: every RW field taken, PRIV only on a supervisor in
privileged state (R80, R125). -/
def movToSt (k : Nat) (old v : Word) : Word :=
  let m : Word := if isSup (k / 4) && bitOf old 15 then 0xFCCF#32 else 0x7CCF#32
  (old &&& ~~~ m) ||| (v &&& m)

/-- MOV between classes (R124, R125); `none` for a pair that is undefined. -/
def movEffect (k : Nat) (c : Ctx) (rd dcl rs scl : Nat) : Option Ctx :=
  match gpmReg dcl rd, gpmReg scl rs with
  | some d, some r => some (sendW c 1 d (regRead c r))
  | none, some (.g n) =>
    if dcl = 3 ∧ rd < 4 then some (send c 2 (.a rd) ((gGet c n).signExtend 40))
    else if dcl = 4 ∧ rd = 0 then some (sendW c 1 (.sp 0) (movToSt k c.st (gGet c n)))
    else if dcl = 4 ∧ rd < 12 then some (sendW c 1 (.sp rd) (gGet c n))
    else none
  | some (.g d), none => if scl = 4 ∧ rs < 12 then some (sendW c 1 (.g d) (spGet c rs)) else none
  | none, none => if dcl = 3 ∧ scl = 3 ∧ rd < 4 ∧ rs < 4 then some (send c 2 (.a rd) (aGet c rs)) else none
  | _, _ => none

def execMov (e : Nat) (rd : BitVec 4) (dcl : BitVec 3) (rs : BitVec 4) (scl : BitVec 3) (s : State) : Result :=
  .next (issue s e fun s k =>
    orIllegal s k (movEffect k (ctxGet s k) rd.toNat dcl.toNat rs.toNat scl.toNat))

/-! ## Accumulators (R126) -/

/-- A 40-bit result under R83 with latency 2. -/
def accResult (c : Ctx) (ad : Nat) (r : BitVec 40 × Bool) : Ctx :=
  sendFlag (send c 2 (.a ad) r.1) r.2 .stAV

def execMovh (e : Nat) (rd : BitVec 4) (as_ : BitVec 2) (rnd : Bool) (s : State) : Result :=
  .next (issue s e fun s k =>
    let c := ctxGet s k
    let r := acc16 rnd (stRnd c) (aGet c as_.toNat)
    endInstr s k (sendFlag (sendW c 1 (.g rd.toNat) (r.1.signExtend 32)) r.2 .stSS))

def execMovw (e : Nat) (rd : BitVec 4) (as_ : BitVec 2) (s : State) : Result :=
  .next (issue s e fun s k =>
    let c := ctxGet s k
    let r := acc32 (aGet c as_.toNat)
    endInstr s k (sendFlag (sendW c 1 (.g rd.toNat) r.1) r.2 .stSS))

def execMovx (e : Nat) (rd : BitVec 4) (as_ : BitVec 2) (s : State) : Result :=
  .next (issue s e fun s k =>
    let c := ctxGet s k
    endInstr s k (sendW c 1 (.g rd.toNat) (((aGet c as_.toNat).extractLsb' 32 8).signExtend 32)))

def execAdda (e : Nat) (ad as_ : BitVec 2) (s : State) : Result :=
  .next (issue s e fun s k =>
    let c := ctxGet s k
    endInstr s k (accResult c ad.toNat
      (accum (stAsat c) ((aGet c ad.toNat).toInt + (aGet c as_.toNat).toInt))))

def execSuba (e : Nat) (ad as_ : BitVec 2) (s : State) : Result :=
  .next (issue s e fun s k =>
    let c := ctxGet s k
    endInstr s k (accResult c ad.toNat
      (accum (stAsat c) ((aGet c ad.toNat).toInt - (aGet c as_.toNat).toInt))))

def execAsh (e : Nat) (ad as_ : BitVec 2) (sh : BitVec 6) (s : State) : Result :=
  .next (issue s e fun s k =>
    let c := ctxGet s k
    endInstr s k (accResult c ad.toNat (ashValue (stAsat c) (aGet c as_.toNat) sh)))

def execAneg (e : Nat) (ad as_ : BitVec 2) (s : State) : Result :=
  .next (issue s e fun s k =>
    let c := ctxGet s k
    endInstr s k (accResult c ad.toNat (accum (stAsat c) (- (aGet c as_.toNat).toInt))))

/-! ## MAC class (R127, R128) -/

/-- Where a parallel fetch reads, or the exception or machine check it raises: `mem` is
1 for XM and 2 for YM (R74, R107).
DEDUCED, log entry 153. -/
def fetchAt (s : State) (k mem : Nat) (f : Option Fetch) (base : Nat) : Except State (Option (Nat × Nat × Word)) :=
  match f with
  | none => .ok none
  | some f =>
    let n := base + f.p.toNat
    let a := pGet (ctxGet s k) n
    let pa := localBase (k / 4) + a.toNat
    if a.toNat % 2 ≠ 0 ∨ a.toNat < mem * 0x10000 ∨ (mem + 1) * 0x10000 ≤ a.toNat then .error (excAddress s k a)
    else if isPoison s pa then .error (machineCheck s k pa)
    else .ok (some (n, f.rd.toNat, ((BitVec.ofNat 16 (memNat s pa 2)).signExtend 32)))

/-- The single-bit errors that a parallel fetch meets corrected (R90). -/
def fetchCorrect (s : State) (k : Nat) (f : Option Fetch) (base : Nat) : State :=
  match f with
  | none => s
  | some f => correct s (localBase (k / 4) + (pGet (ctxGet s k) (base + f.p.toNat)).toNat) 2

/-- A fetch's results: the register at latency 3, the pointer at latency 1 (R86). -/
def fetchEnd (c : Ctx) (f : Option (Nat × Nat × Word)) : Ctx :=
  match f with
  | none => c
  | some (n, rd, v) => sendW (sendW c 3 (.g rd) v) 1 (.p n) (pGet c n + mGet c n)

/-- A MAC-class instruction: the accumulator effect `op` and the two fetches, Y written
last when both name one register (R128). -/
def macOp (s : State) (e : Nat) (x y : Option Fetch) (op : Ctx → Ctx) : State :=
  issue s e fun s k =>
    match fetchAt s k 1 x 0 with
    | .error s1 => s1
    | .ok fx =>
      match fetchAt s k 2 y 4 with
      | .error s1 => s1
      | .ok fy =>
        endInstr (fetchCorrect (fetchCorrect s k x 0) k y 4) k (fetchEnd (fetchEnd (op (ctxGet s k)) fx) fy)

/-- The product a MAC-class word forms (R82, R127). -/
def macProduct (c : Ctx) (gs gt : BitVec 4) (hs ht : Bool) : Int :=
  product (stFrac c) (halfOf (gGet c gs.toNat) hs) (halfOf (gGet c gt.toNat) ht)

/-- A MAC-class accumulator result, with AV (R83). -/
def macResult (c : Ctx) (ad : Nat) (r : BitVec 40 × Bool) : Ctx := sendFlag (sendMac c ad r.1) r.2 .stAV

def execMac (e : Nat) (ad : BitVec 2) (gs gt : BitVec 4) (hs ht : Bool) (x y : Option Fetch) (s : State) : Result :=
  .next (macOp s e x y fun c => macResult c ad.toNat
    (accum (stAsat c) ((aMacGet c ad.toNat).toInt + macProduct c gs gt hs ht)))

def execMsu (e : Nat) (ad : BitVec 2) (gs gt : BitVec 4) (hs ht : Bool) (x y : Option Fetch) (s : State) : Result :=
  .next (macOp s e x y fun c => macResult c ad.toNat
    (accum (stAsat c) ((aMacGet c ad.toNat).toInt - macProduct c gs gt hs ht)))

def execMpy (e : Nat) (ad : BitVec 2) (gs gt : BitVec 4) (hs ht : Bool) (x y : Option Fetch) (s : State) : Result :=
  .next (macOp s e x y fun c => sendMac c ad.toNat (BitVec.ofInt 40 (macProduct c gs gt hs ht)))

def execAclr (e : Nat) (ad : BitVec 2) (x y : Option Fetch) (s : State) : Result :=
  .next (macOp s e x y fun c => sendMac c ad.toNat 0)

def execFet (e : Nat) (x y : Option Fetch) (s : State) : Result :=
  .next (macOp s e x y fun c => c)

/-! ## Loads and stores (R129, R130) -/

/-- The effective address, or `none` for an undefined encoding: MD 1 needs OFS 0. -/
def effAddr (c : Ctx) (pn : BitVec 3) (md : Bool) (ofs : BitVec 14) (size : Nat) : Option Word :=
  if md then (if ofs = 0 then some (pGet c pn.toNat) else none)
  else some (pGet c pn.toNat + wordOfInt (ofs.toInt * size))

/-- Post-modification of the pointer, latency 1. -/
def postMod (c : Ctx) (pn : BitVec 3) (md : Bool) : Ctx :=
  if md then sendW c 1 (.p pn.toNat) (pGet c pn.toNat + mGet c pn.toNat) else c

/-- The value of a load of `size` bytes: sign- or zero-extended halves, words, or
bits 39:0 of a 64-bit word (R71, R129). -/
def loadValue (size : Nat) (ext : Bool) (x : Nat) : BitVec 40 :=
  if size = 2 then
    (if ext then ((BitVec.ofNat 16 x).signExtend 32).zeroExtend 40 else BitVec.ofNat 40 (x % 65536))
  else BitVec.ofNat 40 x

/-- The pointer a load or store with MD 1 post-modifies, and its new value (R129). -/
def postOf (c : Ctx) (pn : BitVec 3) (md : Bool) : Option (Nat × Word) :=
  if md then some (pn.toNat, pGet c pn.toNat + mGet c pn.toNat) else none

/-- A load of `size` bytes into `dst` at address `a`: local with latency 3, far as a wait
(R70, R71, R75, R107).  A far load modifies its pointer when its data arrive, as one that
meets uncorrectable data has no effect (R103).
DEDUCED, log entry 153. -/
def loadAt (s : State) (k size : Nat) (ext : Bool) (dst : RegId) (a : Word) (pn : BitVec 3) (md : Bool) : State :=
  let c := ctxGet s k
  if a.toNat % size ≠ 0 then excAddress s k a
  else
    match resolve s (k / 4) a.toNat with
    | none => excAddress s k a
    | some pa =>
      if isLocal pa then
        if anyPoison s pa size then machineCheck s k pa
        else endInstr (correct s pa size) k (send (postMod c pn md) 3 dst (loadValue size ext (memNat s pa size)))
      else startWait s k c (.far (.load size ext dst a pa (postOf c pn md)))

/-- A load instruction. -/
def loadOp (s : State) (e size : Nat) (ext : Bool) (dst : Option RegId) (pn : BitVec 3) (md : Bool)
    (ofs : BitVec 14) : State :=
  issue s e fun s k =>
    let c := ctxGet s k
    match dst, effAddr c pn md ofs size with
    | some d, some a =>
      -- the loaded value follows the pointer in flight, so it is written last (R130)
      loadAt s k size ext d a pn md
    | _, _ => excIllegal s k

def execLdh (e : Nat) (rd : BitVec 4) (pn : BitVec 3) (md : Bool) (ofs : BitVec 14) (s : State) : Result :=
  .next (loadOp s e 2 true (some (.g rd.toNat)) pn md ofs)

def execLdhu (e : Nat) (rd : BitVec 4) (pn : BitVec 3) (md : Bool) (ofs : BitVec 14) (s : State) : Result :=
  .next (loadOp s e 2 false (some (.g rd.toNat)) pn md ofs)

def execLdw (e : Nat) (rd : BitVec 4) (cl : BitVec 2) (pn : BitVec 3) (md : Bool) (ofs : BitVec 14)
    (s : State) : Result :=
  .next (loadOp s e 4 false (gpmReg cl.toNat rd.toNat) pn md ofs)

/-- An accumulator named by a four-bit field, if it exists. -/
def accReg (n : Nat) : Option RegId := if n < 4 then some (.a n) else none

def execLda (e : Nat) (rd : BitVec 4) (pn : BitVec 3) (md : Bool) (ofs : BitVec 14) (s : State) : Result :=
  .next (loadOp s e 8 false (accReg rd.toNat) pn md ofs)

/-- The CSR blocks a context may write (R32, R102). -/
def mayWriteCsr (k : Nat) (c : Ctx) (o : Nat) : Bool :=
  decide (o / 0x10000 = 0x20 + k / 32) || (isSup (k / 4) && stPriv c)

/-- Whether a store of `size` bytes at CSR offset `o` breaks the privilege rule (R32). -/
def privBroken (k : Nat) (c : Ctx) (o size : Nat) : Bool :=
  ! mayWriteCsr k c o || (size == 8 && ! mayWriteCsr k c (o + 4))

/-- A store of `size` bytes of `v` at address `a` (R32, R71, R72, R75).
DEDUCED, log entry 153. -/
def storeAt (s : State) (k size : Nat) (a : Word) (v : BitVec 64) (c : Ctx) : State :=
  if a.toNat % size ≠ 0 then excAddress s k a
  else
    match resolve s (k / 4) a.toNat with
    | none => excAddress s k a
    | some pa =>
      if isLocal pa then
        if localKind (k / 4) pa = 0 then excAddress s k a
        else endInstr (memPut (if size = 2 then correct s pa 2 else s) pa size v.toNat) k c
      else if romPa ≤ pa then excAddress s k a
      else if csrPa ≤ pa ∧ size = 2 then excAddress s k a
      else if csrPa ≤ pa ∧ privBroken k (ctxGet s k) (pa - csrPa) size then takeExc s k 3 a 0
      else
        let e := k / 4
        let f : FarStore := ⟨k, pa, size, v⟩
        if (engGet s e).buf.length ≥ 16 then startWait s k c (.storeFull f)
        else endInstr (engPut s e { engGet s e with buf := (engGet s e).buf ++ [f] }) k c

/-- A store instruction: the stored value and SS from the context, or an undefined encoding. -/
def storeOp (s : State) (e size : Nat) (val : Ctx → Option (BitVec 64 × Bool)) (pn : BitVec 3) (md : Bool)
    (ofs : BitVec 14) : State :=
  issue s e fun s k =>
    let c := ctxGet s k
    match val c, effAddr c pn md ofs size with
    | some (v, ss), some a => storeAt s k size a v (sendFlag (postMod c pn md) ss .stSS)
    | _, _ => excIllegal s k

/-- What STH stores: CL 0 a G half, CL 3 the 16-bit accumulator value; RND only with CL 3. -/
def sthValue (rs : BitVec 4) (cl : BitVec 2) (rnd : Bool) (c : Ctx) : Option (BitVec 64 × Bool) :=
  if cl = 0 then (if rnd then none else some ((gGet c rs.toNat).zeroExtend 64, false))
  else if cl = 3 ∧ rs.toNat < 4 then
    let r := acc16 rnd (stRnd c) (aGet c rs.toNat)
    some (r.1.zeroExtend 64, r.2)
  else none

def execSth (e : Nat) (rs : BitVec 4) (cl : BitVec 2) (rnd : Bool) (pn : BitVec 3) (md : Bool)
    (ofs : BitVec 14) (s : State) : Result :=
  .next (storeOp s e 2 (sthValue rs cl rnd) pn md ofs)

/-- What STW stores. -/
def stwValue (rs : BitVec 4) (cl : BitVec 2) (c : Ctx) : Option (BitVec 64 × Bool) :=
  if cl = 3 then
    (if rs.toNat < 4 then
      let r := acc32 (aGet c rs.toNat)
      some (r.1.zeroExtend 64, r.2)
    else none)
  else (gpmReg cl.toNat rs.toNat).map fun r => ((regRead c r).zeroExtend 64, false)

def execStw (e : Nat) (rs : BitVec 4) (cl : BitVec 2) (pn : BitVec 3) (md : Bool) (ofs : BitVec 14)
    (s : State) : Result :=
  .next (storeOp s e 4 (stwValue rs cl) pn md ofs)

/-- What STA stores: the accumulator sign-extended (R84). -/
def staValue (rs : BitVec 4) (c : Ctx) : Option (BitVec 64 × Bool) :=
  if rs.toNat < 4 then some ((aGet c rs.toNat).signExtend 64, false) else none

def execSta (e : Nat) (rs : BitVec 4) (pn : BitVec 3) (md : Bool) (ofs : BitVec 14) (s : State) : Result :=
  .next (storeOp s e 8 (staValue rs) pn md ofs)

/-! ## Atomics (R76, R131) -/

/-- An atomic on the word at P[PN]: grove memory or heartwood only. -/
def atomicOp (s : State) (e : Nat) (pn : BitVec 3) (op : Ctx → Word → Nat → FarOp) : State :=
  issue s e fun s k =>
    let c := ctxGet s k
    let a := pGet c pn.toNat
    if a.toNat % 4 ≠ 0 then excAddress s k a
    else
      match resolve s (k / 4) a.toNat with
      | none => excAddress s k a
      | some pa =>
        if isLocal pa || decide (csrPa ≤ pa) then excAddress s k a
        else startWait s k c (.far (op c a pa))

def execAadd (e : Nat) (rd rs : BitVec 4) (pn : BitVec 3) (s : State) : Result :=
  .next (atomicOp s e pn fun c a pa => .aadd rd.toNat (gGet c rs.toNat) a pa)

def execAcas (e : Nat) (rd rs : BitVec 4) (pn : BitVec 3) (s : State) : Result :=
  .next (atomicOp s e pn fun c a pa => .acas rd.toNat (gGet c rd.toNat) (gGet c rs.toNat) a pa)

/-! ## Control flow (R91–R93, R132–R135) -/

/-- Whether a branch-like instruction may not stand here: in a delay slot (R92) or at
the end of a loop body (R93). -/
def branchBarred (c : Ctx) : Bool := c.pend.isSome || nearLoopEnd c

/-- The instruction's end with two delay slots before `target` (R91, R93). -/
def endWithDelay (s : State) (k : Nat) (c : Ctx) (target : Nat) (taken annul : Bool) : State :=
  ctxPut s k (retire { c with pc := c.pc + 4, pend := some ⟨2, target, taken, annul⟩, slot := c.slot + 1 }
    (c.slot + 1))

/-- A taken branch out of the innermost body closes its level (R93). -/
def closeIfOut (c : Ctx) (target : Nat) : Ctx :=
  match ldepth c with
  | 0 => c
  | l + 1 =>
    if target < (spGet c (lsOf l)).toNat ∨ (spGet c (leOf l)).toNat < target then setDepth c l else c

/-- A branch to `target` when `cond` holds: `inLoop` is false for CALL and RET, which
close no loop level; the condition code 15 is undefined (R118, R132). -/
def branchOp (s : State) (k : Nat) (c : Ctx) (cond : Nat) (an inLoop : Bool) (target : Nat) : State :=
  if branchBarred c then excIllegal s k
  else
    match condHolds cond c.st with
    | none => excIllegal s k
    | some false => endWithDelay s k c (c.pc + 12) false an
    | some true => endWithDelay s k (if inLoop then closeIfOut c target else c) target true false

/-- The target of a PC-relative branch (R133). -/
def relTarget (pc : Nat) (ofs : BitVec 20) : Nat := (wordOfInt ((pc : Int) + 4 * ofs.toInt)).toNat

/-- The link CALL and CALLR write (R91). -/
def linkTo (c : Ctx) : Ctx := sendW c 1 (.g 15) (wordOf (c.pc + 12))

def execB (e : Nat) (cond : BitVec 4) (an : Bool) (ofs : BitVec 20) (s : State) : Result :=
  .next (issue s e fun s k =>
    let c := ctxGet s k
    branchOp s k c cond.toNat an true (relTarget c.pc ofs))

def execCall (e : Nat) (an : Bool) (ofs : BitVec 20) (s : State) : Result :=
  .next (issue s e fun s k =>
    let c := ctxGet s k
    if branchBarred c then excIllegal s k
    else branchOp s k (linkTo c) 0 an false (relTarget c.pc ofs))

/-- A branch through a register: a misaligned target raises the address exception whether or not
the branch is taken (R73, R133). -/
def regBranch (s : State) (e : Nat) (cond : Nat) (an inLoop link : Bool) (rs : Nat) : State :=
  issue s e fun s k =>
    let c := ctxGet s k
    let t := gGet c rs
    if branchBarred c || (condHolds cond c.st).isNone then excIllegal s k
    else if t.toNat % 4 ≠ 0 then excAddress s k t
    else branchOp s k (if link then linkTo c else c) cond an inLoop t.toNat

def execJr (e : Nat) (cond : BitVec 4) (an : Bool) (rs : BitVec 4) (s : State) : Result :=
  .next (regBranch s e cond.toNat an (! (cond == 0 && rs == 15)) false rs.toNat)

def execRet (e : Nat) (an : Bool) (s : State) : Result := .next (regBranch s e 0 an false false 15)

def execCallr (e : Nat) (an : Bool) (rs : BitVec 4) (s : State) : Result :=
  .next (regBranch s e 0 an false true rs.toNat)

/-- LOOP with its count and the byte offset of its end from LOOP + 12 (R93, R134).  LEn keeps the
end modulo 2¹⁷.
DEDUCED, log entries 10, 180. -/
def loopOp (s : State) (e : Nat) (count : Ctx → Word) (body : Nat) : State :=
  issue s e fun s k =>
    let c := ctxGet s k
    let n := count c
    let ls := c.pc + 12
    let le := ls + 4 * body
    if branchBarred c then excIllegal s k
    else if ldepth c ≥ 2 then takeExc s k 4 0 0
    else if n = 0 then endWithDelay s k c (le + 4) true false
    else
      let l := ldepth c
      let c1 := regWrite c (.sp (lcOf l)) (n.zeroExtend 40)
      let c2 := regWrite c1 (.sp (lsOf l)) (BitVec.ofNat 40 ls)
      let c3 := regWrite c2 (.sp (leOf l)) (BitVec.ofNat 40 le)
      endWithDelay s k (setDepth c3 (l + 1)) ls false false

def execLoopImmediate (e : Nat) (count : BitVec 16) (body : BitVec 9) (s : State) : Result :=
  .next (loopOp s e (fun _ => immZ count) body.toNat)

def execLoopRegister (e : Nat) (rs : BitVec 4) (body : BitVec 15) (s : State) : Result :=
  .next (loopOp s e (fun c => gGet c rs.toNat) body.toNat)

/-! ## System group (R135, R136) -/

def execNop (e : Nat) (s : State) : Result :=
  .next (issue s e fun s k => endInstr s k (ctxGet s k))

def execFence (e : Nat) (s : State) : Result :=
  .next (issue s e fun s k => startWait s k (ctxGet s k) .fence)

def execHold (e : Nat) (s : State) : Result :=
  .next (issue s e fun s k =>
    let c := ctxGet s k
    endInstr s k { c with st := setBit c.st 13 true })

def execUnhold (e : Nat) (s : State) : Result :=
  .next (issue s e fun s k =>
    let c := ctxGet s k
    endInstr s k { c with st := setBit c.st 13 false, holdCnt := 0 })

/-- YIELD (R98).  A stop request that ST.HOLD defers still waits when the context is READY.
DEDUCED, log entry 161. -/
def execYield (e : Nat) (s : State) : Result :=
  .next (issue s e fun s k =>
    let c := ctxGet s k
    match nextReady s e (k % 4) with
    | some j =>
      if prioOf s k ≤ prioOf s j then runCtx (ctxPut s k { finishWait c with state := .ready }) j
      else endInstr s k c
    | none => endInstr s k c)

/-- RTE (R105, R135). -/
def execRte (e : Nat) (s : State) : Result :=
  .next (issue s e fun s k =>
    let c := ctxGet s k
    if branchBarred c then excIllegal s k
    else if stExl c = false then excIllegal s k
    else
      let c1 := flush c
      let m : Word := if stPriv c1 then 0xC0FCCF#32 else 0xC07CCF#32
      let st := (c1.st &&& ~~~ m) ||| (spGet c1 9 &&& m)
      let ds := fld (spGet c1 10) 9 8
      let pend : Option Pend :=
        if ds = 0 then none else some ⟨ds, pcOf (spGet c1 8), true, false⟩
      ctxPut s k { c1 with st := st, pc := pcOf (spGet c1 7), pend := pend, slot := c1.slot + 1 })

/-- DEDUCED, log entry 12. -/
def execTrap (e : Nat) (n : BitVec 16) (s : State) : Result :=
  .next (issue s e fun s k =>
    if branchBarred (ctxGet s k) then excIllegal s k else takeExc s k 6 (immZ n) 4)

/-! ## MFC and MTC (R144) -/

/-- A register of class `cl` and number `n` as MFC reads it, if it exists (R120).
DEDUCED, log entry 40. -/
def mfcValue (c : Ctx) (cl n : Nat) : Option Word :=
  match gpmReg cl n with
  | some r => some (regRead c r)
  | none =>
    if cl = 3 ∧ n < 4 then some ((aGet c n).truncate 32)
    else if cl = 4 ∧ n < 12 then some (spGet c n)
    else if cl = 5 ∧ n < 4 then some (((aGet c n).extractLsb' 32 8).signExtend 32)
    else none

/-- The context after MTC writes `v` to a register of class `cl` and number `n`.
DEDUCED, log entry 40. -/
def mtcWrite (c : Ctx) (cl n : Nat) (v : Word) : Ctx :=
  match gpmReg cl n with
  | some r => regWrite c r (v.zeroExtend 40)
  | none =>
    if cl = 3 then regWrite c (.a n) ((aGet c n &&& 0xFF00000000#40) ||| v.zeroExtend 40)
    else if cl = 5 then regWrite c (.a n)
      ((aGet c n &&& 0xFFFFFFFF#40) ||| ((v.truncate 8).zeroExtend 40 <<< 32))
    else if n = 0 then { c with st := (c.st &&& ~~~ 0xC0FCCF#32) ||| (v &&& 0xC0FCCF#32) }
    else regWrite c (.sp n) (v.zeroExtend 40)

/-- Whether MFC or MTC may act on context `j` from context `k` (R144). -/
def mfcAllowed (s : State) (k j : Nat) : Bool :=
  j != k && ((ctxGet s j).state == .stopped || (ctxGet s j).state == .fault)

/-- DEDUCED, log entry 40. -/
def execMfc (e : Nat) (rg : BitVec 4) (cl : BitVec 3) (rn : BitVec 4) (cx : BitVec 2) (s : State) : Result :=
  .next (issue s e fun s k =>
    let c := ctxGet s k
    let j := 4 * e + cx.toNat
    match mfcValue (ctxGet s j) cl.toNat rn.toNat with
    | none => excIllegal s k
    | some v =>
      if privileged s k = false then excIllegal s k
      else if mfcAllowed s k j then endInstr s k (sendW (setC c true) 1 (.g rg.toNat) v)
      else endInstr s k (sendW (setC c false) 1 (.g rg.toNat) 0))

def execMtc (e : Nat) (rg : BitVec 4) (cl : BitVec 3) (rn : BitVec 4) (cx : BitVec 2) (s : State) : Result :=
  .next (issue s e fun s k =>
    let c := ctxGet s k
    let j := 4 * e + cx.toNat
    match mfcValue (ctxGet s j) cl.toNat rn.toNat with
    | none => excIllegal s k
    | some _ =>
      if privileged s k = false then excIllegal s k
      else if mfcAllowed s k j then
        endInstr (ctxPut s j (mtcWrite (ctxGet s j) cl.toNat rn.toNat (gGet c rg.toNat))) k (setC c true)
      else endInstr s k (setC c false))

end Sys2Proof.Machine
end

