-- ==== Sys2Proof/Machine/Engine.lean ====
section
/-! DEFINITION. The dispatcher instructions TAKE, DONE, SIGNAL and WAITEVT
(R137–R141), the undefined encoding (R118), and what happens to engines and contexts
between instructions: fences, switches, hold timeouts, starts and stops (R75, R97–R101). -/

namespace Sys2Proof.Machine

/-- Whether context `k` has a far store that is not yet performed (R75). -/
def storesPending (s : State) (k : Nat) : Bool := (engGet s (k / 4)).buf.any fun f => f.ctx == k

/-- The sender's engine and context as an undeliverable-operand event gives them (R177). -/
def senderSub (k : Nat) : Nat := k / 4 % 8 + (k % 4) * 8

/-- An operand of context `k`'s SIGNAL or DONE delivered, or `none` while it must wait (R140). -/
def ctxDeliver (s : State) (k : Nat) (w v : Word) : Option State :=
  deliver s .engine w v (wordOf (ctxCode k)) (0x20 + k / 32) (senderSub k) false

/-- TAKE's next order number drawn (R167).
DEDUCED, log entry 154. -/
def nextTake (s : State) : State :=
  { s with disp := { s.disp with takeSeq := s.disp.takeSeq + 1 } }

/-- TAKE's return for a stop request (R138). -/
def takeNothing (s : State) (k : Nat) : State :=
  endWait s k ((List.range 8).foldl (fun c i => regWrite c (.g i) (if i = 0 then 0xFFFFFFFF else 0))
    { flush (ctxGet s k) with stopReq := true })

/-- The wait of context `k` for a task begins; a stop request that already waits ends it at once.
DEDUCED, log entry 161. -/
def awaitTask (s : State) (k mask : Nat) : State :=
  if (ctxGet s k).stopReq then takeNothing s k
  else nextTake (startWait s k (ctxGet s k) (.take mask s.disp.takeSeq))

def execTake (e : Nat) (mask : BitVec 8) (s : State) : Result :=
  .next (issue s e fun s k =>
    let c := ctxGet s k
    if mask = 0 then excIllegal s k
    else if c.task.isSome && storesPending s k then startWait s k c (.takeEnd mask.toNat)
    else awaitTask (endService s k) k mask.toNat)

def execDone (e : Nat) (s : State) : Result :=
  .next (issue s e fun s k =>
    let c := ctxGet s k
    if storesPending s k then startWait s k c (.done none)
    else
      let s1 := endService s k
      endInstr s1 k (ctxGet s1 k))

def execDoneDeliver (e : Nat) (gt gv : BitVec 4) (s : State) : Result :=
  .next (issue s e fun s k =>
    let c := ctxGet s k
    let w := gGet c gt.toNat
    let v := gGet c gv.toNat
    if storesPending s k then startWait s k c (.done (some (w, v)))
    else
      match ctxDeliver (endService s k) k w v with
      | none => startWait s k c (.done (some (w, v)))
      | some s1 => endInstr s1 k (ctxGet s1 k))

def execSignal (e : Nat) (gt gv : BitVec 4) (s : State) : Result :=
  .next (issue s e fun s k =>
    let c := ctxGet s k
    let w := gGet c gt.toNat
    let v := gGet c gv.toNat
    if storesPending s k then startWait s k c (.signal w v)
    else
      match ctxDeliver s k w v with
      | none => startWait s k c (.signal w v)
      | some s1 => endInstr s1 k (ctxGet s1 k))

/-- WAITEVT's return on a timeout or a stop (R141). -/
def evtNothing (s : State) (k : Nat) : State :=
  let c := flush (ctxGet s k)
  markDlk k s (endWait s k (regWrite (regWrite c (.g 0) 0xFFFFFFFF) (.g 1) 0))

/-- DEDUCED, log entry 161. -/
def execWaitevt (e : Nat) (tmo : BitVec 12) (s : State) : Result :=
  .next (issue s e fun s k =>
    match takeSig s k with
    | some (c, s1) => refillSig (endInstr s1 k c) k
    | none =>
      if (ctxGet s k).stopReq then evtNothing s k
      else
        markDlk k s (startWait s k (ctxGet s k)
          (.waitEvt (if tmo = 0 then none else some (nfnOf s + tmo.toNat)))))

/-- The row stands for a word that the decoder gives no other instruction (R118). -/
def execUndefinedInstruction (e : Nat) (w : Word) (s : State) : Result :=
  .next (if lemgilOf e w = .undefinedInstruction e w then issue s e fun s k => excIllegal s k else s)

/-! ## Ends of waits -/

/-- Context `k` waits in WAITEVT. -/
def inWaitEvt (c : Ctx) : Bool :=
  match c.state with
  | .wait (.waitEvt _) => true
  | _ => false

def execWaitevtWake (k : Nat) (s : State) : Result :=
  .next (if inWaitEvt (ctxGet s k) then
    match takeSig s k with
    | some (c, s1) => refillSig (markDlk k s (endWait s1 k c)) k
    | none => s
  else s)

def execWaitevtTimeout (k : Nat) (s : State) : Result :=
  .next (let c := ctxGet s k
    match c.state with
    | .wait (.waitEvt (some lim)) => if lim ≤ nfnOf s ∧ c.sigq.isEmpty then evtNothing s k else s
    | _ => s)

def execFenceComplete (e c : Nat) (s : State) : Result :=
  .next (let k := 4 * e + c
    if (ctxGet s k).state = .wait .fence ∧ storesPending s k = false then endWait s k (ctxGet s k) else s)

/-- The service end of DONE or TAKE once earlier far stores are performed; a DONE with
delivery places its operand in the same step (R140, R168).  A stop request that came during
TAKE's service end ends the wait for a task as it begins (R138).
DEDUCED, log entry 161. -/
def execDoneComplete (k : Nat) (s : State) : Result :=
  .next (if storesPending s k then s
    else
      match (ctxGet s k).state with
      | .wait (.takeEnd mask) =>
        awaitTask (endService s k) k mask
      | .wait (.done none) =>
        let s1 := endService s k
        endWait s1 k (ctxGet s1 k)
      | .wait (.done (some (w, v))) =>
        match ctxDeliver (endService s k) k w v with
        | none => s
        | some s1 => endWait s1 k (ctxGet s1 k)
      | _ => s)

/-- The operand that context `k` offers with SIGNAL or DONE placed when the matching
store or the signal queue has room (R140, R156, R173).
DEDUCED, log entry 38. -/
def execOperandPlace (k : Nat) (s : State) : Result :=
  .next (if storesPending s k then s
    else
      match (ctxGet s k).state with
      | .wait (.signal w v) =>
        match ctxDeliver s k w v with
        | none => s
        | some s1 => endWait s1 k (ctxGet s1 k)
      | .wait (.done (some (w, v))) =>
        match ctxDeliver (endService s k) k w v with
        | none => s
        | some s1 => endWait s1 k (ctxGet s1 k)
      | _ => s)

/-! ## Switches, starts and stops -/

/-- The RUNNING context that holds no stop off any longer stops (R99, R101). -/
def stopRunning (s : State) (k : Nat) : State :=
  ctxPut s k { flush (ctxGet s k) with state := .stopped, stopReq := false }

/-- DESIGN CHOICE, log entry 5. -/
def execContextSwitch (e : Nat) (s : State) : Result :=
  .next (match runningOf s e with
    | some k =>
      let c := ctxGet s k
      if stHold c then s
      else if c.stopReq then
        let s1 := stopRunning s k
        match nextReady s1 e (k % 4) with
        | none => s1
        | some j => runCtx s1 j
      else
        match nextReady s e (k % 4) with
        | none => s
        | some j =>
          if prioOf s k < prioOf s j then runCtx (ctxPut s k { flush c with state := .ready }) j else s
    | none =>
      match nextReady s e (engGet s e).left with
      | none => s
      | some j => runCtx s j)

/-- GROVE_HOLDLIM.LIMIT of engine `e`'s grove; values below 64 act as 64 (R108). -/
def holdLimit (s : State) (e : Nat) : Nat :=
  max 64 (csrFld s (offGroveHoldlim + (e / 8) * 0x10000) 15 0)

/-- R100: ST.HOLD cleared, then the hold-timeout exception. -/
def execHoldTimeout (e : Nat) (s : State) : Result :=
  .next (match runningOf s e with
    | none => s
    | some k =>
      let c := ctxGet s k
      if stHold c ∧ holdLimit s e < c.holdCnt then
        takeExc (ctxPut s k { c with st := setBit c.st 13 false, holdCnt := 0 }) k 5 0 0
      else s)

/-- A register of grove `g`. -/
def groveReg (o g : Nat) : Nat := o + g * 0x10000

/-- The transfer of grove `g` ends (R111). -/
def ldEnd (s : State) (g : Nat) (x : LoadXfer) (code moved : Nat) : State :=
  let s1 := { s with core := { s.core with load := smapPut none s.core.load g none } }
  raise0 (csrPut s1 (groveReg offGroveLdStat g) (wordOf (code * 16 + 2))) (0x20 + g) 3 (x.eng % 8)
    (leBytes 1 code ++ zeros 3 ++ leBytes 4 moved)

/-- A start of context `k` at the address that GROVE_ENGe_PCc shows (R101); none in a grove whose clock
is gated (R507). -/
def startCtx (s : State) (k : Nat) : State :=
  let c := ctxGet s k
  if engPresent s (k / 4) ∧ clockGated s (k / 4) = false ∧ (c.state = .stopped ∨ c.state = .fault) then
    ctxPut s k { c with state := .ready, stopReq := false, pc := pcShown (k / 4) c.pc }
  else s

/-- A stop request for context `k` (R99, R101, R138, R141). -/
def stopCtx (s : State) (k : Nat) : State :=
  let c := ctxGet s k
  match c.state with
  | .ready => ctxPut s k { c with state := .stopped }
  | .running => if stHold c then ctxPut s k { c with stopReq := true } else stopRunning s k
  | .wait (.waitEvt _) => evtNothing (ctxPut s k { c with stopReq := true }) k
  | .wait (.take _ _) => takeNothing s k
  | .wait _ => ctxPut s k { c with stopReq := true }
  | _ => s

def execContextStart (e c : Nat) (s : State) : Result := .next (startCtx s (4 * e + c))

def execContextStop (e c : Nat) (s : State) : Result := .next (stopCtx s (4 * e + c))

/-- A write of GROVE_ENGe_PCc (R101, R108): bit 16 exists on supervisors only, and a write for an
absent engine is ignored (R2). -/
def writePc (s : State) (k : Nat) (v : Word) : State :=
  let c := ctxGet s k
  if engPresent s (k / 4) ∧ (c.state = .stopped ∨ c.state = .fault) then
    ctxPut s k { c with pc := pcShown (k / 4) v.toNat, pend := none }
  else s

def execPcWrite (e c : Nat) (v : Word) (s : State) : Result := .next (writePc s (4 * e + c) v)

/-- A write of GROVE_ENGe_CTL (R101, R108): priorities and EXCV_EN, then stops, then the
starts of contexts the same write does not stop. -/
def writeEngCtl (s : State) (e : Nat) (v : Word) : State :=
  let o := engReg offGroveEngCtl e
  let s1 := csrPut s o (v &&& 0xFF0100#32)
  let s2 := (List.range 4).foldl (fun s c => if bitOf v (4 + c) then stopCtx s (4 * e + c) else s) s1
  (List.range 4).foldl
    (fun s c => if bitOf v c && ! bitOf v (4 + c) then startCtx s (4 * e + c) else s) s2

/-! ## The dispatcher's own steps -/

def execInstanceList (entry : Nat) (s : State) : Result :=
  .next (match s.disp.insts.find? fun x => x.entry == entry with
    | none => s
    | some x =>
      let l := tList (tmplA s x.tmpl)
      let first := s.disp.insts.all fun y =>
        y.entry == x.entry || tList (tmplA s y.tmpl) != l || ! mayList s y || decide (x.readySeq < y.readySeq)
      if mayList s x && first then instMod s entry fun y => { y with state := .listed } else s)

/-- The contexts that wait in TAKE for a task, with their order numbers and masks. -/
def takers (s : State) : List (Nat × Nat × Nat) :=
  s.core.ctx.filterMap fun kc =>
    match kc.2.state with
    | .wait (.take mask seq) => some (kc.1, seq, mask)
    | _ => none

/-- The engine under run-time test, which is given no new task (R516). -/
def drained (s : State) (e : Nat) : Bool :=
  match s.assay.drain with
  | none => false
  | some d => d.1 == e

/-- The longest-waiting taker that can take a task, and that task (R167).
DEDUCED, log entry 154. -/
def nextHand (s : State) : Option (Nat × Inst) :=
  let able := (takers s).filter fun t => (chooseTask s (t.1 / 32) t.2.2).isSome && engPresent s (t.1 / 4)
    && ! drained s (t.1 / 4) && ! clockGated s (t.1 / 4)
  match bestOf (fun a b => decide (a.2.1 < b.2.1)) able with
  | none => none
  | some t => (chooseTask s (t.1 / 32) t.2.2).map fun x => (t.1, x)

/-- DESIGN CHOICE, log entry 5. -/
def execTaskHand (s : State) : Result :=
  .next (match nextHand s with
    | none => s
    | some (k, x) => handTask s k x)

/-- The template a command of DISP_TMPL_CMD acts on. -/
def tmplSel (s : State) : Nat := csrFld s offDispTmplSel 7 0

/-- The end of a template command (R152). -/
def tmplDone (s : State) (code : Nat) : State := csrPut s offDispTmplStat (wordOf (0x80000000 + code))

/-- Whether a template is in use (R152). -/
def tmplInUse (s : State) (t : Nat) : Bool :=
  (s.disp.insts.any fun x => x.tmpl == t)
    || (s.disp.rel.any fun r => r.2.en && r.2.tmpl == t)
    || ((List.range 32).any fun i =>
        bitOf (csrGet s (offDispTmrCtl + 0x10 * i)) 31
          && ! isKind1 (csrGet s (offDispTmrTgt + 0x10 * i))
          && fld (csrGet s (offDispTmrTgt + 0x10 * i)) 23 16 == t)

/-- The outcome of an install (R152): the lowest code that applies.
DESIGN CHOICE, log entry 162. -/
def installCode (s : State) (t : Nat) (a b : Word) : Nat :=
  if t = 255 then 1
  else if tReq a = 0 ∨ tReq a &&& tDecl a ≠ tReq a then 2
  else if (List.range 4).any (fun i =>
      (tDecl a).testBit i && ! (tReq a).testBit i && decide (tMode a i < 2)) then 3
  else if (tmplGet s t).isSome && tmplInUse s t then 4
  else if (List.range 17).all (fun g => ! (bitOf b g && grovePresent s g)) then 5
  else 0

/-- Template `t` installed from an A and a B word, with the outcome (R152, R153). -/
def installTmpl (s : State) (t : Nat) (a b : Word) : State × Nat :=
  let code := installCode s t a b
  (if code = 0 then tmplPut s t (some (a, b)) else s, code)

/-- A command of DISP_TMPL_CMD: 1 install, 2 read, 3 remove (R152); number 255 is code 1 in all three.
DESIGN CHOICE, log entry 162. -/
def tmplCommand (s : State) (op : Nat) : State :=
  let t := tmplSel s
  match op with
  | 1 =>
    let r := installTmpl s t (csrGet s offDispTmplA) (csrGet s offDispTmplB)
    tmplDone r.1 r.2
  | 2 =>
    if t = 255 then tmplDone s 1
    else
      match tmplGet s t with
      | none => tmplDone s 6
      | some (a, b) => tmplDone (csrPut (csrPut s offDispTmplA a) offDispTmplB b) 0
  | 3 =>
    if t = 255 then tmplDone s 1
    else if (tmplGet s t).isNone then tmplDone s 6
    else if tmplInUse s t then tmplDone s 4
    else tmplDone (tmplPut s t none) 0
  | _ => s

def execTmplInstall (s : State) : Result := .next (tmplCommand s 1)

def execTmplRead (s : State) : Result := .next (tmplCommand s 2)

def execTmplRemove (s : State) : Result := .next (tmplCommand s 3)

/-- Timer `t` is due at the present tick: enabled, RUN 1, NFN mod PERIOD = PHASE, and
not yet fired in this tick (R162, R164). -/
def timerDue (s : State) (t : Nat) : Bool :=
  let p := max 1 (csrFld s (offDispTmrCtl + 0x10 * t) 19 0)
  decide (t < 32) && s.dev.run && bitOf (csrGet s (offDispTmrCtl + 0x10 * t)) 31
    && decide (nfnOf s % p = csrFld s (offDispTmrPhase + 0x10 * t) 19 0 % p)
    && decide (smapGet 0 s.disp.tmrAt t ≠ s.time.ticks + 1)

/-- A timer delivery skipped because its pending entry is still held (R164). -/
def timerSkip (s : State) (t : Nat) : State :=
  csrSatInc (skipRelease s 0xFFFF (1 + 3 * 2) t) (offDispTmrSkip + 0x10 * t) 15 1

/-- The operand of timer `t` delivered to its target (R164). -/
def fireTimer (s : State) (t : Nat) : State :=
  let w := csrGet s (offDispTmrTgt + 0x10 * t)
  let v := wordOf (nfnOf s)
  match undeliverable s w with
  | some r => noteUndeliverable s w v r 0x03 0
  | none =>
    if isKind1 w then
      if timerHeld s t then timerSkip s t
      else
        match pushDev s (targetCtx w) (timerG0 t) v with
        | some s1 => s1
        | none => { s with disp := { s.disp with tmr := smapPut none s.disp.tmr t (some (targetCtx w, v)) } }
    else
      let r := releaseOperand s .timer (fld w 15 0) (fld w 23 16) (fld w 25 24) 1 t
      if r.2 then r.1 else csrSatInc r.1 (offDispTmrSkip + 0x10 * t) 15 1

def execTimerFire (t : Nat) (s : State) : Result :=
  .next (if timerDue s t then
    fireTimer { s with disp := { s.disp with tmrAt := smapPut 0 s.disp.tmrAt t (s.time.ticks + 1) } } t
  else s)

/-- The context DISP_FREE.CTX names. -/
def freeCtx (w : Word) : Nat := (fld w 4 0 * 8 + fld w 7 5) * 4 + fld w 9 8

/-- A write of DISP_FREE with GO (R169). -/
def taskFree (s : State) (w : Word) : State :=
  let k := freeCtx w
  let c := ctxGet s k
  let code :=
    if fld w 4 0 > 16 ∨ engPresent s (k / 4) = false then 3
    else if c.state ≠ .stopped ∧ c.state ≠ .fault then 1
    else if c.task.isNone then 2
    else 0
  csrPut (if code = 0 then endService s k else s) offDispFreeStat (wordOf (0x80000000 + code))

def execTaskFree (w : Word) (s : State) : Result := .next (taskFree s w)

/-- DEDUCED, log entry 148. -/
def execMatchingStoreError (entry : Nat) (s : State) : Result :=
  .next (if entry < 65536 then
    match s.disp.insts.find? fun x => x.entry == entry with
    | none => bump (raise0 s 0x03 7 0 (leBytes 2 entry)) offDispMserr
    | some x =>
      let st := match x.state with | .open => 1 | .held => 2 | .listed => 3
      bump (raise (instFree s entry) 0x03 7 x.chan 0
        (leBytes 2 entry ++ leBytes 1 st ++ leBytes 1 x.tmpl)) offDispMserr
  else s)

/-- Groves with a member in a set of contexts, one bit each (R177). -/
def groveBits (ks : List Nat) : Nat :=
  (List.range 17).foldl (fun a g => a + boolBit (ks.any fun k => k / 32 == g) g) 0

/-- R176: raised once 8 ticks after the set B last changed, and not again until it changes.
DEDUCED, log entry 37. -/
def execDeadlockDetect (s : State) : Result :=
  .next (let d := s.disp
    if csrFld s offDispCtl 31 31 = 1 ∧ d.blocked ≠ [] ∧ d.dlkDirty = false ∧ d.dlk = false
        ∧ d.dlkT + 8 ≤ s.time.ticks then
      let s1 := { s with disp := { d with dlk := true } }
      raise0 s1 0x03 5 (groveBits d.blocked)
        (leBytes 2 d.blocked.length ++ zeros 2
          ++ ((d.blocked.take 6).flatMap fun k => leBytes 2 (ctxCode k))
          ++ (List.replicate (12 - 2 * min 6 d.blocked.length) 0xFF))
    else s)

end Sys2Proof.Machine
end

