-- ==== Sys2Proof/Machine/Crypto.lean ====
section
/-! DEFINITION. The cryptographic functions the spec names by their standards: AES
(FIPS 197), GCM (NIST SP 800-38D), CMAC (NIST SP 800-38B), key wrap with padding
(RFC 5649), SHA-256 (FIPS 180-4), HMAC and HKDF (RFC 2104, RFC 5869), and ECDH and
ECDSA on P-256 (FIPS 186-4). -/

namespace Sys2Proof.Machine

/-! ## AES -/

/-- The AES S-box, entry x in bits 8x + 7 to 8x. -/
def sboxTable : Nat :=
  0x16BB54B00F2D99416842E6BF0D89A18CDF2855CEE9871E9B948ED9691198F8E19E1DC186B95735610EF6034866B53E708A8BBD4B1F74DDE8C6B4A61C2E2578BA08AE7A65EAF4566CA94ED58D6D37C8E779E4959162ACD3C25C2406490A3A32E0DB0B5EDE14B8EE4688902A22DC4F816073195D643D7EA7C41744975FEC130CCDD2F3FF1021DAB6BCF5389D928F40A351A89F3C507F02F94585334D43FBAAEFD0CF584C4A39BECB6A5BB1FC20ED00D153842FE329B3D63B52A05A6E1B1A2C830975B227EBE28012079A059618C323C7041531D871F1E5A534CCF73F362693FDB7C072A49CAFA2D4ADF04759FA7DC982CA76ABD7FE2B670130C56F6BF27B777C63

/-- The inverse S-box, laid out likewise. -/
def invSboxTable : Nat :=
  0x7D0C2155631469E126D677BA7E042B17619953833CBBEBC8B0F52AAE4D3BE0A0EF9CC9939F7AE52D0D4AB519A97F51605FEC8027591012B131C7078833A8DD1FF45ACD78FEC0DB9A2079D2C64B3E56FC1BBE18AA0E62B76F89C5291D711AF1476EDF751CE837F9E28535ADE72274AC9673E6B4F0CECFF297EADC674F4111913A6B8A130103BDAFC1020F3FCA8F1E2CD00645B3B80558E4F70AD3BC8C00ABD890849D8DA75746155EDAB9EDFD5048706C92B6655DCC5CA4D41698688664F6F87225D18B6D49A25B76B224D92866A12E084EC3FA420B954CEE3D23C2A632947B54CBE9DEC444438E3487FF2F9B8239E37CFBD7F3819EA340BF38A53630D56A0952

/-- Entry `x` of a table of bytes held as a number. -/
def tableByte (t : Nat) (x : Byte) : Byte := BitVec.ofNat 8 (t >>> (8 * x.toNat))

def subByte (x : Byte) : Byte := tableByte sboxTable x
def invSubByte (x : Byte) : Byte := tableByte invSboxTable x

/-- Multiplication by x in GF(2⁸). -/
def xtime (b : Byte) : Byte := if b.getLsbD 7 then (b <<< 1) ^^^ 0x1B#8 else b <<< 1

/-- Product in GF(2⁸) with a constant below 16. -/
def gmul (c : Nat) (b : Byte) : Byte :=
  let b2 := xtime b
  let b4 := xtime b2
  let b8 := xtime b4
  (if c.testBit 0 then b else 0) ^^^ (if c.testBit 1 then b2 else 0)
    ^^^ (if c.testBit 2 then b4 else 0) ^^^ (if c.testBit 3 then b8 else 0)

/-- Exclusive or of two lists, to the shorter one's length. -/
def xorBytes (a b : List Byte) : List Byte := List.zipWith (fun x y => x ^^^ y) a b

/-- A list reordered by positions. -/
def permute (p : List Nat) (l : List Byte) : List Byte := p.map fun i => l.getD i 0

/-- ShiftRows and its inverse on the 16 bytes of a state. -/
def shiftRows : List Byte → List Byte := permute [0, 5, 10, 15, 4, 9, 14, 3, 8, 13, 2, 7, 12, 1, 6, 11]
def invShiftRows : List Byte → List Byte := permute [0, 13, 10, 7, 4, 1, 14, 11, 8, 5, 2, 15, 12, 9, 6, 3]

/-- One column times the matrix with first row `a b c d`. -/
def mixColumn (a b c d : Nat) (l : List Byte) : List Byte :=
  match l with
  | [w, x, y, z] =>
    [gmul a w ^^^ gmul b x ^^^ gmul c y ^^^ gmul d z,
     gmul d w ^^^ gmul a x ^^^ gmul b y ^^^ gmul c z,
     gmul c w ^^^ gmul d x ^^^ gmul a y ^^^ gmul b z,
     gmul b w ^^^ gmul c x ^^^ gmul d y ^^^ gmul a z]
  | _ => l

def mixColumns (l : List Byte) : List Byte := (chunks 4 l).flatMap (mixColumn 2 3 1 1)
def invMixColumns (l : List Byte) : List Byte := (chunks 4 l).flatMap (mixColumn 14 11 13 9)

/-- The key schedule as words, newest first, with fuel: `nk` words of key, `i` the number
of the next word. -/
def keyExpand (fuel nk i : Nat) (rcon : Byte) (ws : List (List Byte)) : List (List Byte) :=
  match fuel with
  | 0 => ws
  | f + 1 =>
    let t := ws.headD []
    let back := ws.getD (nk - 1) []
    if i % nk = 0 then
      let u := (permute [1, 2, 3, 0] t).map subByte
      keyExpand f nk (i + 1) (xtime rcon) (xorBytes back (xorBytes u [rcon, 0, 0, 0]) :: ws)
    else if 6 < nk ∧ i % nk = 4 then keyExpand f nk (i + 1) rcon (xorBytes back (t.map subByte) :: ws)
    else keyExpand f nk (i + 1) rcon (xorBytes back t :: ws)

/-- The round keys of a key of 16 or 32 bytes. -/
def roundKeys (key : List Byte) : List (List Byte) :=
  let nk := key.length / 4
  let ws := keyExpand (4 * (nk + 7) - nk) nk nk 1 (chunks 4 key).reverse
  (chunks 4 ws.reverse).map fun g => g.flatten

/-- The rounds after the first key addition. -/
def encRounds (rks : List (List Byte)) (b : List Byte) : List Byte :=
  match rks with
  | [] => b
  | [k] => xorBytes (shiftRows (b.map subByte)) k
  | k :: r => encRounds r (xorBytes (mixColumns (shiftRows (b.map subByte))) k)

/-- One block encrypted under prepared round keys.
PRESUMED, log entry 155. -/
def aesEnc (rks : List (List Byte)) (b : List Byte) : List Byte :=
  encRounds rks.tail (xorBytes b (rks.headD []))

/-- The rounds of decryption, the round keys in reverse order. -/
def decRounds (rks : List (List Byte)) (b : List Byte) : List Byte :=
  match rks with
  | [] => b
  | [k] => xorBytes ((invShiftRows b).map invSubByte) k
  | k :: r => decRounds r (invMixColumns (xorBytes ((invShiftRows b).map invSubByte) k))

/-- One block decrypted under prepared round keys. -/
def aesDec (rks : List (List Byte)) (b : List Byte) : List Byte :=
  let r := rks.reverse
  decRounds r.tail (xorBytes b (r.headD []))

/-- One block encrypted under a key. -/
def aesBlock (key b : List Byte) : List Byte := aesEnc (roundKeys key) b

/-! ## GCM -/

/-- Product in the field of GHASH, with fuel: bits of `x` from the most significant. -/
def ghashMulGo (fuel : Nat) (x v z : BitVec 128) : BitVec 128 :=
  match fuel with
  | 0 => z
  | f + 1 =>
    let z1 := if x.getLsbD f then z ^^^ v else z
    let v1 := if v.getLsbD 0 then (v >>> 1) ^^^ (0xE1#128 <<< 120) else v >>> 1
    ghashMulGo f x v1 z1

def ghashMul (x y : BitVec 128) : BitVec 128 := ghashMulGo 128 x y 0

/-- GHASH over whole blocks. -/
def ghash (h : BitVec 128) (l : List Byte) : BitVec 128 :=
  (chunks 16 l).foldl (fun y b => ghashMul (y ^^^ BitVec.ofNat 128 (beNat (padTo 16 b))) h) 0

/-- Zeros up to a multiple of 16 bytes. -/
def pad16 (l : List Byte) : List Byte := l ++ zeros ((16 - l.length % 16) % 16)

/-- Key stream blocks from counter value `c` on, over the data. -/
def gctr (rks : List (List Byte)) (iv : List Byte) (c : Nat) (bs : List (List Byte)) : List Byte :=
  match bs with
  | [] => []
  | b :: r => xorBytes b (aesEnc rks (iv ++ beBytes 4 c)) ++ gctr rks iv (c + 1) r

/-- Encryption or decryption of the text under a 12-byte IV.
PRESUMED, log entry 155. -/
def gcmCrypt (key iv text : List Byte) : List Byte := gctr (roundKeys key) iv 2 (chunks 16 text)

/-- The tag of additional data and cipher text.
PRESUMED, log entry 155. -/
def gcmTag (key iv aad ct : List Byte) : List Byte :=
  let rks := roundKeys key
  let h := BitVec.ofNat 128 (beNat (aesEnc rks (zeros 16)))
  let s := ghash h (pad16 aad ++ pad16 ct ++ beBytes 8 (8 * aad.length) ++ beBytes 8 (8 * ct.length))
  xorBytes (beBytes 16 s.toNat) (aesEnc rks (iv ++ beBytes 4 1))

/-! ## AES in counter mode, as the key derivation of RFC 3711 uses it -/

/-- `n` blocks of key stream from the 128-bit value `iv` on. -/
def ctrStream (rks : List (List Byte)) (iv n : Nat) : List Byte :=
  match n with
  | 0 => []
  | n + 1 => aesEnc rks (beBytes 16 iv) ++ ctrStream rks (iv + 1) n

/-! ## CMAC -/

/-- A subkey of CMAC. -/
def cmacDouble (x : BitVec 128) : BitVec 128 :=
  if x.getLsbD 127 then (x <<< 1) ^^^ 0x87#128 else x <<< 1

/-- The chain of CMAC over the blocks, the last one already masked. -/
def cmacChain (rks : List (List Byte)) (bs : List (List Byte)) : List Byte :=
  bs.foldl (fun c b => aesEnc rks (xorBytes c b)) (zeros 16)

/-- AES-CMAC of a message. -/
def aesCmac (key msg : List Byte) : List Byte :=
  let rks := roundKeys key
  let k1 := cmacDouble (BitVec.ofNat 128 (beNat (aesEnc rks (zeros 16))))
  let k2 := cmacDouble k1
  let full := msg.length % 16 = 0 ∧ msg ≠ []
  let m := if full then msg else pad16 (msg ++ [0x80#8])
  let bs := chunks 16 m
  let last := xorBytes (bs.getLastD []) (beBytes 16 (if full then k1 else k2).toNat)
  cmacChain rks (bs.dropLast ++ [last])

/-! ## Key wrap with padding -/

/-- One step of unwrapping: `A`, the semiblocks, the step number from 6n down. -/
def unwrapStep (rks : List (List Byte)) (n t : Nat) (x : List Byte × List (List Byte)) :
    List Byte × List (List Byte) :=
  let i := (t - 1) % n
  let a := beBytes 8 (beNat x.1 ^^^ t)
  let b := aesDec rks (a ++ x.2.getD i [])
  (b.take 8, x.2.set i (b.drop 8))

/-- Unwrapping steps from `t` down to 1. -/
def unwrapGo (rks : List (List Byte)) (n t : Nat) (x : List Byte × List (List Byte)) :
    List Byte × List (List Byte) :=
  match t with
  | 0 => x
  | t + 1 => unwrapGo rks n t (unwrapStep rks n (t + 1) x)

/-- The plaintext of a wrapped blob of at least three semiblocks, or none when the
integrity check fails (RFC 5649). -/
def keyUnwrap (kek blob : List Byte) : Option (List Byte) :=
  let n := blob.length / 8 - 1
  let r := unwrapGo (roundKeys kek) n (6 * n) (blob.take 8, chunks 8 (blob.drop 8))
  let p := r.2.flatten
  let mli := beNat (r.1.drop 4)
  if r.1.take 4 = beBytes 4 0xA65959A6 ∧ 8 * (n - 1) < mli ∧ mli ≤ 8 * n
      ∧ (p.drop mli).all (fun b => b == 0) then some (p.take mli)
  else none

/-- One step of wrapping: `A`, the semiblocks, the step number from 1 up. -/
def wrapStep (rks : List (List Byte)) (n t : Nat) (x : List Byte × List (List Byte)) :
    List Byte × List (List Byte) :=
  let i := (t - 1) % n
  let b := aesEnc rks (x.1 ++ x.2.getD i [])
  (beBytes 8 (beNat (b.take 8) ^^^ t), x.2.set i (b.drop 8))

/-- The wrapped blob of a key of at least two semiblocks and a multiple of 8 bytes (RFC 5649). -/
def keyWrap (kek key : List Byte) : List Byte :=
  let n := key.length / 8
  let r := (List.range (6 * n)).foldl (fun x t => wrapStep (roundKeys kek) n (t + 1) x)
    (beBytes 4 0xA65959A6 ++ beBytes 4 key.length, chunks 8 key)
  r.1 ++ r.2.flatten

/-! ## SHA-256 -/

/-- The round constants, the first in the low 32 bits. -/
def shaTable : Nat :=
  0xC67178F2BEF9A3F7A4506CEB90BEFFFA8CC7020884C8781478A5636F748F82EE682E6FF35B9CCA4F4ED8AA4A391C0CB334B0BCB52748774C1E376C0819A4C116106AA070F40E3585D6990624D192E819C76C51A3C24B8B70A81A664BA2BFE8A192722C8581C2C92E766A0ABB650A735453380D134D2C6DFC2E1B213827B70A851429296706CA6351D5A79147C6E00BF3BF597FC7B00327C8A831C66D983E515276F988DA5CB0A9DC4A7484AA2DE92C6F240CA1CC0FC19DC6EFBE4786E49B69C1C19BF1749BDC06A780DEB1FE72BE5D74550C7DC3243185BE12835B01D807AA98AB1C5ED5923F82A459F111F13956C25BE9B5DBA5B5C0FBCF71374491428A2F98

/-- The initial hash value, the first word in the low 32 bits. -/
def shaInit : Nat :=
  0x5BE0CD191F83D9AB9B05688C510E527FA54FF53A3C6EF372BB67AE856A09E667

/-- Word `i` of a table of 32-bit words held as a number. -/
def tableWord (t i : Nat) : Word := BitVec.ofNat 32 (t >>> (32 * i))

def rotr (n : Nat) (x : Word) : Word := x.rotateRight n

/-- The next word of the message schedule, the words newest first. -/
def shaNext (w : List Word) : Word :=
  let a := w.getD 14 0
  let b := w.getD 1 0
  let s0 := rotr 7 a ^^^ rotr 18 a ^^^ (a >>> 3)
  let s1 := rotr 17 b ^^^ rotr 19 b ^^^ (b >>> 10)
  w.getD 15 0 + s0 + w.getD 6 0 + s1

/-- `n` more words of the schedule. -/
def shaSchedule (n : Nat) (w : List Word) : List Word :=
  match n with
  | 0 => w
  | n + 1 => shaSchedule n (shaNext w :: w)

/-- The eight working variables. -/
structure Sha where
  a : Word
  b : Word
  c : Word
  d : Word
  e : Word
  f : Word
  g : Word
  h : Word
  deriving DecidableEq, Repr

/-- One round. -/
def shaRound (x : Sha) (kw : Word) : Sha :=
  let s1 := rotr 6 x.e ^^^ rotr 11 x.e ^^^ rotr 25 x.e
  let ch := (x.e &&& x.f) ^^^ (~~~ x.e &&& x.g)
  let t1 := x.h + s1 + ch + kw
  let s0 := rotr 2 x.a ^^^ rotr 13 x.a ^^^ rotr 22 x.a
  let maj := (x.a &&& x.b) ^^^ (x.a &&& x.c) ^^^ (x.b &&& x.c)
  ⟨t1 + s0 + maj, x.a, x.b, x.c, x.d + t1, x.e, x.f, x.g⟩

/-- One block compressed. -/
def shaBlock (x : Sha) (b : List Byte) : Sha :=
  let w := (shaSchedule 48 ((chunks 4 b).map fun c => BitVec.ofNat 32 (beNat c)).reverse).reverse
  let y := (w.zipIdx).foldl (fun y wi => shaRound y (wi.1 + tableWord shaTable wi.2)) x
  ⟨x.a + y.a, x.b + y.b, x.c + y.c, x.d + y.d, x.e + y.e, x.f + y.f, x.g + y.g, x.h + y.h⟩

/-- SHA-256 of a message. -/
def sha256 (m : List Byte) : List Byte :=
  let t := tableWord shaInit
  let p := m ++ [0x80#8] ++ zeros ((119 - m.length % 64) % 64) ++ beBytes 8 (8 * m.length)
  let x := (chunks 64 p).foldl shaBlock ⟨t 0, t 1, t 2, t 3, t 4, t 5, t 6, t 7⟩
  [x.a, x.b, x.c, x.d, x.e, x.f, x.g, x.h].flatMap fun w => beBytes 4 w.toNat

/-- HMAC-SHA-256. -/
def hmac (key msg : List Byte) : List Byte :=
  let k := padTo 64 (if 64 < key.length then sha256 key else key)
  let x := fun (c : Byte) => k.map fun b => b ^^^ c
  sha256 (x 0x5C#8 ++ sha256 (x 0x36#8 ++ msg))

/-- HKDF-SHA-256 of at most 32 bytes. -/
def hkdf (salt ikm info : List Byte) (n : Nat) : List Byte :=
  (hmac (hmac salt ikm) (info ++ [1#8])).take n

/-! ## P-256 -/

def p256P : Nat := 0xFFFFFFFF00000001000000000000000000000000FFFFFFFFFFFFFFFFFFFFFFFF
def p256N : Nat := 0xFFFFFFFF00000000FFFFFFFFFFFFFFFFBCE6FAADA7179E84F3B9CAC2FC632551
def p256B : Nat := 0x5AC635D8AA3A93E7B3EBBD55769886BC651D06B0CC53B0F63BCE3C3E27D2604B
def p256G : Nat × Nat :=
  (0x6B17D1F2E12C4247F8BCE6E563A440F277037D812DEB33A0F4A13945D898C296,
   0x4FE342E2FE1A7F9B8EE7EB4A7C0F9E162BCE33576B315ECECBB6406837BF51F5)

/-- A power modulo `m`, over the bits of the exponent from bit `fuel` − 1 down. -/
def powModGo (fuel e m b acc : Nat) : Nat :=
  match fuel with
  | 0 => acc
  | f + 1 =>
    let sq := acc * acc % m
    powModGo f e m b (if e.testBit f then sq * b % m else sq)

/-- The inverse modulo a prime of 256 bits. -/
def invMod (a m : Nat) : Nat := powModGo 256 (m - 2) m a 1

/-- A difference modulo the field prime. -/
def subP (a b : Nat) : Nat := (a + (p256P - b % p256P)) % p256P

/-- A point in Jacobian coordinates; z = 0 is the neutral point. -/
structure JPoint where
  x : Nat
  y : Nat
  z : Nat
  deriving DecidableEq, Repr

/-- A point doubled. -/
def jDouble (a : JPoint) : JPoint :=
  let p := p256P
  let zz := a.z * a.z % p
  let yy := a.y * a.y % p
  let s := 4 * a.x * yy % p
  let m := 3 * (subP a.x zz) * ((a.x + zz) % p) % p
  let x := subP (m * m % p) (2 * s)
  ⟨x, subP (m * (subP s x) % p) (8 * yy * yy), 2 * a.y * a.z % p⟩

/-- The sum of two points. -/
def jAdd (a b : JPoint) : JPoint :=
  if a.z = 0 then b
  else if b.z = 0 then a
  else
    let p := p256P
    let za := a.z * a.z % p
    let zb := b.z * b.z % p
    let u1 := a.x * zb % p
    let u2 := b.x * za % p
    let s1 := a.y * b.z * zb % p
    let s2 := b.y * a.z * za % p
    if u1 = u2 then (if s1 = s2 then jDouble a else ⟨1, 1, 0⟩)
    else
      let h := subP u2 u1
      let r := subP s2 s1
      let hh := h * h % p
      let hhh := hh * h % p
      let v := u1 * hh % p
      let x := subP (subP (r * r % p) hhh) (2 * v)
      ⟨x, subP (r * (subP v x) % p) (s1 * hhh), a.z * b.z * h % p⟩

/-- A multiple of a point, over the bits of `k` from bit `fuel` − 1 down. -/
def jMulGo (fuel k : Nat) (a acc : JPoint) : JPoint :=
  match fuel with
  | 0 => acc
  | f + 1 =>
    let d := jDouble acc
    jMulGo f k a (if k.testBit f then jAdd d a else d)

/-- The affine coordinates of a point that is not neutral. -/
def jAffine (a : JPoint) : Nat × Nat :=
  let i := invMod a.z p256P
  let ii := i * i % p256P
  (a.x * ii % p256P, a.y * ii * i % p256P)

/-- A multiple of an affine point. -/
def pointMul (k : Nat) (a : Nat × Nat) : Nat × Nat := jAffine (jMulGo 256 k ⟨a.1, a.2, 1⟩ ⟨1, 1, 0⟩)

/-- Whether coordinates name a point of the curve. -/
def onCurve (a : Nat × Nat) : Bool :=
  decide (a.1 < p256P) && decide (a.2 < p256P)
    && a.2 * a.2 % p256P == (a.1 * a.1 % p256P * a.1 + 3 * (p256P - a.1) + p256B) % p256P

/-- Whether (r, s) signs the digest under the public point (ECDSA). -/
def ecdsaOk (pub : Nat × Nat) (digest r s : Nat) : Bool :=
  decide (0 < r) && decide (r < p256N) && decide (0 < s) && decide (s < p256N) && onCurve pub &&
    (let w := invMod s p256N
     let q := jAdd (jMulGo 256 (digest * w % p256N) ⟨p256G.1, p256G.2, 1⟩ ⟨1, 1, 0⟩)
       (jMulGo 256 (r * w % p256N) ⟨pub.1, pub.2, 1⟩ ⟨1, 1, 0⟩)
     q.z != 0 && (jAffine q).1 % p256N == r)

end Sys2Proof.Machine
end

