-- ==== Sys2Proof/Machine/Cipher.lean ====
section
/-! DEFINITION. The SRTP cipher engine (11_cipher.md): key slots and their import
(R346–R350), the requests (R351–R356) and the indexes (R353, R452). -/

namespace Sys2Proof.Machine

/-- The source ID of the cipher engine. -/
def ciphSrc : Nat := 0x0D

/-- An event of the engine about slot `k` (R359). -/
def ciphEvent (s : State) (k code flags : Nat) (data : List Byte) : State :=
  raise s ciphSrc code (match slotBound s k with | none => 0xFFFF | some n => n) flags (leBytes 2 k ++ data)

/-- A refusal counted (R360). -/
def ciphRefuse (s : State) (code : Nat) : State := bump s (offCiphRef + 8 * (code - 0x40))

/-! ## Keys -/

/-- The session key derivation of RFC 3711 at a key derivation rate of 0, `n` bytes. -/
def srtpKdf (key salt : List Byte) (label n : Nat) : List Byte :=
  let x := beNat (salt ++ zeros (16 - salt.length)) ^^^ (label * 2 ^ 64)
  (ctrStream (roundKeys key) x ((n + 15) / 16)).take n

/-- Whether a blob's plaintext is one that R350 allows. -/
def blobOk (p : List Byte) : Bool :=
  let send := (byteAt p 1).testBit 0
  let learn := (byteAt p 1).testBit 1
  ((byteAt p 0 == 1 && p.length == 44) || (byteAt p 0 == 2 && p.length == 60))
    && decide (byteAt p 1 < 4) && leAt p 2 2 == 0 && leAt p 14 2 == 0
    && (! learn || (! send && leAt p 4 4 == 0)) && (send || leAt p 8 2 == 0)

/-- The slot a plaintext loads (R350). -/
def slotOf (p : List Byte) : KeySlot :=
  let n := if byteAt p 0 = 1 then 16 else 32
  let mk := slice p 16 n
  let ms := slice p (16 + n) 12
  { KeySlot.reset with
    state := .loaded
    profile := byteAt p 0
    send := (byteAt p 1).testBit 0
    learn := (byteAt p 1).testBit 1
    ssrc := leAt p 4 4
    key := srtpKdf mk ms 0 n
    salt := srtpKdf mk ms 2 12
    ckey := srtpKdf mk ms 3 n
    csalt := srtpKdf mk ms 5 12
    idx := leAt p 8 6 }

/-- The limit warning of slot `k`, whose index was `old`, where it first reaches 2⁴⁸ − 2²⁰ (R353). -/
def limitWarn (s : State) (k old : Nat) : State :=
  let v := keySlotGet s k
  if v.send ∧ old < 2 ^ 48 - 2 ^ 20 ∧ 2 ^ 48 - 2 ^ 20 ≤ v.idx then ciphEvent s k 3 0 (leBytes 6 v.idx) else s

/-- Slot `k` written anew: no parity error stands in it (R356). -/
def slotWritten (s : State) (k : Nat) (v : KeySlot) : State :=
  let s1 := keySlotPut s k v
  { s1 with ciph := { s1.ciph with parity := s1.ciph.parity.filter (· != k) } }

/-- IMPORT into slot `k` of the blob at `a`: its code, 0 for done (R348, R350, R358).
DEDUCED, log entry 170. -/
def importSlot (s : State) (k a len : Nat) : Nat × State :=
  if 32767 < k then (0x40, s)
  else if (slotBound s k).isSome then (0x43, s)
  else if (len ≠ 56 ∧ len ≠ 72) ∨ a % 8 ≠ 0 ∨ inHeartwood a len = false then (0x46, s)
  else
    match s.ciph.kek with
    | none => (0x49, s)
    | some kek =>
      match (if anyPoison s a len then none else keyUnwrap kek (memBytes s a len)) with
      | none => (0x47, s)
      | some p => if blobOk p then (0, limitWarn (slotWritten s k (slotOf p)) k 0) else (0x48, s)

/-- ERASE of slot `k` (R348). -/
def eraseSlot (s : State) (k : Nat) : Nat × State :=
  if 32767 < k then (0x40, s)
  else if (slotBound s k).isSome then (0x43, s)
  else (0, slotWritten s k KeySlot.reset)

/-- Whether a parity error is found when slot `k` is read: one stands in it, or `par` brings one (R356).
DESIGN CHOICE, log entry 69. -/
def parityFound (s : State) (par : Bool) (k : Nat) : Bool :=
  (par || s.ciph.parity.contains k) && (keySlotGet s k).state != .fault

/-- A parity error found in slot `k` (R356). -/
def parityFault (s : State) (k : Nat) : State :=
  let s1 := csrSatInc (slotWritten s k { keySlotGet s k with state := .fault }) offCiphParerr 15 1
  if bitOf (csrGet s offCiphCtl) 30 then ciphEvent s1 k 2 0 [] else s1

/-- RETIRE of slot `k` (R351, R356).
DEDUCED, log entry 68. -/
def retireSlot (s : State) (k : Nat) : Nat × State :=
  let v := keySlotGet s k
  if 32767 < k then (0x40, s)
  else if parityFound s false k then (0x52, parityFault s k)
  else
    match v.state with
    | .empty => (0x41, s)
    | .loaded => (0, keySlotPut s k { v with state := .retired })
    | _ => (0x42, s)

/-! ## Index and replay -/

/-- The SRTP index estimated for sequence number `seq` (RFC 3711 Appendix A): the rollover count
before 0 is 2³² − 1, and one past 2³² − 1 is left to the limit of R353.
DEDUCED, log entry 66. -/
def estimateIdx (v : KeySlot) (seq : Nat) : Nat :=
  let roc := v.idx / 65536
  let sl := v.idx % 65536
  let r :=
    if v.fresh then roc
    else if sl < 32768 then (if sl + 32768 < seq then (roc + 4294967295) % 4294967296 else roc)
    else if seq + 32768 < sl then roc + 1 else roc
  r * 65536 + seq

/-- The replay check of index `i` against highest `top` and window `w`: 0, 0x4B or 0x4C.
DEDUCED, log entry 66. -/
def replayCode (top : Nat) (w : BitVec 128) (i : Nat) : Nat :=
  if top < i then 0
  else if 128 ≤ top - i then 0x4C
  else if w.getLsbD (top - i) then 0x4B else 0

/-- The window after index `i` was authenticated. -/
def windowAdd (top : Nat) (w : BitVec 128) (i : Nat) : BitVec 128 :=
  if top < i then (w <<< (i - top)) ||| 1#128 else w ||| (1#128 <<< (top - i))

/-- The IV of an SRTP packet (RFC 7714). -/
def srtpIv (salt : List Byte) (ssrc idx : Nat) : List Byte :=
  xorBytes salt (zeros 2 ++ beBytes 4 ssrc ++ beBytes 6 idx)

/-- The IV of an SRTCP packet (RFC 7714). -/
def srtcpIv (salt : List Byte) (ssrc idx : Nat) : List Byte :=
  xorBytes salt (zeros 2 ++ beBytes 4 ssrc ++ zeros 2 ++ beBytes 4 idx)

/-- Length of an RTP header: fixed part, CSRC list and extension (R344). -/
def rtpHeader (b : List Byte) : Nat :=
  let fixed := 12 + 4 * (byteAt b 0 % 16)
  if (byteAt b 0).testBit 4 then fixed + 4 + 4 * beAt b (fixed + 2) 2 else fixed

/-! ## Transforms

Each answers a code, the packet it leaves, the slot it leaves, and INFO. -/

/-- Outcome of a transform. -/
structure Crypt where
  code : Nat
  out : List Byte
  slot : KeySlot
  info : Nat
  deriving DecidableEq, Repr

/-- A refusal that changes nothing in the slot. -/
def cryptNo (code : Nat) (v : KeySlot) : Crypt := ⟨code, [], v, 0⟩

/-- SRTP protection of packet `b` (R344, R353). -/
def protect (v : KeySlot) (b : List Byte) : Crypt :=
  let h := rtpHeader b
  if byteAt b 0 / 64 ≠ 2 ∨ b.length < 12 ∨ rtpFits b = false ∨ 1480 < b.length + 16 then cryptNo 0x50 v
  else if 2 ^ 48 ≤ v.idx then ⟨0x4D, [], { v with state := .retired }, 0⟩
  else if (match v.hor with | none => false | some x => decide (x ≤ v.idx)) then cryptNo 0x55 v
  else if beAt b 8 4 ≠ v.ssrc then cryptNo 0x4F v
  else
    let hd := putBytes (b.take h) 2 (beBytes 2 (v.idx % 65536))
    let iv := srtpIv v.salt v.ssrc v.idx
    let ct := gcmCrypt v.key iv (b.drop h)
    ⟨0, hd ++ ct ++ gcmTag v.key iv hd ct, { v with idx := v.idx + 1 }, v.idx % 65536⟩

/-- SRTCP protection (R344, R353): the 1,480 bytes of R343 end with the tag, before the index word. -/
def protectRtcp (v : KeySlot) (b : List Byte) : Crypt :=
  if byteAt b 0 / 64 ≠ 2 ∨ b.length < 8 ∨ 1480 < b.length + 16 then cryptNo 0x50 v
  else if 2 ^ 31 ≤ v.cidx then ⟨0x4E, [], { v with state := .retired }, 0⟩
  else if (match v.chor with | none => false | some x => decide (x ≤ v.cidx)) then cryptNo 0x55 v
  else if beAt b 4 4 ≠ v.ssrc then cryptNo 0x4F v
  else
    let w := beBytes 4 (2 ^ 31 + v.cidx)
    let iv := srtcpIv v.csalt v.ssrc v.cidx
    let ct := gcmCrypt v.ckey iv (b.drop 8)
    ⟨0, b.take 8 ++ ct ++ gcmTag v.ckey iv (b.take 8 ++ w) ct ++ w, { v with cidx := v.cidx + 1 }, 0⟩

/-- SRTP unprotection of packet `b` (R352).
DEDUCED, log entry 67. -/
def unprotect (v : KeySlot) (b : List Byte) : Crypt :=
  let h := rtpHeader b
  let seq := beAt b 2 2
  let n := estimateIdx v seq
  let body := b.take (b.length - 16)
  if byteAt b 0 / 64 ≠ 2 ∨ b.length < 12 ∨ rtpFits b = false ∨ b.length < h + 16 ∨ 1480 < b.length then
    cryptNo 0x50 v
  else if v.learn = false ∧ beAt b 8 4 ≠ v.ssrc then cryptNo 0x4F v
  else if 2 ^ 48 ≤ n then cryptNo 0x4D v
  else if v.fresh = false ∧ replayCode v.idx v.win n ≠ 0 then cryptNo (replayCode v.idx v.win n) v
  else
    let iv := srtpIv v.salt (beAt b 8 4) n
    let ct := body.drop h
    if gcmTag v.key iv (b.take h) ct = b.drop (b.length - 16) then
      let v1 := { v with
        ssrc := beAt b 8 4
        learn := false
        fresh := false
        win := if v.fresh then 1 else windowAdd v.idx v.win n
        idx := if v.fresh then n else max v.idx n }
      ⟨0, b.take h ++ gcmCrypt v.key iv ct, v1, 0⟩
    else cryptNo 0x4A v

/-- SRTCP unprotection (R344, R352). -/
def unprotectRtcp (v : KeySlot) (b : List Byte) : Crypt :=
  let w := b.drop (b.length - 4)
  let enc := (beNat w).testBit 31
  let n := beNat w % 2 ^ 31
  let tag := slice b (b.length - 20) 16
  let body := b.take (b.length - 20)
  if byteAt b 0 / 64 ≠ 2 ∨ b.length < 28 ∨ 1484 < b.length then cryptNo 0x50 v
  else if v.learn = false ∧ beAt b 4 4 ≠ v.ssrc then cryptNo 0x4F v
  else if replayCode v.cidx v.cwin n ≠ 0 then cryptNo (replayCode v.cidx v.cwin n) v
  else
    let iv := srtcpIv v.csalt (beAt b 4 4) n
    let aad := if enc then b.take 8 ++ w else body ++ w
    let ct := if enc then body.drop 8 else []
    if gcmTag v.ckey iv aad ct = tag then
      let v1 := { v with
        ssrc := beAt b 4 4
        learn := false
        cwin := windowAdd v.cidx v.cwin n
        cidx := max v.cidx n }
      ⟨0, if enc then b.take 8 ++ gcmCrypt v.ckey iv ct else body, v1, 0⟩
    else cryptNo 0x4A v

/-! ## Requests -/

/-- What the state of slot `k` refuses a packet request for channel `ch` with; 0 when it
serves a request of direction `send` (R347, R351, R358).
DEDUCED, log entry 67. -/
def slotCode (s : State) (k ch : Nat) (send : Bool) : Nat :=
  let v := keySlotGet s k
  if v.state = .empty then 0x41
  else if v.state = .retired ∨ v.state = .fault then 0x42
  else if slotBound s k ≠ some ch then 0x44
  else if v.send ≠ send then 0x45
  else 0

/-- The slot a transform leaves, with the events of R353. -/
def keepSlot (s : State) (k : Nat) (rtcp : Bool) (x : Crypt) : State :=
  let old := keySlotGet s k
  let s1 := horizonCheck (keySlotPut s k x.slot) k old.idx
  if x.slot.state = .retired then
    (if bitOf (csrGet s offCiphCtl) 31 then ciphEvent s1 k 1 rtcp.toNat [] else s1)
  else limitWarn s1 k old.idx

/-- A packet written back into its item: its bytes and the cells' lengths (R351). -/
def writePacket (s : State) (i : Item) (grow : Nat) (bs : List Byte) : State :=
  let lens := itemLens s i
  let all := (itemBytes s i).take 16 ++ bs
  rewriteCells s (itemCells s i) (if 0 < grow then growLast lens grow else cutLens lens all.length) all

/-- Room for `grow` more bytes in the last cell of an item. -/
def hasRoom (s : State) (i : Item) (grow : Nat) : Bool :=
  decide ((itemLens s i).getLastD 0 + grow ≤ 112)

/-- One transform of the packet of item `i` under slot `k`: code, INFO and the state. -/
def cryptItem (s : State) (k : Nat) (rtcp : Bool) (grow : Nat) (f : KeySlot → List Byte → Crypt) (i : Item) :
    Nat × Nat × State :=
  let bs := itemBytes s i
  let x := if bs.length < 16 then cryptNo 0x50 (keySlotGet s k) else f (keySlotGet s k) (bs.drop 16)
  let s1 := keepSlot s k rtcp x
  if x.code = 0 then (0, x.info, writePacket s1 i grow x.out) else (x.code, 0, s1)

/-- A packet request of the CPX queue, `par` saying that a parity error is found (R351–R356).
DESIGN CHOICE, log entry 69. -/
def packetRequest (s : State) (c : UnitCmd) (send rtcp : Bool) (grow : Nat)
    (f : KeySlot → List Byte → Crypt) (par : Bool) : Nat × Nat × State :=
  let k := fld c.w3 15 0
  if cmdFlags c ≠ 0 ∨ fld c.w2 31 30 ≠ 0 then (0x53, 0, s)
  else if 32767 < k then (0x40, 0, s)
  else if parityFound s par k then (0x52, 0, parityFault s k)
  else if slotCode s k (cmdChan c) send ≠ 0 then (slotCode s k (cmdChan c) send, 0, s)
  else if itemCode s c.w2 ≠ 0 ∨ hasRoom s (itemOf c.w2) grow = false then (0x51, 0, s)
  else
    let r := cryptItem s k rtcp grow f (itemOf c.w2)
    if r.1 = 0 then
      let q := fld c.w3 31 16
      let s1 := bump r.2.2 (if send then offCiphProt else offCiphUnprot)
      (0, r.2.1, if q = 0xFFFF then s1 else clearingCheck (pushItem s1 q (itemOf c.w2) ciphSrc))
    else r

/-- A CPX command ended, its refusal counted and its completion queued. -/
def ciphEnd (c : UnitCmd) (r : Nat × Nat × State) : State :=
  let s1 := if r.1 = 0 then r.2.2 else ciphRefuse r.2.2 r.1
  { s1 with ciph := { s1.ciph with unit := unitEnd s1.ciph.unit c r.1 ciphSrc r.2.1 (fld c.w3 15 0) } }

/-- Whether the engine holds a completion (R173). -/
def ciphHeld (s : State) : Bool := unitHeld sameKey s s.ciph.unit ciphSrc

/-- The code is one of R351. -/
def ciphKnown (c : UnitCmd) : Bool := decide (1 ≤ cmdCode c) && decide (cmdCode c ≤ 7)

/-- Commands of no known code that stand at the head begun, each refused with 0x53, at most
`n` of them (R142).
DEDUCED, log entry 70. -/
def ciphSettleN (n : Nat) (s : State) : State :=
  match n with
  | 0 => s
  | n + 1 =>
    match s.ciph.unit.q with
    | [] => s
    | c :: r =>
      if ciphHeld s || ciphKnown c then s
      else ciphSettleN n (ciphEnd c (0x53, 0, { s with ciph := { s.ciph with unit := { s.ciph.unit with q := r } } }))

def ciphSettle (s : State) : State := ciphSettleN s.ciph.unit.q.length s

/-- The command at the head of the CPX queue begun, when its code is `code` and no completion
is held (R173). -/
def ciphTake (s : State) (code : Nat) (f : State → UnitCmd → Nat × Nat × State) : State :=
  match (if ciphHeld s then none else unitTake s.ciph.unit code) with
  | none => s
  | some (c, u) =>
    let s1 := { s with ciph := { s.ciph with unit := u } }
    ciphEnd c (f s1 c)

/-- A command of code `code` begins when it stands at the head of the queue; commands of no
known code before and behind it end. -/
def ciphBegin (s : State) (code : Nat) (f : State → UnitCmd → Nat × Nat × State) : State :=
  ciphSettle (ciphTake (ciphSettle s) code f)

def execCiphProtect (par : Bool) (s : State) : Result :=
  .next (ciphBegin s 1 fun s c => packetRequest s c true false 16 protect par)

def execCiphProtectRtcp (par : Bool) (s : State) : Result :=
  .next (ciphBegin s 2 fun s c => packetRequest s c true true 20 protectRtcp par)

def execCiphUnprotect (par : Bool) (s : State) : Result :=
  .next (ciphBegin s 3 fun s c => packetRequest s c false false 0 unprotect par)

def execCiphUnprotectRtcp (par : Bool) (s : State) : Result :=
  .next (ciphBegin s 4 fun s c => packetRequest s c false true 0 unprotectRtcp par)

/-- A slot command of the CPX queue (R351). -/
def slotCommand (s : State) (c : UnitCmd) (zero : Bool) (f : State → Nat → Nat × State) : Nat × Nat × State :=
  if cmdFlags c ≠ 0 ∨ zero = false ∨ c.priv = false then (0x53, 0, s)
  else
    let r := f s (fld c.w3 15 0)
    (r.1, 0, r.2)

def execCiphImport (s : State) : Result :=
  .next (ciphBegin s 5 fun s c =>
    slotCommand s c (fld c.w3 31 24 == 0) fun s k => importSlot s k c.w2.toNat (fld c.w3 23 16))

def execCiphErase (s : State) : Result :=
  .next (ciphBegin s 6 fun s c => slotCommand s c (fld c.w3 31 16 == 0 && c.w2 == 0) eraseSlot)

def execCiphRetire (s : State) : Result :=
  .next (ciphBegin s 7 fun s c => slotCommand s c (fld c.w3 31 16 == 0 && c.w2 == 0) retireSlot)

/-- The outcome of a host slot command in CIPH_IMP_STAT. -/
def impStat (r : Nat × State) : State :=
  csrPut (if r.1 = 0 then r.2 else ciphRefuse r.2 r.1) offCiphImpStat (wordOf (0x80000000 + r.1))

/-- The slot of CIPH_IMP_SLOT. -/
def impSlot (s : State) : Nat := csrFld s offCiphImpSlot 15 0

/-- A write of CIPH_IMP_CMD (R360). -/
def impCommand (s : State) (op : Nat) : State :=
  match op with
  | 1 => impStat (importSlot s (impSlot s) (csrGet s offCiphImpAddr).toNat (csrFld s offCiphImpLen 6 0))
  | 2 => impStat (eraseSlot s (impSlot s))
  | 3 => impStat (retireSlot s (impSlot s))
  | _ => s

def execCiphImpImport (s : State) : Result := .next (impCommand s 1)

def execCiphImpErase (s : State) : Result := .next (impCommand s 2)

def execCiphImpRetire (s : State) : Result := .next (impCommand s 3)

/-- The oldest request of the packet engine's own queue (R352), which a held completion does not stop.
DEDUCED, log entry 171. -/
def rxUnprotect (s : State) (par : Bool) : State :=
  match s.pkt.secure with
  | [] => s
  | r :: rest =>
    let s1 := { s with pkt := { s.pkt with secure := rest } }
    let refuse := fun (s : State) (code : Nat) =>
      clearingCheck (drop (freeItem (ciphRefuse s code) r.item) 13)
    match bindGet s1 r.chan with
    | none => refuse s1 0x44
    | some b =>
      let k := b.keys.headD 32768
      if 32767 < k then refuse s1 0x40
      else if parityFound s1 par k then refuse (parityFault s1 k) 0x52
      else if slotCode s1 k r.chan false ≠ 0 then refuse s1 (slotCode s1 k r.chan false)
      else
        let x := cryptItem s1 k false 0 unprotect r.item
        if x.1 = 0 then
          clearingCheck (pushItem (bump x.2.2 offCiphUnprot) (legQueue b r.leg) r.item pktSrc)
        else refuse x.2.2 x.1

def execCiphRxUnprotect (par : Bool) (s : State) : Result := .next (rxUnprotect s par)

def execCiphCompletionDeliver (i : Nat) (s : State) : Result :=
  .next (match deliverDone sameKey s s.ciph.unit i ciphSrc with
    | none => s
    | some (s1, rest) => ciphSettle { s1 with ciph := { s1.ciph with unit := { s1.ciph.unit with done := rest } } })

/-! ## The key-encryption key (R349) -/

/-- The device's private key, from the OTP root secret.
DESIGN CHOICE, log entry 19. -/
def devPriv : Nat := 1 + Config.otpRoot % (p256N - 1)

/-- The device's public key.
DESIGN CHOICE, log entry 19. -/
def devPub : Nat × Nat := pointMul devPriv p256G

/-- The 64 bytes of a point: X then Y, most significant byte first. -/
def pointBytes (p : Nat × Nat) : List Byte := beBytes 32 p.1 ++ beBytes 32 p.2

/-- The 64 bytes of sixteen registers, each with its first byte in bits 31:24. -/
def regsBe (s : State) (o n : Nat) : List Byte := (List.range n).flatMap fun i => beBytes 4 (csrGet s (o + 4 * i)).toNat

/-- The key server's public key. -/
def kekPub (s : State) : Nat × Nat :=
  let b := regsBe s offCiphKekpub 16
  (beAt b 0 32, beAt b 32 32)

/-- A write of CIPH_KEKCMD with DERIVE. -/
def kekStart (s : State) : State := { s with ciph := { s.ciph with deriving_ := true } }

def execKekDerive (s : State) : Result := .next (kekStart s)

/-- The end of a derivation. -/
def kekFinish (s : State) : State :=
  let s1 := { s with ciph := { s.ciph with deriving_ := false } }
  if onCurve (kekPub s) then
    let gen := (csrGet s offCiphKekgen).toNat + 1
    let z := (pointMul devPriv (kekPub s)).1
    let info := (("KH7160 KEK".toList.map fun c => BitVec.ofNat 8 c.toNat) : List Byte) ++ beBytes 4 gen
    let kek := hkdf (zeros 32) (beBytes 32 z) info 32
    let s2 := { s1 with ciph := { s1.ciph with kek := some kek } }
    let s3 := csrPut (csrPut s2 offCiphKekgen (wordOf gen)) offCiphKekstat 0x80000000#32
    raise0 s3 ciphSrc 4 0 (leBytes 4 gen)
  else csrPut (ciphRefuse s1 0x54) offCiphKekstat 0x80000001#32

def execKekDeriveDone (s : State) : Result := .next (if s.ciph.deriving_ then kekFinish s else s)

/-- CIPH_STAT. -/
def ciphStat (s : State) : Word :=
  wordOf (boolBit s.ciph.kek.isSome 31 + boolBit (ciphHeld s) 30
    + s.pkt.secure.length * 0x10000 + s.ciph.unit.q.length)

/-- Code of a slot's state in CIPH_SINFO. -/
def slotStateCode (v : SlotState) : Nat :=
  match v with
  | .empty => 0
  | .loaded => 1
  | .retired => 2
  | .fault => 3

/-- The slot of the view; an internal slot shows zero. -/
def viewSlot (s : State) : KeySlot := keySlotGet s (csrFld s offCiphSsel 15 0)

/-- CIPH_SINFO. -/
def ciphSinfo (s : State) : Word :=
  let v := viewSlot s
  let b := slotBound s (csrFld s offCiphSsel 15 0)
  wordOf (boolBit b.isSome 31 + boolBit v.send 30 + slotStateCode v.state * 0x10000000
    + (if v.state = .empty then 0 else v.profile) * 0x4000000 + b.getD 0)

end Sys2Proof.Machine
end

