-- ==== Sys2Proof/Machine/Inflate.lean ====
section
/-! DEFINITION. Decoding of a DEFLATE stream (RFC 1951), resumable at any bit (R370). -/

namespace Sys2Proof.Machine

/-- A canonical Huffman code: how many codes each length 0–15 has, and the symbols in
order of length, then of value. -/
structure Huff where
  count : List Nat
  syms : List Nat
  deriving DecidableEq, Repr

/-- The code of a list of lengths. -/
def huffOf (lens : List Nat) : Huff :=
  { count := (List.range 16).map fun n => if n = 0 then 0 else lens.count n
    syms := (List.range 15).flatMap fun n =>
      (lens.zipIdx.filter fun x => x.1 == n + 1).map fun x => x.2 }

/-- Code space left by a list of counts: zero for a complete code, negative when it is
oversubscribed. -/
def huffLeft (counts : List Nat) (left : Int) : Int :=
  match counts with
  | [] => left
  | c :: r => let l := 2 * left - c; if l < 0 then l else huffLeft r l

/-- Result of reading a symbol. -/
inductive Sym where
  | more
  | bad
  | sym (n : Nat) (rest : List Bool)
  deriving DecidableEq, Repr

/-- The next symbol: counts of the lengths still to try, code read so far, first code and
first index of the present length. -/
def huffGo (syms : List Nat) (counts : List Nat) (code first index : Nat) (bits : List Bool) : Sym :=
  match counts with
  | [] => .bad
  | c :: r =>
    match bits with
    | [] => if c = 0 ∧ (r.all fun x => x == 0) then .bad else .more
    | b :: bs =>
      let code := 2 * code + b.toNat
      if code < first + c then .sym (syms.getD (index + (code - first)) 0) bs
      else huffGo syms r code (2 * (first + c)) (index + c) bs

/-- The next symbol of a code. -/
def huffSym (h : Huff) (bits : List Bool) : Sym := huffGo h.syms h.count.tail 0 0 0 bits

/-- The number in the first `n` bits, least significant first. -/
def bitsNat (bits : List Bool) (n : Nat) : Nat :=
  match n with
  | 0 => 0
  | n + 1 => (bits.headD false).toNat + 2 * bitsNat bits.tail n

/-- The bits of bytes, least significant first. -/
def bitsOf (l : List Byte) : List Bool := l.flatMap fun b => (List.range 8).map fun i => b.getLsbD i

/-- Where a decoder stands in its stream. -/
inductive InfMode where
  | header
  /-- In a stored block with so many bytes left. -/
  | stored (left : Nat)
  /-- In a compressed block with these code lengths. -/
  | codes (lit dist : List Nat)
  deriving DecidableEq, Repr

/-- A decoder: its mode, whether the present block is the last, whether the last block
has ended, bits read but not used, a match still to copy, the history newest first, the
window size, the output newest first and the room left for it. -/
structure Inf where
  mode : InfMode
  last : Bool
  ended : Bool
  bits : List Bool
  mlen : Nat
  mdist : Nat
  hist : List Byte
  window : Nat
  out : List Byte
  room : Nat
  deriving DecidableEq, Repr

/-- What one step of decoding comes to. -/
inductive InfStep where
  | go (d : Inf)
  /-- Nothing more can be done: input used up, output full or stream ended. -/
  | halt
  /-- A data error with its cause (R374). -/
  | err (cause : Nat)
  deriving DecidableEq, Repr

/-- One byte put out. -/
def infPut (d : Inf) (b : Byte) : Inf :=
  { d with hist := (b :: d.hist).take d.window, out := b :: d.out, room := d.room - 1 }

/-- Base values and extra bits of the length and distance symbols. -/
def lenBase : List Nat :=
  [3, 4, 5, 6, 7, 8, 9, 10, 11, 13, 15, 17, 19, 23, 27, 31, 35, 43, 51, 59, 67, 83, 99, 115, 131, 163, 195, 227, 258]
def lenExtra : List Nat :=
  [0, 0, 0, 0, 0, 0, 0, 0, 1, 1, 1, 1, 2, 2, 2, 2, 3, 3, 3, 3, 4, 4, 4, 4, 5, 5, 5, 5, 0]
def distBase : List Nat :=
  [1, 2, 3, 4, 5, 7, 9, 13, 17, 25, 33, 49, 65, 97, 129, 193, 257, 385, 513, 769, 1025, 1537, 2049, 3073,
   4097, 6145, 8193, 12289, 16385, 24577]
def distExtra : List Nat :=
  [0, 0, 0, 0, 1, 1, 2, 2, 3, 3, 4, 4, 5, 5, 6, 6, 7, 7, 8, 8, 9, 9, 10, 10, 11, 11, 12, 12, 13, 13]

/-- The code lengths of a fixed block. -/
def fixedLit : List Nat :=
  List.replicate 144 8 ++ List.replicate 112 9 ++ List.replicate 24 7 ++ List.replicate 8 8
def fixedDist : List Nat := List.replicate 32 5

/-- Order in which a dynamic header gives the lengths of the code length code. -/
def clOrder : List Nat := [16, 17, 18, 0, 8, 7, 9, 6, 10, 5, 11, 4, 12, 3, 13, 2, 14, 1, 15]

/-- Result of reading the lengths of a dynamic block. -/
inductive Lens where
  | more
  | bad
  | lens (l : List Nat) (rest : List Bool)
  deriving DecidableEq, Repr

/-- `want` code lengths under the code length code, the ones read newest first. -/
def readLens (fuel want : Nat) (h : Huff) (bits : List Bool) (acc : List Nat) : Lens :=
  match fuel with
  | 0 => .bad
  | f + 1 =>
    if want ≤ acc.length then (if want = acc.length then .lens acc.reverse bits else .bad)
    else
      match huffSym h bits with
      | .more => .more
      | .bad => .bad
      | .sym n r =>
        let rep := fun (x base k : Nat) =>
          if r.length < k then Lens.more
          else readLens f want h (r.drop k) (List.replicate (base + bitsNat r k) x ++ acc)
        if n < 16 then readLens f want h r (n :: acc)
        else if n = 16 then (if acc = [] then .bad else rep (acc.headD 0) 3 2)
        else if n = 17 then rep 0 3 3
        else rep 0 11 7

/-- A set of code lengths that a block may use: complete, or one distance code alone. -/
def lensOk (lit dist : List Nat) : Bool :=
  let l := huffLeft (huffOf lit).count.tail 1
  let d := huffLeft (huffOf dist).count.tail 1
  lit.getD 256 0 != 0 && l == 0
    && (d == 0 || (decide (0 < d) && decide ((dist.filter fun n => n != 0).length ≤ 1)))

/-- The header of a dynamic block, behind its three bits. -/
def dynHeader (d : Inf) (last : Bool) (bits : List Bool) : InfStep :=
  if bits.length < 14 then .halt
  else
    let nlit := bitsNat bits 5 + 257
    let ndist := bitsNat (bits.drop 5) 5 + 1
    let ncl := bitsNat (bits.drop 10) 4 + 4
    let b := bits.drop 14
    if 286 < nlit ∨ 30 < ndist then .err 3
    else if b.length < 3 * ncl then .halt
    else
      let given := (List.range ncl).map fun i => (clOrder.getD i 0, bitsNat (b.drop (3 * i)) 3)
      let cl := (List.range 19).map fun i =>
        match given.find? fun g => g.1 == i with
        | some g => g.2
        | none => 0
      if huffLeft (huffOf cl).count.tail 1 ≠ 0 then .err 3
      else
        match readLens 400 (nlit + ndist) (huffOf cl) (b.drop (3 * ncl)) [] with
        | .more => .halt
        | .bad => .err 3
        | .lens l rest =>
          if lensOk (l.take nlit) (l.drop nlit) then
            .go { d with mode := .codes (l.take nlit) (l.drop nlit), last := last, bits := rest }
          else .err 3

/-- Bits used so far of the present byte, known from the bits left of whole bytes. -/
def dropToByte (bits : List Bool) : List Bool := bits.drop (bits.length % 8)

/-- The header of a block. -/
def blockHeader (d : Inf) : InfStep :=
  if d.bits.length < 3 then .halt
  else
    let last := d.bits.headD false
    let b := d.bits.drop 3
    match bitsNat (d.bits.drop 1) 2 with
    | 0 =>
      let a := dropToByte b
      if a.length < 32 then .halt
      else
        let n := bitsNat a 16
        if n + bitsNat (a.drop 16) 16 ≠ 65535 then .err 2
        else .go { d with mode := .stored n, last := last, bits := a.drop 32 }
    | 1 => .go { d with mode := .codes fixedLit fixedDist, last := last, bits := b }
    | 2 => dynHeader d last b
    | _ => .err 1

/-- A match begun: its distance is checked against the history (R370). -/
def startMatch (d : Inf) (len dist : Nat) (bits : List Bool) : InfStep :=
  if d.hist.length < dist then .err 5 else .go { d with mlen := len, mdist := dist, bits := bits }

/-- The distance of a match of length `len`. -/
def readDist (d : Inf) (dist : Huff) (len : Nat) (bits : List Bool) : InfStep :=
  match huffSym dist bits with
  | .more => .halt
  | .bad => .err 4
  | .sym n r =>
    let x := distExtra.getD n 0
    if 30 ≤ n then .err 4
    else if r.length < x then .halt
    else startMatch d len (distBase.getD n 0 + bitsNat r x) (r.drop x)

/-- End of a block. -/
def blockEnd (d : Inf) (bits : List Bool) : Inf := { d with mode := .header, ended := d.last, bits := bits }

/-- The next symbol of a compressed block. -/
def blockSym (d : Inf) (lit dist : Huff) : InfStep :=
  match huffSym lit d.bits with
  | .more => .halt
  | .bad => .err 4
  | .sym n r =>
    if n < 256 then (if d.room = 0 then .halt else .go { infPut d (BitVec.ofNat 8 n) with bits := r })
    else if n = 256 then .go (blockEnd d r)
    else
      let x := lenExtra.getD (n - 257) 0
      if 286 ≤ n then .err 4
      else if r.length < x then .halt
      else readDist d dist (lenBase.getD (n - 257) 0 + bitsNat r x) (r.drop x)

/-- One step of decoding. -/
def infStep (d : Inf) : InfStep :=
  if 0 < d.mlen then
    (if d.room = 0 then .halt
     else .go { infPut d (d.hist.getD (d.mdist - 1) 0) with mlen := d.mlen - 1 })
  else if d.ended then .halt
  else
    match d.mode with
    | .header => blockHeader d
    | .stored 0 => .go (blockEnd d d.bits)
    | .stored (n + 1) =>
      if d.room = 0 ∨ d.bits.length < 8 then .halt
      else .go { infPut d (BitVec.ofNat 8 (bitsNat d.bits 8)) with mode := .stored n, bits := d.bits.drop 8 }
    | .codes lit dist => blockSym d (huffOf lit) (huffOf dist)

/-- Decoding until nothing more can be done, with fuel, and with `strict` not beyond an
output that is full (R370): the decoder, or a data error. -/
def infRun (fuel : Nat) (strict : Bool) (d : Inf) : Inf ⊕ Nat :=
  match fuel with
  | 0 => .inl d
  | f + 1 =>
    if strict ∧ d.room = 0 then .inl d
    else
      match infStep d with
      | .halt => .inl d
      | .err c => .inr c
      | .go d1 => infRun f strict d1

/-- Steps that suffice for the bits a decoder holds and the room it has. -/
def infFuel (d : Inf) : Nat := 2 * (d.bits.length + d.room) + 1000

/-- Whether the bits a decoder holds give output that has no room. -/
def infDue (d : Inf) : Bool :=
  match infRun (infFuel d) true { d with out := [], room := 1 } with
  | .inl e => ! e.out.isEmpty
  | .inr _ => false

/-! ## A decoder between requests

The spec calls ENGINE opaque; the model keeps in it, in a layout of its own: a mode byte,
flags, the bytes left of a stored block, the match still to copy, the unused bits, and
the code lengths of the present block. -/

/-- The bytes of a list of bits, least significant first. -/
def packBits (bits : List Bool) : List Byte := (chunks 8 bits).map fun c => BitVec.ofNat 8 (bitsNat c 8)

/-- The ENGINE area of a decoder.
DEDUCED, log entry 73. -/
def infSave (d : Inf) : List Byte :=
  let m : Nat × Nat × List Nat × List Nat :=
    match d.mode with
    | .header => (0, 0, [], [])
    | .stored n => (1, n, [], [])
    | .codes l r => (2, 0, l, r)
  leBytes 1 m.1 ++ leBytes 1 (d.last.toNat + 2 * d.ended.toNat) ++ leBytes 2 m.2.1 ++ leBytes 2 d.mlen
    ++ leBytes 2 d.mdist ++ leBytes 2 m.2.2.1.length ++ leBytes 2 m.2.2.2.length ++ leBytes 4 d.bits.length
    ++ (m.2.2.1 ++ m.2.2.2).map (BitVec.ofNat 8) ++ packBits d.bits

/-- The decoder that an ENGINE area holds, with a history, a window and new input.
DEDUCED, log entry 73. -/
def infLoad (e : List Byte) (hist : List Byte) (window room : Nat) (input : List Byte) : Inf :=
  let nl := leAt e 8 2
  let nd := leAt e 10 2
  let nb := leAt e 12 4
  let at_ := fun (i n : Nat) => ((e.drop i).take n).map fun b => b.toNat
  let mode : InfMode :=
    match byteAt e 0 with
    | 0 => .header
    | 1 => .stored (leAt e 2 2)
    | _ => .codes (at_ 16 nl) (at_ (16 + nl) nd)
  { mode := mode
    last := (byteAt e 1).testBit 0
    ended := (byteAt e 1).testBit 1
    bits := (bitsOf ((e.drop (16 + nl + nd)).take ((nb + 7) / 8))).take nb ++ bitsOf input
    mlen := leAt e 4 2
    mdist := leAt e 6 2
    hist := hist
    window := window
    out := []
    room := room }

end Sys2Proof.Machine
end

