-- ==== Sys2Proof/Machine/Deflate.lean ====
section
/-! DEFINITION. Encoding of a DEFLATE stream (RFC 1951) as R368 and R369 lay down:
matches found along chains of limited depth, blocks of 16,384 symbols, each in its
shortest form. -/

namespace Sys2Proof.Machine

/-! ## Matches (R368, R369) -/

/-- Bytes at distance `d` that the text behind agrees with, at most `n`; the history runs on
into the text itself. -/
def matchLen (hist : List Byte) (d : Nat) (text : List Byte) (n : Nat) : Nat :=
  match n, text with
  | n + 1, b :: r => if hist[d - 1]? = some b then 1 + matchLen (b :: hist) d r n else 0
  | _, _ => 0

/-- Chain positions tried for each match (R369). -/
def chainDepth (level : Nat) : Nat := [4, 8, 16, 32, 64, 128, 256, 1024, 4096].getD (level - 1) 0

/-- The chain of a text: the distances, nearest first, at which its next three bytes stand.
DESIGN CHOICE, log entry 20. -/
def chainOfText (hist : List Byte) (window : Nat) (text : List Byte) : List Nat :=
  (List.range (min hist.length window)).filterMap fun i =>
    if matchLen hist (i + 1) text 3 = 3 then some (i + 1) else none

/-- The longest match among the chain positions tried, the nearest of equals: its length, 0
for none, and its distance. -/
def bestMatch (hist : List Byte) (window depth : Nat) (text : List Byte) : Nat × Nat :=
  ((chainOfText hist window text).take depth).foldl
    (fun m d => let n := matchLen hist d text 258; if m.1 < n then (n, d) else m) (0, 0)

/-- The symbols of a text. Levels 4 to 9 defer a match by one byte when the next byte gives
a longer one (R369). -/
def defToks (fuel level window : Nat) (hist text : List Byte) : List CrucTok :=
  match fuel, text with
  | f + 1, b :: r =>
    let m := bestMatch hist window (chainDepth level) text
    let next := bestMatch (b :: hist) window (chainDepth level) r
    if m.1 = 0 ∨ (4 ≤ level ∧ m.1 < next.1) then .lit b :: defToks f level window (b :: hist) r
    else .ref m.1 m.2 :: defToks f level window ((text.take m.1).reverse ++ hist) (text.drop m.1)
  | _, _ => []

/-- Bytes a symbol stands for. -/
def tokLen (t : CrucTok) : Nat :=
  match t with
  | .lit _ => 1
  | .ref n _ => n

/-! ## Codes -/

/-- The low `k` bits of a number, least significant first. -/
def natBits (n k : Nat) : List Bool := (List.range k).map fun i => n.testBit i

/-- The place of the last base value not above `v`. -/
def symOf (base : List Nat) (v : Nat) : Nat := (base.filter fun b => decide (b ≤ v)).length - 1

def litSym (t : CrucTok) : Nat :=
  match t with
  | .lit b => b.toNat
  | .ref n _ => 257 + symOf lenBase n

def distSyms (t : CrucTok) : List Nat :=
  match t with
  | .lit _ => []
  | .ref _ d => [symOf distBase d]

/-- The first code of length `l` in the canonical code of the lengths. -/
def firstCode (lens : List Nat) (l : Nat) : Nat :=
  match l with
  | 0 => 0
  | l + 1 => 2 * (firstCode lens l + if l = 0 then 0 else lens.count l)

/-- The code of symbol `n`, most significant bit first. -/
def codeBits (lens : List Nat) (n : Nat) : List Bool :=
  let l := lens.getD n 0
  (natBits (firstCode lens l + (lens.take n).count l) l).reverse

/-- A symbol in a pair of codes, with its extra bits. -/
def tokBits (lit dist : List Nat) (t : CrucTok) : List Bool :=
  match t with
  | .lit b => codeBits lit b.toNat
  | .ref n d =>
    let i := symOf lenBase n
    let j := symOf distBase d
    codeBits lit (257 + i) ++ natBits (n - lenBase.getD i 0) (lenExtra.getD i 0)
      ++ codeBits dist j ++ natBits (d - distBase.getD j 0) (distExtra.getD j 0)

/-! ## Code lengths of a dynamic block -/

/-- A package put into a list in order of weight. -/
def insertPkg (p : Nat × List Nat) (l : List (Nat × List Nat)) : List (Nat × List Nat) :=
  match l with
  | [] => [p]
  | q :: r => if p.1 < q.1 then p :: q :: r else q :: insertPkg p r

/-- Neighbours of a list put together into packages. -/
def pairUp (l : List (Nat × List Nat)) : List (Nat × List Nat) :=
  match l with
  | a :: b :: r => (a.1 + b.1, a.2 ++ b.2) :: pairUp r
  | _ => []

/-- The packages after `n` rounds. -/
def pkgRounds (n : Nat) (leaves : List (Nat × List Nat)) : List (Nat × List Nat) :=
  match n with
  | 0 => []
  | n + 1 => leaves.foldl (fun l p => insertPkg p l) (pairUp (pkgRounds n leaves))

/-- Best code lengths of at most `limit` bits for the symbols 0 to `n` − 1 as often as `l`
holds them; at least two symbols get a code. -/
def bestLens (limit n : Nat) (l : List Nat) : List Nat :=
  let used := (List.range n).filter fun i => decide (0 < l.count i)
  let spare := ((List.range n).filter fun i => l.count i == 0).take (2 - used.length)
  let leaves := (used ++ spare).map fun i => (l.count i, [i])
  let picked := ((pkgRounds limit leaves).take (2 * leaves.length - 2)).flatMap fun p => p.2
  (List.range n).map fun i => picked.count i

/-- Code lengths as symbols of the code length code, each with its extra bits. -/
def runLens (fuel : Nat) (l : List Nat) : List (Nat × List Bool) :=
  match fuel, l with
  | f + 1, x :: r =>
    let n := (r.takeWhile fun y => y == x).length
    if x = 0 ∧ 10 ≤ n then (18, natBits (min n 137 - 10) 7) :: runLens f (r.drop (min n 137))
    else if x = 0 ∧ 2 ≤ n then (17, natBits (n - 2) 3) :: runLens f (r.drop n)
    else if x ≠ 0 ∧ 3 ≤ n then (x, []) :: (16, natBits (min n 6 - 3) 2) :: runLens f (r.drop (min n 6))
    else (x, []) :: runLens f r
  | _, _ => []

/-- A list without the zeros at its end, but at least `n` long. -/
def trimLens (n : Nat) (l : List Nat) : List Nat :=
  l.take (max n (l.reverse.dropWhile fun x => x == 0).length)

/-- The header of a dynamic block, behind its three bits, for a pair of codes. -/
def lensHeader (lit dist : List Nat) : List Bool :=
  let lit := trimLens 257 lit
  let dist := trimLens 1 dist
  let rs := runLens (lit.length + dist.length) (lit ++ dist)
  let cl := bestLens 7 19 (rs.map fun r => r.1)
  let order := trimLens 4 (clOrder.map fun i => cl.getD i 0)
  natBits (lit.length - 257) 5 ++ natBits (dist.length - 1) 5 ++ natBits (order.length - 4) 4
    ++ order.flatMap (fun n => natBits n 3) ++ rs.flatMap fun r => codeBits cl r.1 ++ r.2

/-- A decoder that holds nothing. -/
def infEmpty : Inf := ⟨.header, false, false, [], 0, 0, [], 0, [], 0⟩

/-- The pair of codes that a header of free bits gives, if it is a header and codes every
symbol of the block. -/
def freeCodes (head : List Bool) (toks : List CrucTok) : Option (List Nat × List Nat) :=
  match dynHeader infEmpty false head with
  | .go d =>
    match d.mode with
    | .codes lit dist =>
      if d.bits = [] ∧ (toks.all fun t => lit.getD (litSym t) 0 != 0 && (distSyms t).all fun i => dist.getD i 0 != 0) then
        some (lit, dist)
      else none
    | _ => none
  | _ => none

/-- Header and codes of a dynamic block: R368 does not say which; the free header where it
is one for the block, else that of best code lengths.
DESIGN CHOICE, log entry 20. -/
def dynCodes (head : List Bool) (toks : List CrucTok) : List Bool × List Nat × List Nat :=
  match freeCodes head toks with
  | some c => (head, c)
  | none =>
    let lit := bestLens 15 286 (256 :: toks.map litSym)
    let dist := bestLens 15 30 (toks.flatMap distSyms)
    (lensHeader lit dist, lit, dist)

/-! ## Blocks (R368) -/

/-- The symbols of a block and its end. -/
def bodyBits (lit dist : List Nat) (toks : List CrucTok) : List Bool :=
  toks.flatMap (tokBits lit dist) ++ codeBits lit 256

/-- A stored block; `phase` is how many bits of its first byte stand before it. -/
def storedBits (phase : Nat) (final : Bool) (bs : List Byte) : List Bool :=
  [final, false, false] ++ List.replicate ((13 - phase % 8) % 8) false
    ++ natBits bs.length 16 ++ natBits (65535 - bs.length) 16 ++ bitsOf bs

def fixedBits (final : Bool) (toks : List CrucTok) : List Bool :=
  [final, true, false] ++ bodyBits fixedLit fixedDist toks

def dynBits (head : List Bool) (final : Bool) (toks : List CrucTok) : List Bool :=
  let c := dynCodes head toks
  [final, false, true] ++ c.1 ++ bodyBits c.2.1 c.2.2 toks

/-- A block in whichever form is shortest (R368). -/
def blockBits (head : List Bool) (phase : Nat) (final : Bool) (p : CrucPart) : List Bool :=
  let f := fixedBits final p.toks
  let d := dynBits head final p.toks
  let best := if d.length < f.length then d else f
  let st := storedBits phase final p.bytes
  if p.bytes.length ≤ 65535 ∧ st.length ≤ best.length then st else best

/-- The blocks that end, and the partial block that stays: a block ends after 16,384
symbols, and under `close` (R368); `last` sets BFINAL in the last. `heads` gives the free
headers. -/
def blocksOut (fuel : Nat) (heads : Nat → List Bool) (phase : Nat) (close last : Bool) (p : CrucPart) :
    List Bool × CrucPart :=
  match fuel with
  | 0 => ([], p)
  | f + 1 =>
    if p.toks = [] ∨ (p.toks.length < 16384 ∧ close = false) then ([], p)
    else
      let toks := p.toks.take 16384
      let n := (toks.map tokLen).sum
      let b := blockBits (heads f) phase (last && decide (p.toks.length ≤ 16384)) ⟨toks, p.bytes.take n⟩
      let x := blocksOut f heads (phase + b.length) close last ⟨p.toks.drop 16384, p.bytes.drop n⟩
      (b ++ x.1, x.2)

/-- What ends a request: an empty stored block under FLUSH, an empty fixed block under FINAL
where no block went before, and zeros up to a byte under either (R368, R372). With both, the
empty stored block is the last block.
DESIGN CHOICE, log entry 20. -/
def closeBits (held blocks : List Bool) (flush final : Bool) : List Bool :=
  let phase := held.length + blocks.length
  let tail :=
    if flush then storedBits phase final []
    else if final && blocks.isEmpty then fixedBits true []
    else []
  let all := phase + tail.length
  tail ++ (if flush || final then List.replicate ((8 - all % 8) % 8) false else [])

/-- What COMPRESS makes of a text: all bits from the held ones on, and the partial block. -/
def deflateBits (heads : Nat → List Bool) (level window : Nat) (hist : List Byte) (held : List Bool) (p : CrucPart)
    (text : List Byte) (flush final : Bool) : List Bool × CrucPart :=
  let toks := p.toks ++ defToks text.length level window hist text
  let b := blocksOut (toks.length / 16384 + 1) heads held.length (flush || final) (final && ! flush)
    ⟨toks, p.bytes ++ text⟩
  (held ++ b.1 ++ closeBits held b.1 flush final, b.2)

/-- Whole bytes owed for held bits and a partial block, the block counted in its shortest
form (R371).
DESIGN CHOICE, log entry 20. -/
def owedBytes (head : List Bool) (held : List Bool) (p : CrucPart) : Nat :=
  (held.length + if p.toks = [] then 0 else (blockBits head held.length false p).length) / 8

end Sys2Proof.Machine
end

