-- ==== Sys2Proof/Machine/Dictionary.lean ====
section
/-! DEFINITION. The dictionary of V.42bis, which R371 follows: codewords, string matching,
growth of the dictionary and recovery of its entries.
PRESUMED, log entry 173. -/

namespace Sys2Proof.Machine

/-- An entry of the dictionary: its parent, its character and the length of its string, 0 in
a free entry. -/
structure V42Node where
  parent : Nat
  char : Nat
  depth : Nat
  deriving DecidableEq, Repr

/-- The state of one V.42bis direction: codewords (P1) and greatest string length (P2), the
next entry to make, the codeword size and the threshold at which it grows, the string
matched so far, the string that awaits its next character, the entry made last, bits held,
decoded bytes still due, and the entries. -/
structure V42 where
  words : Nat
  longest : Nat
  c1 : Nat
  c2 : Nat
  c3 : Nat
  str : Nat
  prev : Nat
  new : Nat
  held : List Bool
  pend : List Byte
  nodes : List V42Node
  deriving DecidableEq, Repr

/-- The first codeword of an entry: 3 control codewords and 256 characters stand before it. -/
def v42First : Nat := 259

def v42Node (v : V42) (i : Nat) : V42Node :=
  if 3 ≤ i ∧ i < v42First then ⟨0, i - 3, 1⟩ else v.nodes.getD i ⟨0, 0, 0⟩

/-- The entry for a string and one more character. -/
def v42Child (v : V42) (str ch : Nat) : Option Nat :=
  (List.range v.words).find? fun i =>
    let n := v42Node v i
    decide (v42First ≤ i) && n.depth != 0 && n.parent == str && n.char == ch

/-- Whether no entry continues entry `i`. -/
def v42Leaf (v : V42) (i : Nat) : Bool := v.nodes.all fun n => n.depth == 0 || n.parent != i

/-- The next entry to make: a free one, or a leaf given up, at most `n` tried. -/
def v42Recover (n : Nat) (v : V42) : V42 :=
  match n with
  | 0 => v
  | n + 1 =>
    let i := if v.words ≤ v.c1 + 1 then v42First else v.c1 + 1
    let v1 := { v with c1 := i }
    if (v42Node v i).depth = 0 then v1
    else if v42Leaf v i then { v1 with nodes := v.nodes.set i ⟨0, 0, 0⟩ }
    else v42Recover n v1

/-- A string and one more character entered, unless it stands there or is too long. -/
def v42Enter (v : V42) (str ch : Nat) : V42 :=
  let d := (v42Node v str).depth
  if str = 0 ∨ d = 0 ∨ v.longest ≤ d ∨ (v42Child v str ch).isSome then { v with new := 0 }
  else v42Recover v.words { v with nodes := v.nodes.set v.c1 ⟨str, ch, d + 1⟩, new := v.c1 }

/-- The greatest codeword size. -/
def v42Bits (v : V42) : Nat := (v.words - 1).log2 + 1

/-- A codeword put out, behind as many STEPUPs (2) as its size asks for. -/
def v42Emit (n : Nat) (v : V42) (cw : Nat) : V42 :=
  let bits := fun x => (List.range v.c2).map fun i => Nat.testBit x i
  match n with
  | 0 => { v with held := v.held ++ bits cw }
  | n + 1 =>
    if v.c3 ≤ cw ∧ v.c2 < v42Bits v then
      v42Emit n { v with held := v.held ++ bits 2, c2 := v.c2 + 1, c3 := 2 * v.c3 } cw
    else { v with held := v.held ++ bits cw }

/-- One character matched: the string goes on, or it is put out when `say`, entered with the
character, and begun again with it. -/
def v42Char (say : Bool) (v : V42) (b : Byte) : V42 :=
  let ch := b.toNat
  if v.str = 0 then { v42Enter v v.prev ch with str := ch + 3, prev := 0 }
  else
    match (v42Child v v.str ch).filter fun e => e != v.new with
    | some e => { v with str := e }
    | none =>
      let v1 := if say then v42Emit v.c2 v v.str else v
      { v42Enter v1 v.str ch with str := ch + 3 }

/-- The string in progress put out, and FLUSH (1) and zeros up to a byte where the bits do not
end at one. -/
def v42Flush (v : V42) : V42 :=
  let v1 := if v.str = 0 then v else { v42Emit v.c2 v v.str with prev := v.str, str := 0 }
  if v1.held.length % 8 = 0 then v1
  else
    let v2 := v42Emit 0 v1 1
    { v2 with held := v2.held ++ List.replicate ((8 - v2.held.length % 8) % 8) false }

/-- Bytes compressed. -/
def v42Compress (v : V42) (bs : List Byte) (flush : Bool) : V42 :=
  let v1 := bs.foldl (v42Char true) v
  if flush then v42Flush v1 else v1

/-- Bytes of transparent operation learnt: nothing is put out, and the string in progress ends
with them. -/
def v42Learn (v : V42) (bs : List Byte) : V42 :=
  let v1 := bs.foldl (v42Char false) { v with held := [], pend := [] }
  if v1.str = 0 then v1 else { v1 with prev := v1.str, str := 0 }

/-- The string of entry `i`, its last character first. -/
def v42String (n : Nat) (v : V42) (i : Nat) : List Byte :=
  match n with
  | 0 => []
  | n + 1 => let d := v42Node v i; BitVec.ofNat 8 d.char :: (if d.depth ≤ 1 then [] else v42String n v d.parent)

/-- What a codeword received comes to: the state, or a cause of R374. -/
def v42Word (v : V42) (cw : Nat) : V42 ⊕ Nat :=
  let d := (v42Node v cw).depth
  if cw = 1 then .inl { v with held := v.held.drop (v.held.length % 8) }
  else if cw = 2 then
    (if v.c2 < v42Bits v then .inl { v with c2 := v.c2 + 1, c3 := 2 * v.c3 } else .inr 6)
  else if v.words ≤ cw ∨ cw = v.c1 ∨ d = 0 then .inr 6
  else if v.longest < d then .inr 7
  else
    let bs := (v42String d v cw).reverse
    .inl { v42Enter v v.prev (bs.headD 0).toNat with prev := cw, pend := bs }

/-- Codewords decoded from the held bits into the room left, with fuel; with `strict` not
beyond an output that is full. The bytes put out come newest first. -/
def v42Run (fuel : Nat) (strict : Bool) (v : V42) (room : Nat) (out : List Byte) : (V42 × Nat × List Byte) ⊕ Nat :=
  match fuel with
  | 0 => .inl (v, room, out)
  | f + 1 =>
    if room = 0 ∧ (strict ∨ v.pend ≠ []) then .inl (v, room, out)
    else
      match v.pend with
      | b :: r => v42Run f strict { v with pend := r } (room - 1) (b :: out)
      | [] =>
        if v.held.length < v.c2 then .inl (v, room, out)
        else
          match v42Word { v with held := v.held.drop v.c2 } (bitsNat v.held v.c2) with
          | .inr e => .inr e
          | .inl v1 => v42Run f strict v1 room out

/-! ## A dictionary between requests -/

/-- The 2,048 entries of 4 bytes (R364): parent, character, length. -/
def v42Area (v : V42) : List Byte :=
  (List.range 2048).flatMap fun i =>
    let n := v.nodes.getD i ⟨0, 0, 0⟩
    leBytes 2 n.parent ++ leBytes 1 n.char ++ leBytes 1 n.depth

/-- The ENGINE area of a dictionary stream, in a layout of the model's own.
DEDUCED, log entry 73. -/
def v42Save (v : V42) : List Byte :=
  leBytes 2 v.c1 ++ leBytes 1 v.c2 ++ leBytes 1 v.held.length ++ leBytes 2 v.c3 ++ leBytes 2 v.str ++ leBytes 2 v.prev
    ++ leBytes 2 v.new ++ padTo 4 (packBits v.held) ++ leBytes 1 v.pend.length ++ v.pend

/-- The direction that a context holds: its ENGINE area and its entries; a context fresh from
INIT or RESET holds none.
DEDUCED, log entry 73. -/
def v42Load (words longest : Nat) (fresh : Bool) (e area : List Byte) : V42 :=
  let old := ! fresh && leAt e 0 2 != 0
  { words := words
    longest := longest
    c1 := if old then leAt e 0 2 else v42First
    c2 := if old then byteAt e 2 else 9
    c3 := if old then leAt e 4 2 else 512
    str := if old then leAt e 6 2 else 0
    prev := if old then leAt e 8 2 else 0
    new := if old then leAt e 10 2 else 0
    held := if old then (bitsOf ((e.drop 12).take 4)).take (byteAt e 3) else []
    pend := if old then (e.drop 17).take (byteAt e 16) else []
    nodes := (List.range words).map fun i =>
      if old then ⟨leAt area (4 * i) 2, byteAt area (4 * i + 2), byteAt area (4 * i + 3)⟩ else ⟨0, 0, 0⟩ }

end Sys2Proof.Machine
end

