-- ==== Sys2Proof/Machine/Crucible.lean ====
section
/-! DEFINITION. The crucible compression engine (12_crucible.md): contexts (R363, R364),
requests (R365–R374), queues and completions (R362, R375, R378). -/

namespace Sys2Proof.Machine

def crucSrc : Nat := 0x0E

/-! ## Contexts -/

/-- The header fields of a context (R364). -/
structure CrucCtx where
  magic : Nat
  owner : Nat
  kind : Nat
  level : Nat
  wbits : Nat
  sflags : Nat
  totin : Nat
  totout : Nat
  crc : BitVec 32
  p1 : Nat
  p2 : Nat
  p3 : Nat
  wfill : Nat
  deriving DecidableEq, Repr

/-- The header read from the bytes of a context. -/
def ctxOf (b : List Byte) : CrucCtx where
  magic := leAt b 0 2
  owner := leAt b 2 2
  kind := byteAt b 4
  level := byteAt b 5
  wbits := byteAt b 6
  sflags := byteAt b 7
  totin := leAt b 8 8
  totout := leAt b 16 8
  crc := BitVec.ofNat 32 (leAt b 24 4)
  p1 := leAt b 28 2
  p2 := byteAt b 30
  p3 := byteAt b 31
  wfill := leAt b 32 4

/-- The 64 header bytes of a context. -/
def ctxBytes (c : CrucCtx) : List Byte :=
  leBytes 2 c.magic ++ leBytes 2 c.owner ++ leBytes 1 c.kind ++ leBytes 1 c.level ++ leBytes 1 c.wbits
    ++ leBytes 1 c.sflags ++ leBytes 8 c.totin ++ leBytes 8 c.totout ++ leBytes 4 c.crc.toNat
    ++ leBytes 2 c.p1 ++ leBytes 1 c.p2 ++ leBytes 1 c.p3 ++ leBytes 4 c.wfill ++ zeros 28

/-- Bytes of a context (R363). -/
def ctxSize (kind wbits : Nat) : Nat :=
  if kind = 1 ∨ kind = 2 then 4096 + max 4096 (2 ^ wbits) else 20480

/-- History a context can hold. -/
def ctxWindow (c : CrucCtx) : Nat := if c.kind ≤ 2 then 2 ^ c.wbits else c.p3 * 512

/-- Whether KIND and its parameters are valid (R367). -/
def ctxParamsOk (c : CrucCtx) : Bool :=
  match c.kind with
  | 1 => decide (1 ≤ c.level) && decide (c.level ≤ 9) && decide (9 ≤ c.wbits) && decide (c.wbits ≤ 15)
      && c.p1 == 0 && c.p2 == 0 && c.p3 == 0
  | 2 => c.level == 0 && decide (9 ≤ c.wbits) && decide (c.wbits ≤ 15) && c.p1 == 0 && c.p2 == 0 && c.p3 == 0
  | 3 | 4 => c.level == 0 && c.wbits == 0 && decide (256 ≤ c.p1) && decide (c.p1 ≤ 2048) && decide (32 ≤ c.p2)
      && decide (c.p2 ≤ 255) && decide (1 ≤ c.p3) && decide (c.p3 ≤ 16)
  | 5 | 6 => c.level == 0 && c.wbits == 0 && decide (512 ≤ c.p1) && decide (c.p1 ≤ 2048) && decide (6 ≤ c.p2)
      && decide (c.p2 ≤ 250) && c.p3 == 0
  | _ => false

/-- An area that may serve: inside heartwood and outside the given regions of R28. -/
def areaOk (s : State) (cells : Bool) (a n : Nat) : Bool :=
  let apart := fun (b size : Nat) => decide (a + n ≤ b) || decide (b + size ≤ a)
  inHeartwood a n && apart (ecAddr s 0) (ecCount s * 4096) && apart (chanAddr s 0) (chanCount s * 4096)
    && (! cells || apart (cellRegion s) (cellCount s * 128))

/-- Two areas do not overlap. -/
def disjoint (a n b m : Nat) : Bool := decide (n = 0) || decide (m = 0) || decide (a + n ≤ b) || decide (b + m ≤ a)

/-- The history of a context newest first: byte number `k` since the reset lies at `k` mod
2^WBITS of the ring. -/
def ctxHist (s : State) (a : Nat) (c : CrucCtx) (total n : Nat) : List Byte :=
  match n with
  | 0 => []
  | n + 1 =>
    if total = 0 then []
    else memByte s (a + 4096 + (total - 1) % 2 ^ c.wbits) :: ctxHist s a c (total - 1) n

/-- Bytes put into a ring of `size` bytes at `a` from byte number `total` on. -/
def ringWrite (s : State) (a size total : Nat) (bs : List Byte) : State :=
  match bs with
  | [] => s
  | b :: r => ringWrite (memWrite s (a + total % size) [b]) a size (total + 1) r

/-- The header and ENGINE area of a context written. -/
def putCtx (s : State) (a : Nat) (c : CrucCtx) (engine : List Byte) : State :=
  memWrite s a (ctxBytes c ++ padTo 4032 engine)

/-- ENGINE of a context.
DEDUCED, log entry 73. -/
def ctxEngine (s : State) (a : Nat) : List Byte := memBytes s (a + 64) 4032

/-- A context as RESET leaves it (R368). -/
def ctxFresh (c : CrucCtx) : CrucCtx := { c with sflags := 0, totin := 0, totout := 0, crc := 0, wfill := 0 }

/-! ## Requests -/

def reqCode (r : CrucReq) : Nat := fld r.w0 7 0
def reqFlag (r : CrucReq) (i : Nat) : Bool := bitOf r.w0 i
def reqChan (r : CrucReq) : Nat := fld r.w0 31 16

/-- Outcome of a request: its code, INFO and the state it leaves. -/
structure CrucEnd where
  code : Nat
  info : Nat
  s : State
  deriving DecidableEq, Repr

/-- A refusal that writes nothing (R373). -/
def crucNo (s : State) (code : Nat) : CrucEnd := ⟨code, 0, s⟩

/-- A draw of free bytes and of a free number.
DESIGN CHOICE, log entry 20. -/
def drawBytes (s : State) : List Byte × Nat × State :=
  (Config.crucBytes s.free, Config.crucNum s.free, { s with free := s.free + 1 })

/-- The results in a request descriptor (R365). -/
def putResults (s : State) (d used made : Nat) (crc : BitVec 32) (code info : Nat) : State :=
  memWrite s (d + 16)
    (leBytes 4 used ++ leBytes 4 made ++ leBytes 4 crc.toNat ++ leBytes 4 (completionValue code crucSrc info).toNat)

/-- A context or descriptor or input with uncorrectable data (R373): `a` the context,
`d` the descriptor, `bad` the failing word.
DEDUCED, log entry 72. -/
def crucEcc (s : State) (r : CrucReq) (d a bad : Nat) : CrucEnd :=
  let c := ctxOf (memBytes s a 64)
  let s1 := memWrite s a (ctxBytes { c with magic := 0 } |>.take 8)
  let s2 := bump s1 offCrucRecerr
  let s3 := raise s2 crucSrc 1 (if c.owner < 16384 then c.owner else 0xFFFF) r.queue
    (leBytes 4 a ++ leBytes 1 (reqCode r) ++ zeros 3 ++ leBytes 4 bad)
  ⟨8, 0, if d = 0 then s3 else putResults s3 d 0 0 c.crc 8 0⟩

/-- The first uncorrectable word among `n` bytes at `a`. -/
def firstPoison (s : State) (a n : Nat) : Option Nat :=
  match n with
  | 0 => none
  | n + 1 => if isPoison s a then some (protWord a) else firstPoison s (a + 1) n

/-- Flags of W0 that a command allows (R367). -/
def flagsOk (r : CrucReq) : Bool :=
  match reqCode r with
  | 1 => fld r.w0 15 12 == 0
  | 2 => fld r.w0 9 8 == 0 && ! reqFlag r 11 && fld r.w0 15 13 == 0
  | _ => fld r.w0 15 8 == 0

/-- INFO of a request on a context that ends with code 0x00 (R374): TRANSP. -/
def transpInfo (c : CrucCtx) : Nat := boolBit (c.sflags.testBit 1) 3

/-- The data request of the descriptor at W2 (R365, R367). -/
def dataOf (s : State) (r : CrucReq) : CrucData :=
  let d := r.w2.toNat
  r.desc.getD ⟨d, memNat s d 4, memNat s (d + 4) 4, memNat s (d + 8) 4, memNat s (d + 12) 4⟩

/-- Whether the areas of a data request break R363 or R365. -/
def areasBad (s : State) (x : CrucData) (a size : Nat) : Bool :=
  decide (16384 < x.len) || decide (16384 < x.cap)
    || ! areaOk s false x.src x.len || ! areaOk s false x.dst x.cap || ! areaOk s true a size
    || ! disjoint x.src x.len x.dst x.cap || ! disjoint x.src x.len x.d 32 || ! disjoint x.src x.len a size
    || ! disjoint x.dst x.cap x.d 32 || ! disjoint x.dst x.cap a size || ! disjoint x.d 32 a size

/-- Counts of a data request. -/
def crucCount (s : State) (used made : Nat) : State := cntAdd (cntAdd s offCrucInb used) offCrucOutb made

/-- A data request that ended with results.
DEDUCED, log entry 72. -/
def dataEnd (s : State) (x : CrucData) (used made : Nat) (crc : BitVec 32) (code info : Nat) : CrucEnd :=
  ⟨code, info, crucCount (putResults s x.d used made crc code info) used made⟩

/-- What bytes of a stream make of a context's history. -/
def crucFill (c : CrucCtx) (n : Nat) : Nat := min (ctxWindow c) (c.wfill + n)

/-- A symbol of a partial block in three bytes: a byte above zeros, or a length below a
distance. -/
def tokBytes (t : CrucTok) : List Byte :=
  match t with
  | .lit b => leBytes 3 (512 * b.toNat)
  | .ref n d => leBytes 3 (n + 512 * (d - 1))

/-- The symbol of three bytes. -/
def tokOfNat (n : Nat) : CrucTok := if n % 512 = 0 then .lit (BitVec.ofNat 8 (n / 512)) else .ref (n % 512) (n / 512 + 1)

/-- A partial block as ENGINE holds it (R364): the counts of its symbols and bytes, then both. -/
def crucPartBytes (p : CrucPart) : List Byte :=
  leBytes 2 p.toks.length ++ leBytes 4 p.bytes.length ++ p.toks.flatMap tokBytes ++ p.bytes

/-- The partial block of bytes as `crucPartBytes` lays them. -/
def crucPartOf (e : List Byte) : CrucPart :=
  let n := leAt e 0 2
  ⟨(List.range n).map fun i => tokOfNat (leAt e (6 + 3 * i) 3), (e.drop (6 + 3 * n)).take (leAt e 2 4)⟩

/-- What ENGINE of a KIND 1 context holds: bits not yet put out, and the partial block (R364),
itself or, where it is too long for ENGINE, by its number.
DEDUCED, log entry 73; DESIGN CHOICE, log entry 172. -/
def defLoad (s : State) (e : List Byte) : List Bool × CrucPart :=
  ((bitsOf ((e.drop 1).take 1)).take (byteAt e 0),
   if leAt e 2 8 = 0 then crucPartOf (e.drop 10) else s.cruc.parts.getD (leAt e 2 8 - 1) ⟨[], []⟩)

/-- A partial block kept, and the ENGINE that holds or names it.
DEDUCED, log entry 73; DESIGN CHOICE, log entry 172. -/
def defSave (s : State) (held : List Bool) (p : CrucPart) : State × List Byte :=
  let e := leBytes 1 held.length ++ padTo 1 (packBits held)
  let b := crucPartBytes p
  if b.length ≤ 4022 then (s, e ++ zeros 8 ++ b)
  else
    ({ s with cruc := { s.cruc with parts := s.cruc.parts ++ [p] } }, e ++ leBytes 8 (s.cruc.parts.length + 1))

/-- A KIND 1 stream after a text: what comes out, the whole bytes still owed, the context and
the state with it written. -/
structure DefEnd where
  out : List Byte
  owed : Nat
  c : CrucCtx
  s : State
  deriving DecidableEq, Repr

/-- COMPRESS of a text on the KIND 1 context at `a`, whose header is `c` (R368). -/
def defRun (s : State) (a : Nat) (c : CrucCtx) (engine text : List Byte) (flush final : Bool) : DefEnd :=
  let e := defLoad s engine
  let x := deflateBits (Config.crucHead s.free) c.level (2 ^ c.wbits) (ctxHist s a c c.totin c.wfill) e.1 e.2 text
    flush final
  let held := x.1.drop (8 * (x.1.length / 8))
  let out := packBits (x.1.take (8 * (x.1.length / 8)))
  let c1 := { c with
    sflags := if final then 1 else 0
    totin := c.totin + text.length
    totout := c.totout + out.length
    crc := crc32More c.crc text
    wfill := crucFill c text.length }
  let k := defSave { s with free := s.free + 1 } held x.2
  { out := out
    owed := owedBytes (Config.crucHead s.free 0) held x.2
    c := c1
    s := putCtx (ringWrite k.1 (a + 4096) (2 ^ c.wbits) c.totin text) a c1 k.2 }

/-- What a request that fails leaves in its destination, which the spec leaves open.
DESIGN CHOICE, log entry 20. -/
def dstFree (s : State) (x : CrucData) : State := let d := drawBytes s; memWrite d.2.2 x.dst (d.1.take x.cap)

/-- COMPRESS on a KIND 1 context (R368, R371, R372). -/
def deflate (s : State) (r : CrucReq) (x : CrucData) (a : Nat) (c0 : CrucCtx) : CrucEnd :=
  let flush := reqFlag r 8
  let final := reqFlag r 9
  let c := if reqFlag r 10 then ctxFresh c0 else c0
  let e := defRun s a c (if reqFlag r 10 then [] else ctxEngine s a) (memBytes s x.src x.len) flush final
  if x.len ≠ 0 ∧ reqFlag r 11 = false ∧ x.len ≤ e.out.length + e.owed then dataEnd (dstFree s x) x 0 0 c0.crc 5 0
  else if x.cap < e.out.length then dataEnd (dstFree s x) x 0 0 c0.crc 6 0
  else
    dataEnd (memWrite e.s x.dst e.out) x x.len e.out.length e.c.crc 0 (boolBit final 0 + boolBit flush 2)

/-- DECOMPRESS on a KIND 2 context (R370, R372). -/
def inflate (s : State) (r : CrucReq) (x : CrucData) (a : Nat) (c0 : CrucCtx) : CrucEnd :=
  let reset := reqFlag r 10
  let c := if reset then ctxFresh c0 else c0
  let engine := if reset then [] else ctxEngine s a
  if x.len = 0 then dataEnd (putCtx s a c engine) x 0 0 c.crc 0 0
  else
    let d0 := infLoad engine (ctxHist s a c c.totout c.wfill) (2 ^ c.wbits) x.cap (memBytes s x.src x.len)
    match infRun (infFuel d0) (decide (x.cap ≠ 0)) d0 with
    | .inr cause => let num := drawBytes s; dataEnd (dstFree num.2.2 x) x (num.2.1 % (x.len + 1)) 0 c0.crc 7 cause
    | .inl d =>
      let out := d.out.reverse
      let due := decide (d.room = 0) && ! d.ended && infDue d
      let stops := d.ended || (decide (d.room = 0) && (decide (x.cap ≠ 0) || due))
      let back := if stops then min (d.bits.length / 8) x.len else 0
      let used := x.len - back
      let more := decide (d.room = 0) && ! d.ended && (decide (0 < back) || due)
      let d1 := { d with bits := if d.ended then [] else d.bits.take (d.bits.length - 8 * back) }
      let c1 := { c with
        sflags := if d.ended then 1 else 0
        totin := c.totin + used
        totout := c.totout + out.length
        crc := crc32More c.crc out
        wfill := crucFill c out.length }
      let s1 := memWrite (ringWrite s (a + 4096) (2 ^ c.wbits) c.totout out) x.dst out
      dataEnd (putCtx s1 a c1 (infSave d1)) x used out.length c1.crc 0 (boolBit d.ended 0 + boolBit more 1)

/-! ### Dictionary streams (R371) -/

/-- A dictionary stream after bytes: what comes out, newest first where it was decoded, the
whole bytes owed, and its ENGINE and dictionary areas. -/
structure DictEnd where
  out : List Byte
  owed : Nat
  engine : List Byte
  dict : List Byte
  s : State
  deriving DecidableEq, Repr

/-- A dictionary stream as V.42bis leaves it. -/
def v42End (s : State) (out : List Byte) (v : V42) : DictEnd := ⟨out, 0, v42Save v, v42Area v, s⟩

/-- A dictionary stream as V.44 leaves it: bytes put out, held bits, ENGINE and dictionary are
free.
DESIGN CHOICE, log entry 20. -/
def v44End (s : State) : DictEnd :=
  let d1 := drawBytes s
  let d2 := drawBytes d1.2.2
  ⟨d1.1, d1.2.1, d2.1, padTo 8192 d2.1, d2.2.2⟩

/-- A context holds a V.42bis stream. -/
def isV42 (c : CrucCtx) : Bool := decide (5 ≤ c.kind)

/-- The V.42bis direction of a context. -/
def ctxV42 (s : State) (a : Nat) (c : CrucCtx) (reset : Bool) : V42 :=
  v42Load c.p1 c.p2 reset (ctxEngine s a) (memBytes s (a + 4096) 8192)

/-- Bytes compressed. -/
def dictEncode (s : State) (a : Nat) (c : CrucCtx) (reset : Bool) (bs : List Byte) (flush : Bool) : DictEnd :=
  if isV42 c then
    let v := v42Compress (ctxV42 s a c reset) bs flush
    let n := 8 * (v.held.length / 8)
    v42End s (packBits (v.held.take n)) { v with held := v.held.drop n }
  else if bs = [] ∧ flush = false then { v44End s with out := [] }
  else v44End s

/-- Bytes of transparent operation added to dictionary and history (R371). -/
def dictLearn (s : State) (a : Nat) (c : CrucCtx) (reset : Bool) (bs : List Byte) : DictEnd :=
  if isV42 c then v42End s [] (v42Learn (ctxV42 s a c reset) bs) else v44End s

/-- The stream's bytes in the V.44 history, a ring of P3 × 512 bytes (R364). -/
def dictHistory (s : State) (a : Nat) (c : CrucCtx) (total : Nat) (bs : List Byte) : State :=
  if c.p3 = 0 then s else ringWrite s (a + 0x3000) (c.p3 * 512) total bs

/-- The context of a dictionary stream written: header, ENGINE, dictionary, and the stream's
bytes in its history. -/
def putDict (s : State) (a : Nat) (c : CrucCtx) (e : DictEnd) (total : Nat) (bs : List Byte) : State :=
  dictHistory (memWrite (putCtx s a c e.engine) (a + 4096) (padTo 8192 e.dict)) a c total bs

/-- COMPRESS on a KIND 3 or 5 context (R371). -/
def dictCompress (s : State) (r : CrucReq) (x : CrucData) (a : Nat) (c0 : CrucCtx) : CrucEnd :=
  let reset := reqFlag r 10
  let c := if reset then ctxFresh c0 else c0
  let text := memBytes s x.src x.len
  let e := dictEncode s a c reset text (reqFlag r 8 || reqFlag r 9)
  let grows := decide (x.len ≠ 0) && decide (x.len ≤ e.out.length + e.owed)
  let fails := grows && ! reqFlag r 11
  let full := ! fails && decide (x.cap < e.out.length)
  let e1 := if fails then dictLearn s a c reset text else e
  let made := if fails then 0 else min x.cap e.out.length
  let c1 := { c with
    sflags := if fails then 2 else if x.len = 0 ∨ full ∨ grows then c.sflags else 0
    totin := c.totin + x.len
    totout := c.totout + made
    crc := crc32More c.crc text
    wfill := crucFill c x.len }
  let s1 := memWrite (putDict e1.s a c1 e1 c.totin text) x.dst (e.out.take made)
  let code := if fails then 5 else if full then 6 else 0
  dataEnd s1 x x.len made c1.crc code
    (if code = 0 then boolBit (reqFlag r 8) 2 + boolBit (c1.sflags.testBit 1) 3 else 0)

/-- Bytes decompressed into room for `cap`: the stream with its output oldest first, bytes used
and MORE, or a cause. What V.44 makes of them is free.
DESIGN CHOICE, log entry 20. -/
def dictDecode (s : State) (a : Nat) (c : CrucCtx) (reset : Bool) (bs : List Byte) (cap : Nat) :
    (DictEnd × Nat × Bool) ⊕ Nat :=
  if isV42 c then
    let v := ctxV42 s a c reset
    let v0 := { v with held := v.held ++ bitsOf bs }
    let fuel := fun (v : V42) => v.held.length + v.pend.length + 257 * cap + 600
    match v42Run (fuel v0) (decide (cap ≠ 0)) v0 cap [] with
    | .inr e => .inr e
    | .inl (v1, room, out) =>
      let due := decide (room = 0) && (match v42Run (fuel v1) true v1 1 [] with
        | .inl (_, _, o) => ! o.isEmpty
        | .inr _ => false)
      let back := if room = 0 ∧ (cap ≠ 0 ∨ due) then min (v1.held.length / 8) bs.length else 0
      .inl (v42End s out.reverse { v1 with held := v1.held.take (v1.held.length - 8 * back) }, bs.length - back,
        decide (room = 0) && (decide (0 < back) || due))
  else
    let e := v44End s
    let n := drawBytes e.s
    if n.2.1 % 3 = 0 then
      let full := decide (cap < e.out.length)
      .inl ({ e with out := e.out.take cap, s := n.2.2 }, if full then e.owed % (bs.length + 1) else bs.length, full)
    else .inr (5 + n.2.1 % 3)

/-- DECOMPRESS on a KIND 4 or 6 context (R370, R371): with TRANSP the bytes pass as they are. -/
def dictDecompress (s : State) (r : CrucReq) (x : CrucData) (a : Nat) (c0 : CrucCtx) : CrucEnd :=
  let reset := reqFlag r 10
  let transp := reqFlag r 12
  let c := if reset then ctxFresh c0 else c0
  let bs := memBytes s x.src x.len
  let ends : (DictEnd × Nat × Bool) ⊕ Nat :=
    if transp then
      let t := bs.take x.cap
      .inl ({ dictLearn s a c reset t with out := t }, t.length, decide (x.cap < x.len))
    else dictDecode s a c reset bs x.cap
  if x.len = 0 then
    dataEnd (if reset then memWrite s a (ctxBytes c ++ zeros 4032) else s) x 0 0 c.crc 0 (transpInfo c)
  else
    match ends with
    | .inr cause =>
      let n := drawBytes { s with free := s.free + 3 }
      dataEnd (dstFree n.2.2 x) x (n.2.1 % (x.len + 1)) 0 c0.crc 7 cause
    | .inl (e, used, more) =>
      let c1 := { c with
        sflags := if transp then 2 else 0
        totin := c.totin + used
        totout := c.totout + e.out.length
        crc := crc32More c.crc e.out
        wfill := crucFill c e.out.length }
      dataEnd (memWrite (putDict e.s a c1 e c.totout e.out) x.dst e.out) x used e.out.length c1.crc 0
        (boolBit more 1 + boolBit transp 3)

/-- A data request whose context and areas are good. -/
def dataRun (s : State) (r : CrucReq) (x : CrucData) (a : Nat) (c : CrucCtx) : CrucEnd :=
  match c.kind with
  | 1 => deflate s r x a c
  | 2 => inflate s r x a c
  | 3 | 5 => dictCompress s r x a c
  | _ => dictDecompress s r x a c

/-- Whether a context's KIND serves a data command. -/
def kindServes (code kind : Nat) : Bool :=
  if code = 1 then kind == 1 || kind == 3 || kind == 5 else kind == 2 || kind == 4 || kind == 6

/-- Whether the word that holds a context's MAGIC can be read and does not hold it: code 0x03,
whatever else cannot be read (R373). -/
def magicGone (s : State) (a : Nat) : Bool := (firstPoison s a 8).isNone && memNat s a 2 != 0x4352

/-- COMPRESS or DECOMPRESS (R365–R373).
DEDUCED, log entry 67. -/
def dataRequest (s : State) (r : CrucReq) : CrucEnd :=
  let a := r.w3.toNat
  let x := dataOf s r
  if flagsOk r = false then crucNo s 1
  else if a % 4096 ≠ 0 ∨ areaOk s true a 8192 = false ∨ x.d % 8 ≠ 0 ∨ areaOk s false x.d 32 = false then crucNo s 2
  else if magicGone s a then crucNo s 3
  else
    match firstPoison s a 64, firstPoison s x.d 32 with
    | some w, _ => crucEcc s r x.d a w
    | none, some w => crucEcc s r x.d a w
    | none, none =>
      let c := ctxOf (memBytes s a 64)
      let size := ctxSize c.kind c.wbits
      if c.magic ≠ 0x4352 ∨ ctxParamsOk c = false ∨ kindServes (reqCode r) c.kind = false then crucNo s 3
      else if areasBad s x a size then crucNo s 2
      else if reqChan r ≠ c.owner then crucNo s 4
      else
        match firstPoison s a size, firstPoison s x.src x.len with
        | some w, _ => crucEcc s r x.d a w
        | none, some w => crucEcc s r x.d a w
        | none, none =>
          if c.sflags.testBit 0 ∧ reqFlag r 10 = false then crucNo s 9 else dataRun s r x a c

/-- The header that INIT writes (R367). -/
def initCtx (r : CrucReq) : CrucCtx :=
  let k := fld r.w2 2 0
  let def_ := decide (k = 1 ∨ k = 2)
  { magic := 0x4352
    owner := reqChan r
    kind := k
    level := if def_ then fld r.w2 6 3 else 0
    wbits := if def_ then fld r.w2 10 7 else 0
    sflags := 0
    totin := 0
    totout := 0
    crc := 0
    p1 := if def_ then 0 else fld r.w2 14 3
    p2 := if def_ then 0 else fld r.w2 22 15
    p3 := if def_ then 0 else fld r.w2 27 23
    wfill := 0 }

/-- INIT (R367). -/
def crucInit (s : State) (r : CrucReq) : CrucEnd :=
  let c := initCtx r
  let a := r.w3.toNat
  let spare := if c.kind ≤ 2 then fld r.w2 31 11 else fld r.w2 31 28
  if flagsOk r = false ∨ spare ≠ 0 then crucNo s 1
  else if a % 4096 ≠ 0 then crucNo s 2
  else if ctxParamsOk c = false then crucNo s 0x0A
  else if areaOk s true a (ctxSize c.kind c.wbits) = false then crucNo s 2
  else ⟨0, 0, memWrite s a (ctxBytes c ++ zeros (ctxSize c.kind c.wbits - 64))⟩

/-- SAVE (R367). -/
def crucSave (s : State) (r : CrucReq) : CrucEnd :=
  let a := r.w3.toNat
  let d := r.w2.toNat
  if flagsOk r = false then crucNo s 1
  else if a % 4096 ≠ 0 ∨ areaOk s true a 8192 = false ∨ d % 4096 ≠ 0 then crucNo s 2
  else if magicGone s a then crucNo s 3
  else
    match firstPoison s a 64 with
    | some w => crucEcc s r 0 a w
    | none =>
      let c := ctxOf (memBytes s a 64)
      let size := ctxSize c.kind c.wbits
      if c.magic ≠ 0x4352 ∨ ctxParamsOk c = false then crucNo s 3
      else if areaOk s true a size = false ∨ areaOk s false d size = false ∨ disjoint a size d size = false then
        crucNo s 2
      else if reqChan r ≠ c.owner then crucNo s 4
      else
        match firstPoison s a size with
        | some w => crucEcc s r 0 a w
        | none => ⟨0, transpInfo c, memWrite s d (memBytes s a size)⟩

/-- RESTORE (R367). -/
def crucRestore (s : State) (r : CrucReq) : CrucEnd :=
  let a := r.w3.toNat
  let d := r.w2.toNat
  if flagsOk r = false then crucNo s 1
  else if a % 4096 ≠ 0 ∨ areaOk s true a 8192 = false ∨ d % 4096 ≠ 0 ∨ areaOk s false d 8192 = false then crucNo s 2
  else
    match firstPoison s d 64 with
    | some w => crucEcc s r 0 a w
    | none =>
      let c := ctxOf (memBytes s d 64)
      let size := ctxSize c.kind c.wbits
      if c.magic ≠ 0x4352 ∨ ctxParamsOk c = false ∨ ctxWindow c < c.wfill then crucNo s 0x0A
      else if reqChan r ≠ c.owner then crucNo s 4
      else if areaOk s true a size = false ∨ areaOk s false d size = false ∨ disjoint a size d size = false then
        crucNo s 2
      else
        match firstPoison s d size with
        | some w => crucEcc s r 0 a w
        | none => ⟨0, transpInfo c, memWrite s a (memBytes s d size)⟩

/-- A chunk of an append from the storage queue (R424): COMPRESS with RESET and FINAL on the
KIND 1 context at W3, from the source that its descriptor names into a destination of the
controller's own; the code and the bytes.
DESIGN CHOICE, log entry 174. -/
def storagePerform (s : State) (r : CrucReq) : CrucEnd × List Byte :=
  let a := r.w3.toNat
  let x := dataOf s r
  if a % 4096 ≠ 0 ∨ areaOk s true a 8192 = false then (crucNo s 2, [])
  else if magicGone s a then (crucNo s 3, [])
  else
    match firstPoison s a 64 with
    | some w => (crucEcc s r 0 a w, [])
    | none =>
      let c := ctxOf (memBytes s a 64)
      let size := ctxSize c.kind c.wbits
      if c.magic ≠ 0x4352 ∨ ctxParamsOk c = false ∨ c.kind ≠ 1 then (crucNo s 3, [])
      else if areaOk s true a size = false ∨ disjoint x.src x.len a size = false then (crucNo s 2, [])
      else if reqChan r ≠ c.owner then (crucNo s 4, [])
      else
        match firstPoison s a size, firstPoison s x.src x.len with
        | some w, _ => (crucEcc s r 0 a w, [])
        | none, some w => (crucEcc s r 0 a w, [])
        | none, none =>
          let e := defRun s a (ctxFresh c) [] (memBytes s x.src x.len) (reqFlag r 8) (reqFlag r 9)
          if x.len ≤ e.out.length then (crucNo { s with free := s.free + 1 } 5, [])
          else if x.cap < e.out.length then (crucNo { s with free := s.free + 1 } 6, [])
          else (⟨0, 1, crucCount e.s x.len e.out.length⟩, e.out)

/-- A request performed, by its code. -/
def crucPerform (s : State) (r : CrucReq) : CrucEnd :=
  match reqCode r with
  | 1 => dataRequest s r
  | 2 => dataRequest s r
  | 3 => crucInit s r
  | 4 => crucSave s r
  | 5 => crucRestore s r
  | _ => crucNo s 1

/-! ## Queues -/

/-- A dictionary-mode request: its stream is of KIND 3 to 6 (R362). -/
def isDict (s : State) (r : CrucReq) : Bool :=
  let k := if reqCode r = 3 then fld r.w2 2 0 else byteAt (memBytes s (r.w3.toNat + 4) 1) 0
  decide (3 ≤ k) && decide (k ≤ 6)

/-- The oldest request of queue `q` that may be begun.
DEDUCED, log entry 71. -/
def queueHead (l : List CrucReq) (q : Nat) : Option CrucReq := l.find? fun r => r.queue == q

/-- The request that the core takes next: dictionary requests first under DPRI, then the
queues in turn (R362).
DEDUCED, log entry 71. -/
def crucNext (s : State) : Option CrucReq :=
  let order := (List.range 3).map fun i => (s.cruc.turn + i) % 3
  let dicts := s.cruc.q.filter (isDict s)
  let l := if bitOf (csrGet s offCrucCtl) 0 && ! dicts.isEmpty then dicts else s.cruc.q
  (order.find? fun q => (queueHead l q).isSome).bind fun q => queueHead l q

/-- Whether a completion is the oldest of its queue not yet delivered, and no earlier
request of that queue still waits (R375).
DEDUCED, log entry 71. -/
def crucInOrder (s : State) (d : CrucDone) : Bool :=
  (s.cruc.q.all fun r => r.queue != d.queue || decide (d.seq < r.seq))
    && s.cruc.done.all fun x => x.queue != d.queue || decide (d.seq ≤ x.seq)

/-- A completion is held by back-pressure (R375). -/
def crucHeld (s : State) : Bool :=
  s.cruc.done.any fun d => crucInOrder s d && (deliverCompletion s d.target d.value crucSrc).isNone

/-- Counts that a finished request moves (R378). -/
def crucTally (s : State) (code : Nat) : State :=
  let d := drawFree s
  let s1 := cntAdd (bump d.2 offCrucReq) offCrucCyc (d.1 % 2200001)
  match code with
  | 5 => bump s1 offCrucNoshrink
  | 7 => bump s1 offCrucDataerr
  | _ => s1

/-- A request taken off its queue. -/
def crucPop (s : State) (r : CrucReq) : State :=
  { s with cruc := { s.cruc with q := s.cruc.q.erase r, turn := (r.queue + 1) % 3 } }

/-- A completion that waits for delivery. -/
def crucAnswer (s : State) (r : CrucReq) (code info : Nat) : State :=
  { s with cruc := { s.cruc with done := s.cruc.done ++ [⟨r.w1, completionValue code crucSrc info, r.queue, r.seq⟩] } }

/-- What a chunk of an append comes to, handed to the storage controller (R424). -/
def crucChunk (s : State) (r : CrucReq) (x : Nat × List Byte) : State :=
  { s with nand := { s.nand with
    comp := smapPut none s.nand.comp r.ctx (some ((smapGet none s.nand.comp r.ctx).getD [] ++ [x])) } }

/-- A request run from start to completion (R362); the storage controller takes its results at
once. -/
def crucRun (s : State) (r : CrucReq) : State :=
  let s1 := correctAt (crucPop s r) (unitPlace crucSrc) offCrucEcc
  if r.queue = 1 then
    let x := storagePerform s1 r
    crucChunk (crucTally x.1.s x.1.code) r (x.1.code, x.2)
  else
    let e := crucPerform s1 r
    crucAnswer (crucTally e.s e.code) r e.code e.info

/-- The code is one of R367. -/
def crucKnown (r : CrucReq) : Bool := decide (1 ≤ reqCode r) && decide (reqCode r ≤ 5)

/-- Requests of no known code that come next ended with 0x01, at most `n` of them. -/
def crucSettleN (n : Nat) (s : State) : State :=
  match n with
  | 0 => s
  | n + 1 =>
    match (if crucHeld s then none else crucNext s) with
    | none => s
    | some r => if crucKnown r then s else crucSettleN n (crucRun s r)

def crucSettle (s : State) : State := crucSettleN s.cruc.q.length s

/-- The next request performed, when its code is `code` and no completion is held (R375). -/
def crucTake (s : State) (code : Nat) : State :=
  match (if crucHeld s then none else crucNext s) with
  | none => s
  | some r => if reqCode r = code then crucRun s r else s

/-- A request of code `code` begins when it comes next; requests of no known code before and
behind it end. -/
def crucBegin (s : State) (code : Nat) : State := crucSettle (crucTake (crucSettle s) code)

def execCrucCompress (s : State) : Result := .next (crucBegin s 1)

def execCrucDecompress (s : State) : Result := .next (crucBegin s 2)

def execCrucInit (s : State) : Result := .next (crucBegin s 3)

def execCrucSave (s : State) : Result := .next (crucBegin s 4)

def execCrucRestore (s : State) : Result := .next (crucBegin s 5)

/-- A request put into a queue. -/
def crucEnqueue (s : State) (queue ctx : Nat) (desc : Option CrucData) (w0 w1 w2 w3 : Word) : State :=
  let n := s.cruc.seq
  crucSettle { s with cruc := { s.cruc with seq := n + 1, q := s.cruc.q ++ [⟨w0, w1, w2, w3, queue, n, ctx, desc⟩] } }

/-- CRUC_HSTAT.PEND. -/
def hostPend (s : State) : Bool :=
  (s.cruc.q.any fun r => r.queue == 2) || s.cruc.done.any fun d => d.queue == 2

/-- A write of CRUC_HCMD with GO (R378). -/
def crucHostGo (s : State) : State :=
  if hostPend s then s
  else
    let w := fun i => csrGet s (offCrucHreq + 4 * i)
    crucEnqueue s 2 0 none (w 0) (w 1) (w 2) (w 3)

def execCrucHostGo (s : State) : Result := .next (crucHostGo s)

/-- Delivery of the `i`th completion (R375, R378). -/
def crucDeliver (s : State) (i : Nat) : State :=
  match s.cruc.done[i]? with
  | none => s
  | some d =>
    if crucInOrder s d then
      match deliverCompletion s d.target d.value crucSrc with
      | none => s
      | some s1 =>
        let s2 := { s1 with cruc := { s1.cruc with done := s1.cruc.done.eraseIdx i } }
        crucSettle (if d.queue = 2 then csrSetBit (csrPut s2 offCrucHcomp d.value) offCrucHstat 31 true else s2)
    else s

def execCrucCompletionDeliver (i : Nat) (s : State) : Result := .next (crucDeliver s i)

/-- CRUC_STAT. -/
def crucStat (s : State) : Word :=
  wordOf (boolBit (crucHeld s) 17 + (s.cruc.q.filter fun r => r.queue == 1).length * 0x100
    + (s.cruc.q.filter fun r => r.queue == 0).length)

end Sys2Proof.Machine
end

