-- ==== Sys2Proof/Machine/Flash.lean ====
section
/-! DEFINITION. The flash file layer (14_storage.md): partitions, blocks, units, erases,
retirement, relocation, and what the journal of the meter needs of them. -/

namespace Sys2Proof.Machine

def nandSrc : Nat := 0x10

def nandPut (s : State) (n : NandSt) : State := { s with nand := n }

def blkGet (s : State) (g : Nat) : Blk := smapGet Blk.reset s.nand.blk g
def blkPut (s : State) (g : Nat) (b : Blk) : State :=
  nandPut s { s.nand with blk := smapPut Blk.reset s.nand.blk g b, dirty := true }

def unitGet (s : State) (g place : Nat) : Option FlashUnit := smapGet none s.nand.unit (g * 2048 + place)
def unitPut (s : State) (g place : Nat) (u : Option FlashUnit) : State :=
  nandPut s { s.nand with unit := smapPut none s.nand.unit (g * 2048 + place) u }

def partGet (s : State) (p : Nat) : PartSt := smapGet PartSt.reset s.nand.part p
def partPut (s : State) (p : Nat) (x : PartSt) : State :=
  nandPut s { s.nand with part := smapPut PartSt.reset s.nand.part p x }

/-! ## The partition table (R417) -/

/-- An entry of the partition table. -/
structure PartEntry where
  id : Nat
  start : Nat
  len : Nat
  reserve : Nat
  deriving DecidableEq, Repr

/-- The entries of a table, unused ones left out. -/
def tableEntries (t : List Byte) : List PartEntry :=
  ((chunks 16 t).map fun e => (⟨byteAt e 0, leAt e 2 2, leAt e 4 2, leAt e 6 2⟩ : PartEntry)).filter fun e => e.id != 0

/-- The entry of partition `p`. -/
def partEntry (s : State) (p : Nat) : Option PartEntry :=
  (tableEntries (s.nand.table.getD [])).find? fun e => e.id == p

/-- The least LEN of a partition. -/
def minLen (id : Nat) : Nat := if id = 3 then 12 else 4

/-- Blocks of the target that block `g` would lie on. -/
def targetBlocks (s : State) (g : Nat) : Nat := s.nand.blocks.getD (g / 16384) 0

/-- Whether an entry obeys R417 and stays in its target. -/
def entryOk (s : State) (e : PartEntry) : Bool :=
  decide (e.id ≤ 15) && decide (minLen e.id ≤ e.len) && decide (2 ≤ e.reserve) && decide (e.reserve < e.len)
    && decide (8 ≤ e.start) && decide (e.start % 16384 + e.len ≤ targetBlocks s e.start)

/-- Whether two entries overlap or share an ID. -/
def entryClash (a b : PartEntry) : Bool :=
  a.id == b.id || (decide (a.start < b.start + b.len) && decide (b.start < a.start + a.len))

def anyClash (l : List PartEntry) : Bool :=
  match l with
  | [] => false
  | e :: r => r.any (entryClash e) || anyClash r

/-- Whether the bytes of a used or unused entry that must be zero are zero. -/
def entryZeros (e : List Byte) : Bool :=
  if byteAt e 0 = 0 then true else byteAt e 1 == 0 && (e.drop 8).all fun b => b == 0

/-- Whether SETPART accepts a table (R418). -/
def tableOk (s : State) (t : List Byte) : Bool :=
  (tableEntries t).all (entryOk s) && ! anyClash (tableEntries t) && (chunks 16 t).all entryZeros

/-! ## Geometry -/

/-- Units of 4 KiB in a page. -/
def unitsInPage (s : State) : Nat := if s.nand.page16 then 4 else 2

/-- Units or slots of a page of partition `p` (R426). -/
def placesInPage (s : State) (p : Nat) : Nat :=
  if p = 3 ∧ s.nand.nop < unitsInPage s then 1 else unitsInPage s

def placesInBlock (s : State) (p : Nat) : Nat := s.nand.ppb * placesInPage s p

/-- The blocks of partition `p`. -/
def partBlocks (s : State) (p : Nat) : List Nat :=
  match partEntry s p with
  | none => []
  | some e => (List.range e.len).map fun i => e.start + i

/-- Free blocks of a partition. -/
def freeBlocks (s : State) (p : Nat) : List Nat := (partBlocks s p).filter fun g => (blkGet s g).state == .free

/-- Bad blocks of a partition. -/
def badBlocks (s : State) (p : Nat) : Nat :=
  ((partBlocks s p).filter fun g => (blkGet s g).state == .factoryBad || (blkGet s g).state == .retired).length

/-- Spare blocks that remain of RESERVE (R430).
DEDUCED, log entry 91. -/
def reserveLeft (s : State) (p : Nat) : Nat :=
  match partEntry s p with
  | none => 0
  | some e => e.reserve - badBlocks s p

/-- RESERVE is exhausted (R430). -/
def readOnlyPart (s : State) (p : Nat) : Bool := (partEntry s p).isSome && reserveLeft s p == 0

/-- Free blocks outside RESERVE. -/
def freeOutside (s : State) (p : Nat) : Nat := (freeBlocks s p).length - reserveLeft s p

/-- The block that holds logical block `lb` of partition `p`: the one of highest GEN (R420). -/
def findBlock (s : State) (p lb : Nat) : Option Nat :=
  (partBlocks s p).foldl (fun best g =>
    let b := blkGet s g
    if b.state = .used ∧ b.part = p ∧ b.lblk = lb then
      match best with
      | none => some g
      | some h => if (blkGet s h).gen < b.gen then some g else best
    else best) none

/-- The block that holds the unit at `place` of logical block `lb`: the one of highest GEN, a block
that was retired and could not be moved among them (R420, R430). -/
def holderOf (s : State) (p lb place : Nat) : Option Nat :=
  (partBlocks s p).foldl (fun best g =>
    let b := blkGet s g
    if (b.state = .used ∨ b.state = .retired) ∧ b.part = p ∧ b.lblk = lb ∧ (unitGet s g place).isSome then
      match best with
      | none => some g
      | some h => if (blkGet s h).gen < b.gen then some g else best
    else best) none

/-- The places of block `g` that hold a unit, rising, with their units. -/
def blockUnits (s : State) (g : Nat) : List (Nat × FlashUnit) :=
  (smapRange s.nand.unit (g * 2048) (g * 2048 + 2048)).filterMap fun ku => ku.2.map fun u => (ku.1 - g * 2048, u)

/-- JCAP (R428).
DEDUCED, log entry 91. -/
def jcap (s : State) : Nat :=
  match partEntry s 3 with
  | none => 0
  | some e => if s.nand.mounted then 32 * ((e.len - 2) * placesInBlock s 3 - 2 * placesInBlock s 3) else 0

/-! ## Erasing and retiring -/

/-- A bad block (R419, R430). -/
def blkBad (b : Blk) : Bool := b.state == .factoryBad || b.state == .retired

/-- The tables that the anchor is to hold (R417). -/
def anchorOf (n : NandSt) : List Anchor :=
  match n.table with
  | none => []
  | some t =>
    List.replicate 2 ⟨t, (n.blk.filter fun kb => blkBad kb.2).map fun kb => kb.1,
      n.blk.map fun kb => (kb.1, kb.2.state, kb.2.erases)⟩

/-- The block table saved to the anchor, both copies (R417, R420, R422). -/
def saveTable (s : State) : State :=
  let s1 := s.nand.blk.foldl (fun a kb =>
    blkPut a kb.1 { blkGet a kb.1 with saved := (blkGet a kb.1).erases, opened := false }) s
  nandPut s1 { s1.nand with dirty := false, eraseRun := 0, anchor := anchorOf s1.nand }

/-- The partition whose range holds block `g`. -/
def partOf (s : State) (g : Nat) : Nat :=
  match (tableEntries (s.nand.table.getD [])).find? fun e => decide (e.start ≤ g) && decide (g < e.start + e.len) with
  | none => 0
  | some e => e.id

/-- A block retired (R430), `cause` as its event has it. -/
def retireBlock (s : State) (g cause : Nat) : State :=
  let b := blkGet s g
  let p := partOf s g
  let was := readOnlyPart s p
  let s1 := bump (blkPut s g { b with state := .retired, part := p }) offNandRetire
  let s2 := raise0 s1 nandSrc 3 cause (leBytes 2 g ++ leBytes 1 p ++ [0] ++ leBytes 4 b.erases)
  if readOnlyPart s2 p && ! was then raise0 s2 nandSrc 4 0 (leBytes 1 p) else s2

/-- NAND_ENDUR.LIMIT, 0 acting as 1. -/
def endurLimit (s : State) : Nat := max 1 (csrGet s offNandEndur).toNat

/-- A block without any unit. -/
def clearUnits (s : State) (g : Nat) : State :=
  let keep : Nat × Option FlashUnit → Bool :=
    fun ku => decide (ku.1 < g * 2048) || decide (g * 2048 + 2048 ≤ ku.1)
  nandPut s { s.nand with unit := s.nand.unit.filter keep }

/-- A block erased, or retired where R430 retires it.
DEDUCED, log entry 94. -/
def eraseBlock (s : State) (w : FlashWorld) (g : Nat) : State :=
  let b := blkGet s g
  let s0 := clearUnits s g
  if endurLimit s ≤ b.erases then retireBlock s0 g 0
  else if w.eraseFails.contains g then retireBlock s0 g 2
  else
    let s1 := blkPut (bump s0 offNandErase) g { Blk.reset with erases := b.erases + 1, saved := b.saved }
    let s2 := nandPut s1 { s1.nand with eraseRun := s1.nand.eraseRun + 1 }
    let s3 := if s2.nand.eraseRun ≥ 64 then saveTable s2 else s2
    if endurLimit s3 ≤ b.erases + 1 then retireBlock s3 g 0 else s3

/-! ## Opening, programming, relocating -/

/-- The block of a list with the lowest erase count, the first of those that tie. -/
def lowestErases (s : State) (l : List Nat) : Option Nat :=
  l.foldl (fun best g =>
    match best with
    | none => some g
    | some h => if (blkGet s g).erases < (blkGet s h).erases then some g else best) none

/-- The free blocks of a partition whose erase count a lowered LIMIT has reached, retired (R430). -/
def retireWorn (s : State) (p : Nat) : State :=
  (freeBlocks s p).foldl (fun a g => if endurLimit a ≤ (blkGet a g).erases then retireBlock a g 0 else a) s

/-- Block `g` opened for logical block `lb` of partition `p` (R415). -/
def openAs (s : State) (p lb g : Nat) (reloc : Bool) : State :=
  let x := partGet s p
  blkPut (partPut s p { x with gen := x.gen + 1 }) g { blkGet s g with
    state := .used, part := p, lblk := lb, gen := x.gen + 1, reloc := reloc, opened := true }

/-- A free block opened for logical block `lb` of partition `p` (R415, R431); `deep` lets
it come out of RESERVE.
DEDUCED, log entry 91. -/
def openBlock (s : State) (p lb : Nat) (deep reloc : Bool) : State × Option Nat :=
  let s0 := retireWorn s p
  match (if deep || decide (0 < freeOutside s0 p) then lowestErases s0 (freeBlocks s0 p) else none) with
  | none => (s0, none)
  | some g => (openAs s0 p lb g reloc, some g)

/-- The faults of a page. -/
def pageFaults (w : FlashWorld) (g page : Nat) : List ReadFault :=
  w.faults.filter fun f => f.block == g && f.page == page

/-- Whether a sector is uncorrectable: it reads at no level up to NAND_CTL.RETRY (R416). -/
def faultFails (s : State) (f : ReadFault) : Bool := decide (csrFld s offNandCtl 7 4 < f.level)

/-- NAND_PATROL.THR; above 72 it acts as 72. -/
def patrolThr (s : State) : Nat := min 72 (csrFld s offNandPatrol 6 0)

/-- A page read by the array (R416, R432, R433): counts, the wish to refresh, and the
uncorrectable events; `patrol` reads do not count towards read disturb. -/
def readPage (s : State) (w : FlashWorld) (g page : Nat) (patrol : Bool) : State :=
  let fs := pageFaults w g page
  let bits := ((fs.filter fun f => ! faultFails s f).map fun f => f.bits).sum
  let b := blkGet s g
  let want := b.want || fs.any fun f => decide (1 < f.level) || faultFails s f || decide (patrolThr s ≤ f.bits)
  let reads := if patrol then b.reads else b.reads + 1
  let s1 := cntAdd (bump s offNandRead) offNandCorrbits bits
  let s2 := nandPut s1 { s1.nand with
    blk := smapPut Blk.reset s1.nand.blk g { b with reads := reads, want := want } }
  (fs.filter (faultFails s)).foldl (fun a f =>
    raise0 (bump a offNandUncorr) nandSrc 2 0
      (leBytes 2 g ++ leBytes 2 page ++ leBytes 1 (partOf a g) ++ leBytes 1 f.sector)) s2

/-- Whether a unit of a page reads: none of its four sectors failed. -/
def unitReads (s : State) (w : FlashWorld) (g p place : Nat) : Bool :=
  let page := place / placesInPage s p
  let first := if placesInPage s p = 1 then 0 else place % placesInPage s p * 4
  ! (pageFaults w g page).any fun f => faultFails s f && decide (first ≤ f.sector) && decide (f.sector < first + 4)

/-- The pages of block `g` that hold a unit. -/
def blockPages (s : State) (g p : Nat) : List Nat :=
  ((blockUnits s g).map fun u => u.1 / placesInPage s p).eraseDups

/-- The units of block `g` copied into the open block `h` (R432, R433): records and data
move unchanged, and a unit that does not read stays lost.
DEDUCED, log entry 89. -/
def copyUnits (s : State) (w : FlashWorld) (g h p : Nat) : State :=
  let us := blockUnits s g
  let s1 := (blockPages s g p).foldl (fun a pg => bump (readPage a w g pg true) offNandProg) s
  let s2 := us.foldl (fun a u => unitPut a h u.1
    (some { u.2 with lost := u.2.lost || ! unitReads s w g p u.1, reloc := true })) s1
  blkPut (cntAdd s2 offNandReloc us.length) h { blkGet s2 h with reloc := false }

/-- The world without the program failure of block `g`, which has come. -/
def failedOnce (w : FlashWorld) (g : Nat) : FlashWorld := { w with progFails := w.progFails.filter fun x => x != g }

/-- The data of block `g` moved to a fresh block, which then stands for its logical block;
the old block is left as it is. A fresh block in which a program fails is retired, and the next
one taken (R430). -/
def moveOff (fuel : Nat) (s : State) (w : FlashWorld) (g : Nat) : State × Option Nat :=
  match fuel with
  | 0 => (s, none)
  | fuel + 1 =>
    let b := blkGet s g
    match openBlock s b.part b.lblk true true with
    | (s1, none) => (s1, none)
    | (s1, some h) =>
      if w.progFails.contains h then moveOff fuel (retireBlock s1 h 1) (failedOnce w h) g
      else (copyUnits s1 w g h b.part, some h)

/-- A unit programmed at `place` of logical block `lb` of partition `p` (R427, R430), and whether a
block could be had: a block in which a program fails is retired at once, its units moved, and the
unit programmed in the next one; units that no free block can take stay where they are.
DEDUCED, log entry 89. -/
def progUnit (fuel : Nat) (s : State) (w : FlashWorld) (p lb place : Nat) (deep page : Bool) (u : FlashUnit) :
    State × Bool :=
  match fuel with
  | 0 => (s, false)
  | fuel + 1 =>
    let at_ := match findBlock s p lb with
      | some g => (s, some g)
      | none => openBlock s p lb deep false
    match at_ with
    | (s1, none) => (s1, false)
    | (s1, some g) =>
      if w.progFails.contains g then
        match moveOff (w.progFails.length + 1) s1 (failedOnce w g) g with
        | (s2, none) => (retireBlock s2 g 1, false)
        | (s2, some _) => progUnit fuel (retireBlock (clearUnits s2 g) g 1) (failedOnce w g) p lb place deep page u
      else (unitPut (if page then bump s1 offNandProg else s1) g place (some u), true)

/-- Units programmed from number `n` of partition `p` on, one after another, and how many were. -/
def progUnits (s : State) (w : FlashWorld) (p n base : Nat) (deep : Bool) (us : List FlashUnit) : State × Nat :=
  match us with
  | [] => (s, 0)
  | u :: r =>
    let per := placesInBlock s p
    let newPage := decide (n % placesInPage s p = 0) || u.first
    let x := progUnit (w.progFails.length + 1) s w p (base + n / per) (n % per) deep newPage u
    if x.2 then
      let y := progUnits x.1 w p (n + 1) base deep r
      (y.1, y.2 + 1)
    else (x.1, 0)

/-- A block refreshed (R432): copied to a fresh one, and erased. -/
def refreshBlock (s : State) (w : FlashWorld) (g : Nat) : State :=
  match moveOff (w.progFails.length + 1) s w g with
  | (s1, none) => s1
  | (s1, some _) => bump (eraseBlock s1 w g) offNandRefresh

/-! ## The journal (R426–R428) -/

/-- RSEQ of a record (R400). -/
def recSeq (r : List Byte) : Nat := leAt r 8 8

/-- The records of a unit. -/
def unitRecs (u : FlashUnit) : List (List Byte) := chunks 128 u.data

/-- The journal blocks in use. -/
def journalBlocks (s : State) : List Nat :=
  (partBlocks s 3).filter fun g =>
    let b := blkGet s g
    b.state == .used && b.part == 3 && decide (2 ≤ b.lblk)

/-- The blocks that hold journalled records: those in use, and those retired whose records could not
be moved (R430). -/
def recordBlocks (s : State) : List Nat :=
  (partBlocks s 3).filter fun g =>
    let b := blkGet s g
    (b.state == .used || b.state == .retired) && b.part == 3 && decide (2 ≤ b.lblk)

/-- The logical block that is open for the next slot. -/
def slotBlock (s : State) : Nat := 2 + (partGet s 3).next / placesInBlock s 3

/-- The next slot moved to the start of a block, where the block it stood in is gone. -/
def slotOn (s : State) : State :=
  let x := partGet s 3
  let per := placesInBlock s 3
  if x.next % per = 0 ∨ (findBlock s 3 (slotBlock s)).isSome then s
  else partPut s 3 { x with next := (x.next / per + 1) * per }

/-- Journal blocks whose records all lie at or below `jrel` erased (R428). -/
def freeReleased (s : State) (w : FlashWorld) (jrel : Nat) : State :=
  slotOn ((journalBlocks s).foldl (fun a g =>
    if (blockUnits a g).all fun u => (unitRecs u.2).all fun r => decide (recSeq r ≤ jrel) then eraseBlock a w g
    else a) s)

/-- Every journal block erased, as sealing asks (R404). -/
def eraseJournal (s : State) (w : FlashWorld) : State :=
  let s1 := (recordBlocks s).foldl (fun a g =>
    if (blkGet a g).state = .used then eraseBlock a w g else clearUnits a g) s
  partPut s1 3 { partGet s1 3 with next := 0, low := 0 }

/-- Journal slots that hold nothing. -/
def freeSlots (s : State) : Nat :=
  match partEntry s 3 with
  | none => 0
  | some e =>
    (e.len - 2) * placesInBlock s 3
      - ((journalBlocks s).map fun g => if (blkGet s g).lblk = slotBlock s
          then (partGet s 3).next % placesInBlock s 3 else placesInBlock s 3).sum

end Sys2Proof.Machine
end

