-- ==== Sys2Proof/Machine/Meter.lean ====
section
/-! DEFINITION. The sealed tariff meter (13_tariff_meter.md): its clock, its calendar, its
records, and every row of the opcode table that reaches it. -/

namespace Sys2Proof.Machine

def meterSrc : Nat := 0x0F

def meterPut (s : State) (m : MeterSt) : State := { s with meter := m }

/-! ## Units of time: 10⁻⁹ ns -/

def nsT : Nat := 1000000000
def usT : Nat := 1000 * nsT
def msT : Nat := 1000000 * nsT
def secT : Nat := 1000000000 * nsT
def dayT : Nat := 86400 * secT

/-- A TS80 (R392): 48-bit seconds and 32-bit nanoseconds. -/
def ts80 (t : Int) : List Byte :=
  leBytes 6 ((t / secT) % 2 ^ 48).toNat ++ leBytes 4 ((t % secT) / nsT).toNat

/-! ## The clock (R392, R394) -/

/-- A SEAL register as it was passed to the meter. -/
def sealReg (m : MeterSt) (o : Nat) : Word := smapGet (csrDefault o) m.sealReg o

/-- Deviation in ppb of the crystal with TC applied (R392): the crystal runs off its own parabola,
whose K and θ0 are the reset values of METER_XCOMP, by at most 50 ppm, so that R403 holds of a
parabola well compensated; TC is −K × (θ − θ0)² out of METER_XCOMP.
DEDUCED, log entry 78. -/
def compensated (m : MeterSt) : Int :=
  let x := sealReg m offMeterXcomp
  let temp := clampInt (-128) 127 m.temp
  let d := temp - signed 8 (fld x 7 0)
  let raw := clampInt (-50000) 50000 m.skew + 34 * ((temp - 25) * (temp - 25))
  let tc := - ((fld x 31 16 : Int) * (d * d))
  max (-900000000) (raw + tc + roundDiv (raw * tc) 1000000000)

/-- Interval counter gained over `dt` ns of elapsed time: the crystal's deviation and RATE. -/
def icGain (m : MeterSt) (dt : Nat) : Nat :=
  ((dt : Int) * (1000000000 + compensated m) * (1000000000 + m.rate) / 1000000000).toNat

/-- The clock moved by `di` of interval count while meter time slews by `sl`. -/
def clockMove (m : MeterSt) (di : Nat) (sl : Int) : MeterSt :=
  if di = 0 then m
  else
    let t1 := m.time + di + sl
    let key := (compensated m, m.rate, (if sl = 0 then 0 else if sl < 0 then -1 else 1 : Int))
    let new : Stretch := ⟨m.time, m.ic, t1, m.ic + di, key, m.suspect, m.noref⟩
    let trail := match m.trail with
      | [] => [new]
      | x :: r =>
        if x.t1 = new.t0 ∧ x.i1 = new.i0 ∧ x.key = key ∧ x.suspect = new.suspect ∧ x.noref = new.noref then
          { new with t0 := x.t0, i0 := x.i0 } :: r
        else new :: x :: r
    { m with time := t1, ic := m.ic + di, resid := m.resid - sl, trail := trail }

/-- Stretches that no open call and no queued command needs any more are let go. -/
def trimTrail (m : MeterSt) : MeterSt :=
  let starts := (m.open_.filterMap fun kc => kc.2.map fun c => c.ic) ++ m.q.map fun c => c.ic
  let low := starts.foldl min m.ic
  { m with
    trail := m.trail.filter fun x => decide (low ≤ x.i1)
    cals := m.cals.take ((m.cals.takeWhile fun c => decide (low < c.1)).length + 1) }

/-- The meter's clock brought up to the present: crystal time, interval counter, and meter
time, which slews at 50 ppm and stops exactly when nothing is left to remove (R394). -/
def clockUp (m : MeterSt) (now : Nat) : MeterSt :=
  let dt := now - m.at_
  let di := icGain m dt
  let need := m.resid.natAbs * 20000
  let m1 := { m with at_ := now, xt := m.xt + ((dt : Int) * (1000000000 + compensated m)).toNat }
  let m2 :=
    if m.resid = 0 ∨ m.power = false then clockMove m1 di 0
    else if di < need then
      clockMove m1 di (if m.resid < 0 then - ((di / 20000 : Nat) : Int) else ((di / 20000 : Nat) : Int))
    else clockMove (clockMove m1 need m.resid) (di - need) 0
  trimTrail m2

def meterNow (s : State) : State := meterPut s (clockUp s.meter (elapsed s.time))

/-- Meter time at interval count `i`, over the clock's trail. -/
def timeAt (m : MeterSt) (i : Nat) : Int :=
  match m.trail.find? fun x => decide (x.i0 ≤ i) && decide (i ≤ x.i1) with
  | none => m.time + i - m.ic
  | some x => x.t0 + ((i - x.i0 : Nat) : Int) * (x.t1 - x.t0) / ((x.i1 - x.i0 : Nat) : Int)

/-! ## Calendar (R397–R399) -/

/-- A parameter of a fresh meter: 0, but the SWITCH minutes 0xFFFF. -/
def paramDefault (i : Nat) : Word × Word := if 11 ≤ i ∧ i ≤ 42 then (0xFFFF#32, 0) else (0, 0)

def paramGet (p : SMap (Word × Word)) (i : Nat) : Word × Word := smapGet (paramDefault i) p i

def paramPut (p : SMap (Word × Word)) (i : Nat) (v : Word × Word) : SMap (Word × Word) :=
  smapPut (paramDefault i) p i v

/-- The place of a parameter among the 107, by ID and index. -/
def paramPlace (id ix : Nat) : Option Nat :=
  match id with
  | 1 => if ix = 0 then some 0 else none
  | 2 => if ix = 0 then some 1 else none
  | 3 => if ix = 0 then some 2 else none
  | 4 => if ix = 0 then some 3 else none
  | 5 => if ix < 7 then some (4 + ix) else none
  | 6 => if ix < 32 then some (11 + ix) else none
  | 7 => if ix < 64 then some (43 + ix) else none
  | _ => none

def leapYear (y : Nat) : Bool := y % 4 == 0 && (y % 100 != 0 || y % 400 == 0)

def monthDays (y m : Nat) : Nat :=
  match m with
  | 2 => if leapYear y then 29 else 28
  | 4 | 6 | 9 | 11 => 30
  | _ => 31

/-- A date that exists in its month of its year (R398). -/
def dateOk (w : Word) : Bool :=
  let y := fld w 31 16
  let m := fld w 15 8
  let d := fld w 7 0
  decide (1970 ≤ y) && decide (y ≤ 9999) && decide (1 ≤ m) && decide (m ≤ 12) && decide (1 ≤ d)
    && decide (d ≤ monthDays y m)

/-- The month and day of day `n` of a year, from month `m` on. -/
def monthOf (fuel y m n : Nat) : Nat × Nat :=
  match fuel with
  | 0 => (m, n + 1)
  | f + 1 => if n < monthDays y m then (m, n + 1) else monthOf f y (m + 1) (n - monthDays y m)

/-- The date of day `n` after 1970-01-01, as R397 encodes it. -/
def dateOfDay (n : Nat) : Nat :=
  let d := n + 719162
  let c400 := d / 146097
  let r400 := d % 146097
  let c100 := min (r400 / 36524) 3
  let r100 := r400 - c100 * 36524
  let c4 := r100 / 1461
  let r4 := r100 % 1461
  let c1 := min (r4 / 365) 3
  let y := c400 * 400 + c100 * 100 + c4 * 4 + c1 + 1
  let md := monthOf 11 y 1 (r4 - c1 * 365)
  y * 65536 + md.1 * 256 + md.2

/-- Local time L in units of the clock (R397). -/
def localTime (p : SMap (Word × Word)) (t : Int) : Int :=
  t + (((paramGet p 0).1.toInt - (paramGet p 1).1.toNat) : Int) * secT

/-- The day type of day `n`: its SPECIAL entry, else its WEEKDAY entry (R399). -/
def dayType (p : SMap (Word × Word)) (n : Nat) : Nat :=
  let code := dateOfDay n
  match (List.range 64).find? fun k => (paramGet p (43 + k)).1.toNat == code with
  | some k => (paramGet p (43 + k)).2.toNat % 4
  | none => (paramGet p (4 + (n + 3) % 7)).1.toNat % 4

/-- The used switches of a day type: minute and band. -/
def switchesOf (p : SMap (Word × Word)) (ty : Nat) : List (Nat × Nat) :=
  (List.range 8).filterMap fun k =>
    let w := (paramGet p (11 + ty * 8 + k)).1
    if fld w 15 0 = 0xFFFF then none else some (fld w 15 0, fld w 17 16)

/-- Whether a calendar is in force at meter time `t` (R389 code 0x85). -/
def calendarValid (p : SMap (Word × Word)) (t : Int) : Bool :=
  let l := localTime p t
  if l < 0 then false
  else
    let d := dateOfDay (l / dayT).toNat
    decide ((paramGet p 2).1.toNat ≤ d) && decide (d ≤ (paramGet p 3).1.toNat)

/-- The band in force at meter time `t` (R399), or none.
DEDUCED, log entry 83. -/
def bandAt (p : SMap (Word × Word)) (t : Int) : Option Nat :=
  if calendarValid p t then
    let l := localTime p t
    let minute := (l % dayT / (60 * secT)).toNat
    let sw := (switchesOf p (dayType p (l / dayT).toNat)).filter fun x => decide (x.1 ≤ minute)
    (sw.foldl (fun best x =>
      match best with
      | none => some x
      | some b => if b.1 < x.1 then some x else best) none).map fun x => x.2
  else none

/-- The committed set in force at interval count `i`; none while none is committed. -/
def calAt (m : MeterSt) (i : Nat) : Option (SMap (Word × Word)) :=
  (m.cals.find? fun c => decide (c.1 ≤ i)).map fun c => c.2

/-- Band in force at an instant. -/
def bandNow (m : MeterSt) (t : Int) (i : Nat) : Option Nat := (calAt m i).bind fun p => bandAt p t

/-- No number stands twice in a list. -/
def distinct (l : List Nat) : Bool :=
  match l with
  | [] => true
  | x :: r => ! r.contains x && distinct r

/-- Whether COMMIT accepts a staged set (R399). -/
def setOk (p : SMap (Word × Word)) : Bool :=
  let special := (List.range 64).map fun k => paramGet p (43 + k)
  let used := special.filter fun x => x.1 != 0
  let types := (List.range 7).map (fun k => (paramGet p (4 + k)).1.toNat % 4) ++ used.map fun x => x.2.toNat % 4
  (paramGet p 2).1 != 0 && (paramGet p 3).1 != 0
    && decide ((paramGet p 2).1.toNat ≤ (paramGet p 3).1.toNat)
    && types.all (fun ty => (switchesOf p ty).any fun x => x.1 == 0)
    && (List.range 4).all (fun ty => distinct ((switchesOf p ty).map fun x => x.1))
    && distinct (used.map fun x => x.1.toNat)

/-! ## Durations and bands (R388) -/

/-- Interval counts in `a` to `b` of a stretch at which the band may change: the switches
of every day, and the sets committed. -/
def cutsOf (m : MeterSt) (x : Stretch) (a b : Nat) : List Nat :=
  let ta := x.t0 + ((a - x.i0 : Nat) : Int) * (x.t1 - x.t0) / ((x.i1 - x.i0 : Nat) : Int)
  let tb := x.t0 + ((b - x.i0 : Nat) : Int) * (x.t1 - x.t0) / ((x.i1 - x.i0 : Nat) : Int)
  let place := fun (t : Int) =>
    x.i0 + ((((t - x.t0) * ((x.i1 - x.i0 : Nat) : Int) + (x.t1 - x.t0) - 1) / (x.t1 - x.t0)).toNat)
  let sets := m.cals.filter fun c => decide (a < c.1) && decide (c.1 < b)
  let switches := m.cals.flatMap fun c =>
    let off := localTime c.2 0
    let d0 := ((ta + off) / dayT).toNat
    let days := (((tb + off) / dayT).toNat - d0) + 1
    (List.range days).flatMap fun k =>
      (0 :: (switchesOf c.2 (dayType c.2 (d0 + k))).map fun w => w.1).filterMap fun mi =>
        let t : Int := ((d0 + k : Nat) : Int) * dayT + ((mi * 60 : Nat) : Int) * secT - off
        if ta < t ∧ t < tb then some (place t) else none
  ((sets.map fun c => c.1) ++ switches).foldl insertRising []

/-- A run of the interval in one band: the band and its length in interval count. -/
abbrev Part := Nat × Nat

/-- A length added to the parts, newest first. -/
def addPart (l : List Part) (band di : Nat) : List Part :=
  match l with
  | [] => [(band, di)]
  | (b, n) :: r => if b = band then (b, n + di) :: r else (band, di) :: (b, n) :: r

/-- What an interval amounts to: its parts, newest first, whether the calendar had ended,
and whether SUSPECT or NOREF held at any instant. -/
structure Tally where
  parts : List Part
  ext : Bool
  suspect : Bool
  noref : Bool
  deriving DecidableEq, Repr

/-- The day number of an encoded date (R397). -/
def dayOfDate (w : Word) : Nat :=
  let y := fld w 31 16
  let days := ((List.range (fld w 15 8 - 1)).map fun i => monthDays y (i + 1)).sum
  365 * y + (y - 1) / 4 - (y - 1) / 100 + (y - 1) / 400 + days + fld w 7 0 - 719528

/-- The band in force as VALID_TO ends (R399). -/
def lastBand (p : SMap (Word × Word)) : Nat :=
  ((switchesOf p (dayType p (dayOfDate (paramGet p 3).1))).foldl (fun (b : Nat × Nat) x => if b.1 ≤ x.1 then x else b) (0, 0)).2

/-- One piece of a stretch, from interval count `a` to `b`, in one band.
DEDUCED, log entry 83. -/
def tallyPiece (m : MeterSt) (x : Stretch) (y : Tally) (a b : Nat) : Tally :=
  let t := x.t0 + ((a - x.i0 : Nat) : Int) * (x.t1 - x.t0) / ((x.i1 - x.i0 : Nat) : Int)
  match bandNow m t a with
  | some band => { y with parts := addPart y.parts band (b - a) }
  | none =>
    let band := match y.parts with
      | [] => ((calAt m a).map lastBand).getD 0
      | p :: _ => p.1
    { y with parts := addPart y.parts band (b - a), ext := y.ext || (calAt m a).isSome }

/-- The pieces of a stretch between rising cuts. -/
def tallyCuts (m : MeterSt) (x : Stretch) (y : Tally) (a b : Nat) (cuts : List Nat) : Tally :=
  match cuts with
  | [] => if a < b then tallyPiece m x y a b else y
  | c :: r => if a < c then tallyCuts m x (tallyPiece m x y a c) c b r else tallyCuts m x y a b r

/-- The interval from count `a` to `b`, over the trail. -/
def tallyOf (m : MeterSt) (a b : Nat) : Tally :=
  m.trail.reverse.foldl (fun y x =>
    let lo := max a x.i0
    let hi := min b x.i1
    if lo < hi then
      let z := tallyCuts m x y lo hi (cutsOf m x lo hi)
      { z with suspect := z.suspect || x.suspect, noref := z.noref || x.noref }
    else y) ⟨[], false, false, false⟩

/-- A length in ms, rounded half up. -/
def inMs (di : Nat) : Nat := (di + msT / 2) / msT

/-- BANDMS0–3 of the parts, newest first, with the rounding difference on the last band, or,
where that has less than is to be removed, on the latest that has enough (R388).
DEDUCED, log entry 83. -/
def bandMs (parts : List Part) (durms : Nat) : List Int :=
  let raw := fun (k : Nat) => (((parts.filter fun p => p.1 == k).map fun p => inMs p.2).sum : Int)
  let diff : Int := (durms : Int) - (((parts.map fun p => inMs p.2).sum : Nat) : Int)
  let last := (parts.find? fun p => decide (0 ≤ raw p.1 + diff)).map fun p => p.1
  (List.range 4).map fun k => raw k + (if some k = last then diff else 0)

/-! ## Records (R400–R402) -/

/-- The key that hallmarks: sixteen zero bytes before sealing (R404).
DEDUCED, log entry 84. -/
def hallKey (m : MeterSt) : List Byte := if m.sealed_ then m.hmk.getD (zeros 16) else zeros 16

/-- What a record says beside what the meter itself puts into it. -/
structure RecBody where
  type : Nat
  /-- FLAGS bits 7:4: CAL_EXT, TOTAL_SAT, ADOPTED, POWERCLOSE; and SUSPECT, NOREF. -/
  flags : Nat
  band : Option Nat
  chan : Nat
  stamp : Int
  ref : Nat
  nfn : Nat
  body : List Byte
  deriving DecidableEq, Repr

/-- SUSPECT and NOREF of the meter as FLAGS has them. -/
def timeFlags (suspect noref : Bool) : Nat := boolBit suspect 0 + boolBit noref 1

/-- The 128 bytes of a record that takes RSEQ `seq` after the record `prev`. -/
def recordBytes (m : MeterSt) (r : RecBody) (seq : Nat) : List Byte :=
  let fl := r.flags + boolBit (! m.valid) 2 + boolBit (! m.sealed_) 3
  let b := [1#8, BitVec.ofNat 8 r.type] ++ leBytes 2 fl ++ leBytes 1 (r.band.getD 0xFF)
    ++ leBytes 1 m.pairId.toNat ++ leBytes 2 r.chan ++ leBytes 8 seq ++ ts80 r.stamp
    ++ leBytes 2 m.audit.length ++ leBytes 4 r.ref ++ leBytes 8 r.nfn ++ padTo 56 r.body
    ++ (match m.prev with
      | none => zeros 16
      | some p => (sha256 p).take 16)
  b ++ aesCmac (hallKey m) b

/-- NFN of the last valid tick, for a record without a command (R400). -/
def lastNfn (m : MeterSt) : Nat :=
  match m.lastTick with
  | none => 0
  | some x => x.1

/-- A record that the buffer can take.
DEDUCED, log entry 81. -/
def keepRecord (m : MeterSt) (r : RecBody) : MeterSt :=
  let bs := recordBytes m r (m.rseq + 1)
  { m with rseq := m.rseq + 1, prev := some bs, buffer := m.buffer ++ [(m.ic, bs)] }

/-- The LOSS record of R390. -/
def lossBody (m : MeterSt) : RecBody :=
  ⟨0x0A, timeFlags m.suspect m.noref, bandNow m m.time m.ic, 0xFFFF, m.time, 0, lastNfn m,
    leBytes 4 m.loss ++ leBytes 8 m.lossFirst⟩

/-- The meter after the LOSS record that precedes the next record kept.
DEDUCED, log entry 81. -/
def tellLoss (m : MeterSt) : MeterSt :=
  if m.loss ≠ 0 ∧ m.buffer.length < 256 then { keepRecord m (lossBody m) with loss := 0 } else m

/-- A record written (R390, R402): it takes the next RSEQ, and is lost when the buffer is
full.
DEDUCED, log entry 81. -/
def writeRecord (m : MeterSt) (r : RecBody) : MeterSt :=
  let m1 := tellLoss m
  if m1.buffer.length < 256 then keepRecord m1 r
  else
    { m1 with
      rseq := m1.rseq + 1
      jlost := satAdd 0xFFFFFFFF m1.jlost 1
      loss := m1.loss + 1
      lossFirst := if m1.loss = 0 then m1.rseq + 1 else m1.lossFirst }

/-- RSEQ of the record that `writeRecord` writes next. -/
def nextSeq (m : MeterSt) : Nat := (tellLoss m).rseq + 1

/-- A record of the meter's own, at the present instant. -/
def ownRecord (m : MeterSt) (type : Nat) (body : List Byte) : MeterSt :=
  writeRecord m ⟨type, timeFlags m.suspect m.noref, bandNow m m.time m.ic, 0xFFFF, m.time, 0, lastNfn m, body⟩

/-- A TIME record (R401): meter time before the event, and the reason. -/
def timeRecord (m : MeterSt) (before : Int) (reason : Nat) (o : Int) : MeterSt :=
  ownRecord m 6 (ts80 before ++ [BitVec.ofNat 8 reason] ++ [0]
    ++ leBytes 8 ((o / nsT) % 2 ^ 64).toNat ++ leBytes 4 (m.drift % 4294967296).toNat)

/-- A total that stops at 2⁶⁴ − 1 (R391). -/
def satTotal (a b : Nat) : Nat := min (a + b) (2 ^ 64 - 1)

/-- The END or PARTIAL record of call `n` for the interval that ends at count `i` and meter
time `t`, in the state `st` (SUSPECT, NOREF), and the totals (R388, R391, R395, R401).
DEDUCED, log entry 83. -/
def closeInterval (m : MeterSt) (n : Nat) (c : OpenCall) (isEnd : Bool) (i : Nat) (t : Int)
    (nfn cause : Nat) (power : Bool) (st : Bool × Bool) : MeterSt :=
  let y := tallyOf m c.ic i
  let durms := inMs (i - c.ic)
  let band := match bandNow m t i, calAt m i, y.parts with
    | some b, _, _ => some b
    | none, none, _ => none
    | none, some _, p :: _ => some p.1
    | none, some c, [] => some (lastBand c)
  let ms := bandMs y.parts durms
  let calls := if isEnd then 1 else 0
  let sat := decide (2 ^ 64 - 1 < m.totCalls + calls) || decide (2 ^ 64 - 1 < m.totMs + durms)
    || (m.totBand.zip ms).any fun x => decide (2 ^ 64 - 1 < x.1 + x.2.toNat)
  let m1 := { m with
    totCalls := satTotal m.totCalls calls
    totMs := satTotal m.totMs durms
    totBand := (m.totBand.zip ms).map fun x => satTotal x.1 x.2.toNat }
  let fl := timeFlags (y.suspect || st.1) (y.noref || st.2)
    + boolBit (y.ext || ((calAt m i).isSome && (bandNow m t i).isNone)) 4 + boolBit sat 5 + boolBit c.adopted 6 + boolBit power 7
  writeRecord m1 ⟨if isEnd then 2 else 4, fl, band, n, t, c.ref.toNat, nfn,
    ts80 c.time ++ [BitVec.ofNat 8 cause] ++ [0] ++ leBytes 4 durms
      ++ (ms.flatMap fun x => leBytes 4 (x % 4294967296).toNat) ++ leBytes 8 m1.totCalls ++ leBytes 8 m1.totMs⟩

/-- The PARTIAL records due before interval count `i` written (R387). -/
def writePartials (fuel : Nat) (m : MeterSt) (n i : Nat) : MeterSt :=
  match fuel with
  | 0 => m
  | fuel + 1 =>
    match smapGet none m.open_ n with
    | none => m
    | some c =>
      let k := c.ic + dayT
      if k ≤ i then
        let t := timeAt m k
        let m1 := closeInterval m n c false k t (lastNfn m) 0xF1 false (false, false)
        writePartials fuel { m1 with open_ := smapPut none m1.open_ n (some { c with time := t, ic := k }) } n i
      else m

/-- Call `n` closed at interval count `i` and meter time `t` in the state `st`. -/
def endCall (m : MeterSt) (n i : Nat) (t : Int) (nfn cause : Nat) (power : Bool) (st : Bool × Bool) : MeterSt :=
  let m1 := writePartials ((i - m.ic + dayT) / dayT + i / dayT + 1) m n i
  match smapGet none m1.open_ n with
  | none => m1
  | some c =>
    let m2 := closeInterval m1 n c true i t nfn cause power st
    { m2 with open_ := smapPut none m2.open_ n none }

/-! ## Acceptance (R389) -/

def openCount (m : MeterSt) : Nat := m.open_.length

/-- JFREE (R402). -/
def jfree (s : State) : Nat := jcap s - (s.meter.rseq - s.meter.jrel)

/-- The first of the conditions 0x81 to 0x84 of R389 that fails, 0 for none. -/
def meterRefusal (s : State) : Nat :=
  let m := s.meter
  if m.mode ≠ .run then 0x81
  else if jfree s < openCount m + (sealReg m offMeterJres).toNat ∨ 128 ≤ m.buffer.length then 0x82
  else if 2 ^ 64 - 2 ^ 16 ≤ m.totCalls ∨ 2 ^ 64 - 2 ^ 48 ≤ m.totMs
      ∨ (m.totBand.any fun x => decide (2 ^ 64 - 2 ^ 48 ≤ x)) then 0x83
  else if m.valid = false then 0x84
  else 0

/-- Whether a calendar is in force at meter time `t` and interval count `i`. -/
def calendarIn (m : MeterSt) (t : Int) (i : Nat) : Bool :=
  match calAt m i with
  | none => false
  | some p => calendarValid p t

/-- The first condition of R389 that fails at meter time `t`, 0 for none.
DEDUCED, log entry 77. -/
def newCallCode (s : State) (t : Int) (i : Nat) : Nat :=
  if meterRefusal s ≠ 0 then meterRefusal s else if calendarIn s.meter t i then 0 else 0x85

/-- The new-call reason with which a call command is refused, as it stood at its stamp (R387); a set
applies from the stamp of its COMMIT.
DEDUCED, log entry 77. -/
def stampCode (m : MeterSt) (c : MeterCmd) : Nat :=
  if c.refuse ≠ 0 then c.refuse else if calendarIn m c.time c.ic then 0 else 0x85

/-! ## Parameters, audit and sealing (R397, R404, R405) -/

/-- The 856 bytes of a parameter set (R405). -/
def imageOf (p : SMap (Word × Word)) : List Byte :=
  (List.range 107).flatMap fun i => leBytes 4 (paramGet p i).1.toNat ++ leBytes 4 (paramGet p i).2.toNat

/-- A parameter set read back from an image. -/
def setOfImage (bs : List Byte) : SMap (Word × Word) :=
  (List.range 107).foldl (fun p i => paramPut p i (wordOf (leAt bs (8 * i) 4), wordOf (leAt bs (8 * i + 4) 4))) []

/-- The committed set as it stands. -/
def committedNow (m : MeterSt) : SMap (Word × Word) := m.committed

/-- An audit entry (R405). -/
def auditEntry (seq : Nat) (t : Int) (kind : Nat) (image : List Byte) : List Byte :=
  leBytes 8 seq ++ ts80 t ++ leBytes 1 kind ++ [0] ++ (sha256 image).take 12

/-- A hallmarked parameter image for the storage controller (R429). -/
def sendImage (s : State) (image : List Byte) : State :=
  nandPut s { s.nand with images := s.nand.images ++ [image ++ aesCmac (hallKey s.meter) image] }

/-- Whether a parameter value lies in its range, and if so the code 0; else its refusal
(R397, R398). -/
def paramCode (id ix : Nat) (v w : Word) : Nat :=
  match paramPlace id ix with
  | none => 0x8A
  | some _ =>
    match id with
    | 1 => if -50400 ≤ v.toInt ∧ v.toInt ≤ 50400 ∧ w = 0 then 0 else 0x8A
    | 2 => if v.toNat ≤ 255 ∧ w = 0 then 0 else 0x8A
    | 3 | 4 => if w ≠ 0 then 0x8A else if dateOk v then 0 else 0x8B
    | 5 => if v.toNat ≤ 3 ∧ w = 0 then 0 else 0x8A
    | 6 => if v.toNat < 0x40000 ∧ w = 0 ∧ (fld v 15 0 ≤ 1439 ∨ fld v 15 0 = 0xFFFF) then 0 else 0x8A
    | _ => if 3 < w.toNat then 0x8A else if v = 0 ∨ dateOk v then 0 else 0x8B

/-! ## Commands (R383–R387) -/

def cmdW (c : MeterCmd) (i : Nat) : Word := c.w.getD i 0
def mOpcode (c : MeterCmd) : Nat := fld (cmdW c 0) 7 0
def mChan (c : MeterCmd) : Nat := fld (cmdW c 0) 31 16
def mNfn (c : MeterCmd) : Nat := (cmdW c 2).toNat + (cmdW c 3).toNat * 4294967296

/-- Whether a command is free of reserved bits, and its channel good (R385, R408).
DEDUCED, log entry 76. -/
def meterWordsOk (c : MeterCmd) : Bool :=
  let z := fun (i : Nat) => cmdW c i == 0
  let call := mOpcode c == 1 || mOpcode c == 2 || mOpcode c == 3
  let words := match mOpcode c with
    | 0x01 => z 4 && z 5 && z 6 && z 7
    | 0x02 => fld (cmdW c 4) 31 8 == 0 && z 5 && z 6 && z 7
    | 0x03 => fld (cmdW c 5) 31 17 == 0 && z 7
    | 0x10 => true
    | 0x20 => z 6 && z 7
    | _ => z 4 && z 5 && z 6 && z 7
  fld (cmdW c 0) 15 8 == 0 && words && (call || z 1)
    && (decide (mChan c < 16384) || (! call && mChan c == 0xFFFF))

/-- Whether an opcode is one of R386. -/
def meterOpcode (n : Nat) : Bool := [1, 2, 3, 0x10, 0x11, 0x12, 0x20, 0x21, 0x22].contains n

/-- METER_STAT's count of queued commands.
DEDUCED, log entry 86. -/
def putQcount (s : State) : State := csrSetFld s offMeterStat 4 0 s.meter.q.length

/-- A command completed (R383): result, the record it wrote, and the refusal event. -/
def meterDone (s : State) (c : MeterCmd) (code rseq : Nat) : State :=
  let s1 := csrPut s offMeterCres (wordOf (c.cseq * 0x10000 + code))
  let s2 := csrPut (csrPut s1 offMeterCrseqLo (wordOf rseq)) offMeterCrseqHi (wordOf (rseq / 4294967296))
  if code ≠ 0 ∧ bitOf (csrGet s2 offMeterCtl) 1 then
    raise s2 meterSrc 3 (mChan c) 0 (leBytes 2 c.cseq ++ leBytes 1 (mOpcode c) ++ leBytes 1 code)
  else s2

/-- Commands of an unknown opcode at the head complete with code 0x87 (R408).
DEDUCED, log entry 76. -/
def meterDrain (fuel : Nat) (s : State) : State :=
  match fuel with
  | 0 => s
  | fuel + 1 =>
    match s.meter.q with
    | [] => putQcount s
    | c :: r =>
      if meterOpcode (mOpcode c) then putQcount s
      else meterDrain fuel (meterDone (meterPut s { s.meter with q := r }) c 0x87 0)

/-- METER_CMDGO written with GO (R383).
DEDUCED, log entry 79. -/
def meterGo (s : State) : State :=
  let s0 := meterNow s
  let w := (List.range 8).map fun i => csrGet s0 (offMeterCmd + 4 * i)
  let seq := csrFld s0 offMeterCsent 15 0
  if 16 ≤ s0.meter.q.length then
    let s1 := csrSetBit s0 offMeterStat 21 true
    if bitOf (csrGet s1 offMeterCtl) 1 then
      raise s1 meterSrc 3 (fld (w.getD 0 0) 31 16) 0 (leBytes 2 seq ++ leBytes 1 (fld (w.getD 0 0) 7 0) ++ leBytes 1 0x86)
    else s1
  else
    let n := (seq + 1) % 65536
    let s1 := csrPut s0 offMeterCsent (wordOf n)
    let m := s1.meter
    if m.power then
      let c : MeterCmd := ⟨w, n, m.time / usT * usT, m.ic, false, m.suspect, m.noref, meterRefusal s1⟩
      meterDrain 17 (meterPut s1 { m with q := m.q ++ [c] })
    else s1

/-- A CALL_ADOPT sent by the mirror controller (R463): it counts as a GO.
DEDUCED, log entry 112. -/
def sendAdopt (s : State) (n : Nat) (x : MirrCall) : State :=
  let seq := (csrFld s offMeterCsent 15 0 + 1) % 65536
  let secs := beAt x.stamp 0 6
  let w := [wordOf (3 + n * 0x10000), wordOf x.ref, wordOf (nfnOf s), wordOf (nfnOf s / 4294967296), wordOf secs,
    wordOf (secs / 4294967296 + x.pair * 0x10000), wordOf (beAt x.stamp 6 4), 0]
  let m := s.meter
  let s1 := meterPut (csrPut s offMeterCsent (wordOf seq))
    { m with q := m.q ++ [⟨w, seq, m.time / usT * usT, m.ic, true, m.suspect, m.noref, meterRefusal s⟩] }
  putQcount (mirrPut s1 { s1.mirr with adopts := s1.mirr.adopts.filter fun a => a.1 != n })

/-- Adoptions sent as far as the controller's 8 places and the queue allow, with fuel (R463).
DEDUCED, log entry 112. -/
def adoptPump (fuel : Nat) (s : State) : State :=
  match fuel with
  | 0 => s
  | fuel + 1 =>
    match s.mirr.adopts with
    | [] => s
    | (n, x) :: _ =>
      if s.meter.power ∧ s.meter.q.length < 16 ∧ (s.meter.q.filter fun c => c.mirr).length < 8 then
        adoptPump fuel (sendAdopt s n x)
      else s

/-- The adoption of the call that a CALL_END about to be sent names goes ahead of it (R463).
DEDUCED, log entry 112. -/
def adoptFirst (s : State) : State :=
  let w := csrGet s offMeterCmd
  if fld w 7 0 = 2 then
    match s.mirr.adopts.find? fun a => a.1 == fld w 31 16 with
    | some a => if s.meter.power ∧ s.meter.q.length < 16 then sendAdopt (meterNow s) a.1 a.2 else s
    | none => s
  else s

def execMeterCmdGo (s : State) : Result := .next (meterGo (adoptFirst s))

/-- The oldest command performed when its opcode is `op`: its effect gives the state, the
code and the RSEQ it wrote.
DEDUCED, log entry 77. -/
def meterPerform (s : State) (op : Nat) (f : State → MeterCmd → State × Nat × Nat) : State :=
  let s0 := meterNow s
  match s0.meter.q with
  | [] => s
  | c :: r =>
    if mOpcode c = op ∧ s0.meter.power then
      let s1 := meterPut s0 { s0.meter with q := r }
      if meterWordsOk c then
        let x := f s1 c
        adoptPump 8 (meterDrain 17 (meterDone x.1 c x.2.1 x.2.2))
      else adoptPump 8 (meterDrain 17 (meterDone s1 c 0x87 0))
    else s

/-- A call opened: the open-call entry, and the START or ADOPT record.
DEDUCED, log entry 77. -/
def openCall (s : State) (c : MeterCmd) (adopted : Bool) (body : List Byte) : State × Nat × Nat :=
  let m := s.meter
  let n := mChan c
  if m.mode = .fault then (s, 0x81, 0)
  else if (smapGet none m.open_ n).isSome then (s, 0x88, 0)
  else
    let code := stampCode m c
    if code ≠ 0 then (s, code, 0)
    else
      let m1 := { m with open_ := smapPut none m.open_ n (some ⟨cmdW c 1, adopted, c.time, c.ic, c.time, c.ic⟩) }
      let b := if adopted then body else leBytes 2 (openCount m1)
      let m2 := writeRecord m1 ⟨if adopted then 3 else 1,
        timeFlags c.suspect c.noref + boolBit adopted 6, bandNow m c.time c.ic, n, c.time,
        (cmdW c 1).toNat, mNfn c, b⟩
      (mirrCall (meterPut s m2) n (if adopted then 2 else 1) (cmdW c 1).toNat (ts80 c.time) false, 0, nextSeq m1)

def execCallStart (s : State) : Result := .next (meterPerform s 1 fun a c => openCall a c false [])

def execCallAdopt (s : State) : Result :=
  .next (meterPerform s 3 fun a c => openCall a c true
    (leBytes 4 (cmdW c 4).toNat ++ leBytes 2 (fld (cmdW c 5) 15 0) ++ leBytes 4 (cmdW c 6).toNat
      ++ leBytes 1 (fld (cmdW c 5) 16 16)))

/-- CALL_END (R387, R388). -/
def callEnd (s : State) (c : MeterCmd) : State × Nat × Nat :=
  let n := mChan c
  match smapGet none s.meter.open_ n with
  | none => (s, 0x89, 0)
  | some x =>
    if x.ref ≠ cmdW c 1 then (s, 0x89, 0)
    else
      let m := endCall s.meter n c.ic c.time (mNfn c) (fld (cmdW c 4) 7 0) false (c.suspect, c.noref)
      (mirrCall (meterPut s m) n 3 x.ref.toNat (ts80 x.start) false, 0, m.rseq)

def execCallEnd (s : State) : Result := .next (meterPerform s 2 callEnd)

/-- PARAM (R397, R398). -/
def stageParam (s : State) (c : MeterCmd) : State × Nat × Nat :=
  let m := s.meter
  if m.mode = .fault then (s, 0x92, 0)
  else
    let id := (cmdW c 4).toNat
    let ix := (cmdW c 5).toNat
    let code := paramCode id ix (cmdW c 6) (cmdW c 7)
    match paramPlace id ix with
    | none => (s, code, 0)
    | some k =>
      if code ≠ 0 then (s, code, 0)
      else (meterPut s { m with staged := paramPut m.staged k (cmdW c 6, cmdW c 7) }, 0, 0)

def execParam (s : State) : Result := .next (meterPerform s 0x10 stageParam)

/-- The registers METER_PDIG0–7 of the committed set. -/
def putPdig (s : State) : State :=
  let d := if s.meter.hasSet then sha256 (imageOf s.meter.committed) else zeros 32
  (List.range 8).foldl (fun a i => csrPut a (offMeterPdig + 4 * i) (wordOf (beAt d (4 * i) 4))) s

/-- The code with which COMMIT is refused, 0 for none (R387, R399, R405). -/
def commitCode (m : MeterSt) : Nat :=
  if m.mode = .fault then 0x92
  else if setOk m.staged = false then 0x8C
  else if m.sealed_ ∧ m.prog = false then 0x8D
  else if m.sealed_ ∧ 1024 ≤ m.audit.length then 0x8E
  else 0

/-- The audit entry of a COMMIT burned (R405). -/
def burnCommit (m : MeterSt) (c : MeterCmd) : MeterSt :=
  if m.sealed_ then { m with audit := m.audit ++ [auditEntry (nextSeq m) c.time 2 (imageOf m.staged)] } else m

/-- The staged set applied and its PARAM record written, behind the audit entry (R399, R405). -/
def applyCommit (s : State) (c : MeterCmd) : State × Nat × Nat :=
  let m := s.meter
  let image := imageOf m.staged
  let m1 := { m with committed := m.staged, hasSet := true, cals := (c.ic, m.staged) :: m.cals }
  let m2 := writeRecord m1 ⟨5, timeFlags c.suspect c.noref, bandNow m1 c.time c.ic, mChan c, c.time, 0,
    mNfn c, sha256 image ++ leBytes 2 (if m.sealed_ then m.audit.length - 1 else 0xFFFF)⟩
  (putPdig (sendImage (meterPut s m2) image), 0, nextSeq m)

/-- COMMIT (R399, R405). -/
def commitSet (s : State) (c : MeterCmd) : State × Nat × Nat :=
  if commitCode s.meter ≠ 0 then (s, commitCode s.meter, 0)
  else applyCommit (meterPut s (burnCommit s.meter c)) c

def execCommit (s : State) : Result := .next (meterPerform s 0x11 commitSet)

def execDiscard (s : State) : Result :=
  .next (meterPerform s 0x12 fun a _ => (meterPut a { a.meter with staged := a.meter.committed }, 0, 0))

/-- RELEASE (R402, R428).
DESIGN CHOICE, log entry 190. -/
def releaseTo (s : State) (c : MeterCmd) : State × Nat × Nat :=
  let m := s.meter
  let r := (cmdW c 4).toNat + (cmdW c 5).toNat * 4294967296
  if m.mode = .fault then (s, 0x92, 0)
  else if r < m.jrel ∨ m.jrseq < r then (s, 0x91, 0)
  else
    let m1 := { m with jrel := r }
    let m2 := writeRecord m1 ⟨9, timeFlags c.suspect c.noref, bandNow m c.time c.ic, mChan c, c.time, 0,
      mNfn c, leBytes 8 r⟩
    (freeReleased (meterPut { s with free := s.free + 1 } m2) ⟨false, Config.flashFails s.free, [], []⟩ r, 0, nextSeq m1)

def execRelease (s : State) : Result := .next (meterPerform s 0x20 releaseTo)

/-- Whether the storage controller takes handovers (R390, R430). -/
def handoverOpen (s : State) : Bool := decide (0 < jfree s) && ! readOnlyPart s 3

/-- The oldest `n` buffered records handed to the storage controller. -/
def handGroup (s : State) (n : Nat) : State :=
  let m := s.meter
  let s1 := meterPut s { m with buffer := m.buffer.drop n }
  nandPut s1 { s1.nand with hand := s1.nand.hand ++ [(m.buffer.take n).map fun x => x.2] }

/-- Every buffered record handed over (R402). -/
def handAll (fuel : Nat) (s : State) : State :=
  match fuel with
  | 0 => s
  | fuel + 1 => if s.meter.buffer.isEmpty || ! handoverOpen s then s else handAll fuel (handGroup s 32)

def execFlush (s : State) : Result := .next (meterPerform s 0x21 fun a _ => (handAll 8 a, 0, 0))

/-- The self-test of R406; `failed` is the test that fails, 0 for none. -/
def selfTest (m : MeterSt) (failed : Nat) : MeterSt :=
  let m1 := { m with testAt := m.time }
  if failed = 0 then { m1 with mode := .run }
  else { ownRecord m1 0x0B (leBytes 1 failed) with mode := .fault }

def execSelftest (failed : Nat) (s : State) : Result :=
  .next (meterPerform s 0x22 fun a _ =>
    (meterPut a (selfTest a.meter failed), 0, if failed = 0 then 0 else nextSeq a.meter))

/-! ## Sealing prerequisites and keys (R404, R407) -/

/-- OWNER of the SEAL registers. -/
def sealOwner (m : MeterSt) : Nat := (sealReg m offMeterOwnerLo).toNat + (sealReg m offMeterOwnerHi).toNat * 4294967296

/-- The 64 bytes of METER_AUTHPUB. -/
def sealAuth (m : MeterSt) : List Byte :=
  (List.range 16).flatMap fun i => beBytes 4 (sealReg m (offMeterAuthpub + 4 * i)).toNat

def pointOf (b : List Byte) : Nat × Nat := (beAt b 0 32, beAt b 32 32)

/-- ARM stands and has not lapsed (R404). -/
def armStands (m : MeterSt) : Bool :=
  match m.armed with
  | none => false
  | some i => decide (m.ic ≤ i + secT)

/-- The code with which SEAL is refused, 0 for none (R404). -/
def sealCode (m : MeterSt) : Nat :=
  if m.sealed_ then 0x8F
  else if m.prog = false then 0x8D
  else if armStands m = false ∨ sealOwner m = 0 ∨ onCurve (pointOf (sealAuth m)) = false ∨ m.hasSet = false
      ∨ m.valid = false then 0x90
  else 0

/-- The meter's public key (R407). -/
def meterPub : Nat × Nat := pointMul (Config.meterRoot % (p256N - 1) + 1) p256G

/-- METER_HMKBLOB: the wrapped hallmark key (R407), zero before sealing.
DEDUCED, log entry 84. -/
def hmkBlob (m : MeterSt) : List Byte :=
  if m.sealed_ then
    let x := (pointMul (Config.meterRoot % (p256N - 1) + 1) (pointOf (sealAuth m))).1
    let info := ("KH7160 HMK".toList.map fun c => BitVec.ofNat 8 c.toNat) ++ leBytes 8 (sealOwner m)
    keyWrap (hkdf (zeros 32) (beBytes 32 x) info 16) (m.hmk.getD (zeros 16))
  else zeros 24

/-! ## What the METER block shows (R382, R409, R410) -/

/-- METER_STAT as the meter reports it. -/
def meterStatWord (s : State) : Word :=
  let m := s.meter
  let mode := match m.mode with
    | .selftest => 0
    | .run => 1
    | .fault => 2
  wordOf (boolBit m.present 31 + boolBit m.sealed_ 30 + boolBit m.valid 29 + boolBit m.suspect 28
    + boolBit m.noref 27 + boolBit m.prog 26 + mode * 0x1000000
    + boolBit ((List.range 107).any fun i => paramGet m.staged i != paramGet m.committed i) 23
    + boolBit m.armed.isSome 22 + boolBit (bitOf (csrGet s offMeterStat) 21) 21 + m.q.length)

/-- METER_STAT written, with the state-change event (R409). -/
def putMeterStat (s : State) : State :=
  let old := csrGet s offMeterStat
  let new := meterStatWord s
  let s1 := csrPut s offMeterStat new
  if fld old 31 22 = fld new 31 22 then s1
  else raise0 s1 meterSrc 1 (fld new 31 22) (leBytes 4 old.toNat)

/-- METER_STAT written while the status link reports (R382). -/
def tellStat (s : State) : State := if s.meter.present then putMeterStat s else s

/-- METER_NEWCALL written, with the new-call event (R409). -/
def putNewcall (s : State) (code : Nat) : State :=
  let new := wordOf (boolBit (code == 0) 31 + code)
  let s1 := csrPut s offMeterNewcall new
  if csrGet s offMeterNewcall = new ∨ bitOf (csrGet s offMeterCtl) 0 = false then s1
  else raise0 s1 meterSrc 2 (boolBit (code == 0) 0) (leBytes 1 code)

/-- A 64-bit value into a pair of registers. -/
def putPair (s : State) (o n : Nat) : State := csrPut (csrPut s o (wordOf n)) (o + 4) (wordOf (n / 4294967296))

/-- The totals into their counters. -/
def putTotals (s : State) : State :=
  let l := s.meter.totCalls :: s.meter.totMs :: s.meter.totBand
  (List.range 6).foldl (fun a k =>
    { a with cnt := smapPut 0 a.cnt (offMeterTot + 8 * k) (BitVec.ofNat 64 (l.getD k 0)) }) s

/-- The SEAL registers as the meter holds them. -/
def putSealRegs (s : State) : State :=
  ([offMeterOwnerLo, offMeterOwnerHi, offMeterXcomp, offMeterJres]
    ++ (List.range 16).map fun i => offMeterAuthpub + 4 * i).foldl
    (fun a o => csrPut a o (sealReg s.meter o)) s

/-- METER_SWCHK0–7 (R406). -/
def putSwchk (s : State) : State :=
  let d := beBytes 32 Config.meterRom
  (List.range 8).foldl (fun a i => csrPut a (offMeterSwchk + 4 * i) (wordOf (beAt d (4 * i) 4))) s

/-- Journal and discipline registers. -/
def putMeterValues (s : State) : State :=
  let m := s.meter
  let us := clampInt (-2147483648) 2147483647 (m.ofs / (usT : Int))
  let s1 := csrPut s offMeterTofs (wordOfInt us)
  let s2 := csrPut (csrPut s1 offMeterTdrift (wordOfInt m.drift)) offMeterTrate (wordOfInt m.rate)
  let s3 := putPair (putPair s2 offMeterJrseqLo m.jrseq) offMeterJrelLo m.jrel
  let s4 := csrPut (csrPut s3 offMeterJcap (wordOf (jcap s))) offMeterJfree (wordOf (jfree s))
  let s5 := csrPut (csrPut s4 offMeterJlost (wordOf m.jlost)) offMeterOpen (wordOf (openCount m))
  let s6 := csrPut s5 offMeterAuditn (wordOf m.audit.length)
  csrPut s6 offMeterBadtick (wordOf (satAdd 0xFFFF (csrFld s offMeterBadtick 15 0) m.badTicks))

/-- Journal events (R409). -/
def journalEvents (s : State) : State :=
  let m := s.meter
  let low := decide (jfree s < 2 * (openCount m + (sealReg m offMeterJres).toNat))
  let s1 := if low && ! m.lowTold then raise0 s meterSrc 4 0 (leBytes 4 (jfree s)) else s
  let s2 := if m.lostTold < m.jlost then raise0 s1 meterSrc 5 0 (leBytes 4 m.jlost) else s1
  meterPut s2 { m with lowTold := low, lostTold := m.jlost, badTicks := 0 }

/-- A report over the status link (R382). The level of METER_PROG_N that the meter then sees is an
input that no command of the table carries: it is free (R538).
DEDUCED, log entry 86; DESIGN CHOICE, log entry 189. -/
def meterRefresh (s : State) : State :=
  let s0 := meterNow s
  if s0.meter.power then
    let pin := Config.meterNum s0.free % 2 == 1
    let m := { s0.meter with present := true, toldAt := elapsed s0.time, prog := pin }
    let s1 := meterPut { s0 with free := s0.free + 1 } { m with told := ⟨m.open_, m.audit, hmkBlob m, m.time⟩ }
    let s2 := putMeterValues s1
    let s3 := putTotals (putSealRegs (putSwchk (putPdig s2)))
    putNewcall (putMeterStat (journalEvents s3)) (newCallCode s3 s3.meter.time s3.meter.ic)
  else s

def execMeterStatusRefresh (s : State) : Result := .next (adoptPump 8 (meterRefresh s))

/-- METER_STAT.PRESENT cleared, with the state-change event, and nothing else of METER_STAT (R382). -/
def clearPresent (s : State) : State :=
  let old := csrGet s offMeterStat
  let s1 := csrSetBit s offMeterStat 31 false
  if bitOf old 31 then raise0 s1 meterSrc 1 (fld (csrGet s1 offMeterStat) 31 22) (leBytes 4 old.toNat) else s1

/-- 10 ms of silence on the status link (R382); meter time stands still as it was last reported. -/
def meterSilent (s : State) : State :=
  if s.meter.present ∧ s.meter.toldAt + 10000000 ≤ elapsed s.time then
    putNewcall (clearPresent (meterPut s { s.meter with present := false })) 0x80
  else s

def execMeterLinkSilent (s : State) : Result := .next (meterSilent s)

/-- Meter time as the METER block has it: the last report, run on while reports come.
DEDUCED, log entry 86. -/
def toldTime (s : State) : Int :=
  let m := s.meter
  m.told.time + (if m.present then ((elapsed s.time - m.toldAt : Nat) : Int) * nsT else 0)

/-- METER_TNS read (R410): nanoseconds, accurate to 10 µs, with the seconds latched; before the first
report both stand at their reset values. -/
def readTns (s : State) : Word × State :=
  let s0 := meterNow s
  let err : Int := (Config.meterNum s0.free % 20001 : Nat)
  let t := if s0.meter.told = MeterTold.reset then 0 else max 0 (toldTime s0 + (err - 10000) * nsT)
  let sec := ((t / secT) % 2 ^ 48).toNat
  let s1 := putPair { s0 with free := s0.free + 1 } offMeterTsecLo sec
  (wordOf ((t % secT) / nsT).toNat, s1)

def execMeterTnsRead (s : State) : Result :=
  .next (let x := readTns s
    answer x.2 x.1)

/-! ## Ticks, self-tests and power (R393–R396, R406) -/

/-- Whether a tick is valid (R393). -/
def tickValid (m : MeterSt) (n : Nat) : Bool :=
  n % 8000 == 0 &&
    match m.lastTick with
    | none => true
    | some x => n == x.1 + 8000 || decide (x.2 + 1500000000 * (nsT : Int) ≤ m.time)

/-- The drift measured over 64 ticks (R394), in ppb.
DEDUCED, log entry 78. -/
def driftOf (xt : Nat) : Int := roundDiv ((64 * (secT : Int) - xt) * 1000000000) xt

/-- The drift measurement at a valid tick that follows the last one (`seq`) or not.
DEDUCED, log entry 78. -/
def driftTick (m : MeterSt) (seq : Bool) : MeterSt :=
  if seq = false ∨ m.driftRun = 0 then { m with driftRun := 1, driftXt := m.xt }
  else if m.driftRun < 64 then { m with driftRun := m.driftRun + 1 }
  else
    let d := driftOf (m.xt - m.driftXt)
    let m1 := { m with drift := d, driftRun := 1, driftXt := m.xt }
    if d.natAbs ≤ 100000 then { m1 with rate := m1.rate + roundDiv (d - m1.rate) 4 }
    else timeRecord { m1 with suspect := true } m1.time 2 m1.ofs

/-- Sixteen offsets within 1 ms of one another (R394). -/
def farWindow (l : List Int) : Bool :=
  decide (16 ≤ l.length) && l.all fun a => l.all fun b => decide (a - b ≤ (msT : Int))

/-- A valid tick judged (R394). An o of more than 1 s also ends a slew in progress.
DEDUCED, log entry 78. -/
def tickJudge (m : MeterSt) (n : Nat) (seq : Bool) : MeterSt :=
  let o : Int := (n : Int) * 125000 * nsT - m.time
  let far := decide ((secT : Int) < o.natAbs)
  let m1 := driftTick { m with
    ofs := o
    resid := if far then 0 else o
    suspect := m.suspect || far
    goodRun := if far then 0 else m.goodRun + 1
    farOfs := if far then (o :: m.farOfs).take 16 else [] } seq
  let m2 :=
    if farWindow m1.farOfs then timeRecord { m1 with time := m1.time + o, resid := 0, farOfs := [] } m1.time 1 o
    else m1
  if 64 ≤ m2.goodRun ∧ m2.drift.natAbs ≤ 100000 then { m2 with suspect := false } else m2

/-- A tick carrying NFN `n` reaches the meter (R393, R394).
DEDUCED, log entry 78. -/
def tickMeter (m : MeterSt) (n : Nat) : MeterSt :=
  if tickValid m n then
    let seq := match m.lastTick with
      | none => false
      | some x => n == x.1 + 8000
    let m1 := { m with lastTick := some (n, m.time), refIc := m.ic }
    let m2 := if m1.noref then timeRecord { m1 with noref := false } m1.time 4 m1.ofs else m1
    let m3 :=
      if m2.valid then tickJudge m2 n seq
      else
        let t : Int := (n : Int) * 125000 * nsT
        let o := t - m2.time
        timeRecord { m2 with
          time := t
          valid := true
          rate := 0
          resid := 0
          suspect := true
          ofs := 0
          goodRun := 1
          farOfs := []
          driftRun := 1
          driftXt := m2.xt } m2.time 5 o
    { m3 with lastTick := some (n, m3.time) }
  else { m with badTicks := satAdd 0xFFFF m.badTicks 1, goodRun := 0, farOfs := [], driftRun := 0 }

/-- An NFN second tick; `skew` is what the crystal does from here on. -/
def execMeterTick (n : Nat) (skew : Crystal) (s : State) : Result :=
  .next (let s0 := meterNow s
    if s0.meter.power then meterPut s0 { tickMeter s0.meter n with skew := skew.ppb, temp := skew.temp }
    else s)

/-- 2 s without a valid tick (R393, R394). -/
def execMeterNoref (s : State) : Result :=
  .next (let s0 := meterNow s
    let m := s0.meter
    if m.power ∧ m.noref = false ∧ m.refIc + 2 * secT ≤ m.ic then
      meterPut s0 (timeRecord { m with noref := true } m.time 3 m.ofs)
    else s)

/-- The PARTIAL record of call `n` at its 24 h mark (R387). -/
def execMeterPartial (n : Nat) (s : State) : Result :=
  .next (let s0 := meterNow s
    if s0.meter.power then
      meterPut s0 (match smapGet none s0.meter.open_ n with
        | none => s0.meter
        | some c => writePartials 1 s0.meter n (min s0.meter.ic (c.ic + dayT)))
    else s)

/-- The handover of R402: 32 records, or those of more than 1 s. -/
def execMeterHandover (s : State) : Result :=
  .next (let s0 := meterNow s
    let m := s0.meter
    if m.power ∧ handoverOpen s0 then
      match m.buffer with
      | [] => s
      | x :: _ => if 32 ≤ m.buffer.length ∨ x.1 + secT ≤ m.ic then handGroup s0 32 else s
    else s)

/-- What a loss of VMETER leaves of a SEAL or a COMMIT under way (R404, R405): SEAL and COMMIT are
performed whole when their command is given, so one under way is one that could have been given;
whether it was, and had burned its key or its audit entry, is free.
DESIGN CHOICE, log entry 80. -/
def cutShort (s : State) : State :=
  let m := s.meter
  let begun := Config.meterNum s.free % 2 == 1
  let s1 := { s with free := s.free + 2 }
  if sealCode m = 0 ∧ m.hmk = none ∧ begun then
    meterPut s1 { m with hmk := some (beBytes 16 (Config.meterHmk (s.free + 1))) }
  else
    match m.q with
    | [] => s
    | c :: _ =>
      if mOpcode c = 0x11 ∧ meterWordsOk c ∧ commitCode m = 0 ∧ begun then
        meterPut s1 { burnCommit m c with half := some c }
      else s

/-- VMETER fails (R384, R396). -/
def meterFail (s : State) : State :=
  let s0 := cutShort (meterNow s)
  let m := s0.meter
  if m.power then meterPut s0 { m with power := false, failAt := m.time, failIc := m.ic, q := [] } else s

def execMeterPowerFail (s : State) : Result := .next (meterFail s)

/-- Two lists merged turn by turn: images are written to the two parameter blocks in turn (R429). -/
def inTurn (a b : List (List Byte)) : List (List Byte) :=
  match a, b with
  | [], b => b
  | a, [] => a
  | x :: r, y :: t => x :: y :: inTurn r t

/-- The parameter images that the storage controller offers, newest first (R429). -/
def offeredImages (s : State) : List (List Byte) :=
  let block := fun (lb : Nat) =>
    match findBlock s 3 lb with
    | none => []
    | some g => (((blockUnits s g).filter fun u => ! u.2.lost).map fun u => u.2.data).reverse
  s.nand.images.reverse ++ inTurn (block s.nand.paramAt) (block (1 - s.nand.paramAt))

/-- The committed set after a power-up (R405): the image that the latest audit entry names. -/
def reloadSet (s : State) (m : MeterSt) (lost : Bool) : MeterSt :=
  let good := (offeredImages s).filter fun i => aesCmac (hallKey m) (i.take 856) == i.drop 856
  let take := fun (i : List Byte) =>
    let p := setOfImage (i.take 856)
    { m with committed := p, hasSet := true, cals := (m.ic, p) :: m.cals, staged := if lost then p else m.staged }
  match m.audit.getLast? with
  | some e =>
    match good.find? fun i => (sha256 (i.take 856)).take 12 == e.drop 20 with
    | some i => take i
    | none => { m with mode := .fault, hasSet := false, cals := [] }
  | none =>
    if lost then
      match good with
      | [] => { m with committed := [], staged := [], hasSet := false, cals := [] }
      | i :: _ => take i
    else m

/-- The journalled records, by rising RSEQ of their slots.
DEDUCED, log entry 82. -/
def journalRecs (s : State) : List (List Byte) :=
  (recordBlocks s).flatMap fun g => (blockUnits s g).flatMap fun u => if u.2.lost then [] else unitRecs u.2

/-- What is left of the meter when the backup supply has failed too (R392, R396).
DEDUCED, log entry 82. -/
def backupLost (s : State) (m : MeterSt) : MeterSt :=
  let recs := journalRecs s
  let at_ := fun (p : List Byte → Bool) => recs.foldl (fun best r =>
    if p r then
      match best with
      | none => some r
      | some b => if recSeq b < recSeq r then some r else best
    else best) none
  let ends := at_ fun r => byteAt r 1 == 2 || byteAt r 1 == 4
  let free := fun (k : Nat) => Config.meterNum (s.free + k) % 2 ^ 64
  { m with
    valid := false
    suspect := false
    noref := false
    lastTick := none
    resid := 0
    rate := 0
    goodRun := 0
    farOfs := []
    driftRun := 0
    refIc := m.ic
    half := none
    open_ := []
    trail := []
    buffer := []
    loss := 0
    rseq := m.jrseq
    prev := at_ fun r => recSeq r == m.jrseq
    totCalls := (match ends with
      | some r => leAt r 0x48 8
      | none => 0)
    totMs := (match ends with
      | some r => leAt r 0x50 8
      | none => 0)
    totBand := [free 0, free 1, free 2, free 3]
    failAt := free 4 }

/-- A COMMIT that a power failure interrupted completed from the staged set (R405). -/
def completeCommit (s : State) : State :=
  match s.meter.half with
  | none => s
  | some c => (applyCommit (meterPut s { s.meter with half := none }) c).1

/-- VMETER returns (R396): a COMMIT completed, the self-test, the set reloaded, the POWER record, and
an END for every open call; then the TIME record of a NOREF that the outage has entered (R393, R394).
DEDUCED, log entry 82. -/
def meterReturn (lost pairId : Bool) (failed : Nat) (s : State) : State :=
  let s0 := meterNow s
  if s0.meter.power then s
  else
    let s1 :=
      if lost then
        let t := nandPut s0 { s0.nand with hand := [] }
        meterPut { t with free := t.free + 5 } (backupLost t t.meter)
      else completeCommit s0
    let old := (s1.meter.suspect, s1.meter.noref)
    let enters := ! s1.meter.noref && decide (s1.meter.refIc + 2 * secT ≤ s1.meter.ic)
    let m1 := selfTest { s1.meter with
      power := true
      pairId := pairId
      armed := none
      noref := s1.meter.noref || enters } failed
    let m2 := reloadSet s1 m1 lost
    let calls := m2.open_.map fun kc => kc.1
    let m3 := ownRecord m2 7 (ts80 m2.failAt ++ [BitVec.ofNat 8 lost.toNat] ++ [0] ++ leBytes 2 calls.length)
    let m4 := calls.foldl (fun m n => endCall m n m.failIc m.failAt (lastNfn m) 0xF0 true old) m3
    meterPut s1 (if enters then timeRecord m4 m4.time 3 m4.ofs else m4)

def execMeterPowerReturn (lost pairId : Bool) (failed : Nat) (s : State) : Result :=
  .next (meterReturn lost pairId failed s)

/-- The self-test of every 24 h of meter time (R406). -/
def execMeterPeriodicSelftest (failed : Nat) (s : State) : Result :=
  .next (let s0 := meterNow s
    let m := s0.meter
    if m.power ∧ m.testAt + dayT ≤ m.time then meterPut s0 (selfTest m failed) else s)

/-! ## Sealing (R404, R407) -/

/-- A sealing refused: the command-refused event with no command (DEDUCED, log entry 22). -/
def sealRefused (s : State) (code : Nat) : State :=
  if bitOf (csrGet s offMeterCtl) 1 then raise0 s meterSrc 3 0 (zeros 3 ++ leBytes 1 code) else s

/-- METER_SEALCMD written with ARM; `low` is METER_PROG_N held low.
DEDUCED, log entry 22. -/
def armSeal (low : Bool) (s : State) : State :=
  let s0 := meterNow s
  if s0.meter.power then
    let m := { s0.meter with prog := low }
    if m.sealed_ then tellStat (sealRefused (meterPut s0 m) 0x8F)
    else if low = false then tellStat (sealRefused (meterPut s0 m) 0x8D)
    else tellStat (meterPut s0 { m with armed := some m.ic })
  else s

/-- DEDUCED, log entry 85. -/
def execMeterArm (low : Bool) (s : State) : Result := .next (armSeal low s)

/-- Sealing carried out (R404); an HMK already burned is used again.
DESIGN CHOICE, log entries 80, 190. -/
def sealNow (s : State) : State :=
  let m := s.meter
  let image := imageOf m.committed
  let hmk := m.hmk.getD (beBytes 16 (Config.meterHmk s.free))
  let m1 := { m with
    hmk := some hmk
    audit := [auditEntry 1 m.time 1 image]
    sealed_ := true
    armed := none
    rseq := 0
    prev := none
    buffer := []
    loss := 0
    jrel := 0
    jrseq := 0
    jlost := 0
    lostTold := 0 }
  let m2 := ownRecord m1 8 (beBytes 32 Config.meterRom |>.take 16 |>.append (leBytes 8 (sealOwner m)
    ++ (sha256 (sealAuth m)).take 16 ++ (sha256 image).take 16))
  let s1 := eraseJournal { meterPut s m2 with free := s.free + 1 } ⟨false, Config.flashFails s.free, [], []⟩
  tellStat (sendImage (nandPut s1 { s1.nand with hand := [] }) image)

/-- METER_SEALCMD written with SEAL.
DEDUCED, log entry 22. -/
def sealMeter (low : Bool) (s : State) : State :=
  let s0 := meterNow s
  if s0.meter.power then
    let m := { s0.meter with prog := low }
    let code := sealCode m
    if code = 0 then sealNow (meterPut s0 m)
    else tellStat (sealRefused (meterPut s0 { m with armed := none }) code)
  else s

/-- DEDUCED, log entry 85. -/
def execMeterSeal (low : Bool) (s : State) : Result := .next (sealMeter low s)

/-- ARM lapses after 1 s (R404). -/
def execMeterArmExpire (s : State) : Result :=
  .next (let s0 := meterNow s
    let m := s0.meter
    if m.power ∧ m.armed.isSome ∧ armStands m = false then tellStat (meterPut s0 { m with armed := none }) else s)

/-- Whether `o` is a SEAL register of METER. -/
def isSealReg (o : Nat) : Bool :=
  o == offMeterOwnerLo || o == offMeterOwnerHi || o == offMeterXcomp || o == offMeterJres
    || (decide (offMeterAuthpub ≤ o) && decide (o < offMeterAuthpub + 64) && o % 4 == 0)

/-- A write of a SEAL register (R404): passed to the meter, ignored once sealed. -/
def writeSealReg (s : State) (o : Nat) (v : Word) : State :=
  if isSealReg o ∧ s.meter.sealed_ = false then
    let w := match rowAt o with
      | none => v
      | some r => (csrGet s o &&& ~~~ wordOf r.seals) ||| (v &&& wordOf r.seals)
    let s1 := csrPut (if s.meter.power then meterNow s else s) o w
    if s1.meter.power then
      meterPut s1 { s1.meter with sealReg := smapPut (csrDefault o) s1.meter.sealReg o w }
    else s1
  else s

def execSealRegisterWrite (o : Nat) (v : Word) (s : State) : Result := .next (writeSealReg s o v)

end Sys2Proof.Machine
end

