-- ==== Sys2Proof/Machine/Nand.lean ====
section
/-! DEFINITION. The storage controller's commands and its work of its own
(14_storage.md): every NAND row of the opcode table. -/

namespace Sys2Proof.Machine

/-! ## Command words (R421, R422) -/

def nW (c : NandCmd) (i : Nat) : Word := c.w.getD i 0
def nOp (c : NandCmd) : Nat := fld (nW c 0) 7 0
def nPart (c : NandCmd) : Nat := fld (nW c 0) 23 16
def nCompress (c : NandCmd) : Bool := bitOf (nW c 0) 8

/-- Whether reserved bits and words of a command are zero (R421, R422).
DEDUCED, log entry 87. -/
def nandWordsOk (c : NandCmd) : Bool :=
  let z := fun (i : Nat) => nW c i == 0
  let words := match nOp c with
    | 1 => z 4 && z 5 && (nCompress c || z 6)
    | 2 => z 5 && z 6 && z 7
    | 3 => z 2 && z 3 && z 5 && z 6 && z 7
    | 4 => z 2 && z 3 && z 4 && z 5 && z 6 && z 7
    | 5 => z 6
    | 6 => z 3 && z 5 && z 6
    | 9 => z 3 && z 4 && z 5 && z 6 && z 7
    | _ => z 2 && z 3 && z 4 && z 5 && z 6 && z 7
  fld (nW c 0) 15 9 == 0 && fld (nW c 0) 31 24 == 0 && (nOp c == 1 || ! nCompress c) && words

/-- Whether an opcode is one of R422. -/
def nandOpcode (n : Nat) : Bool := decide (1 ≤ n) && decide (n ≤ 9)

/-- Whether an opcode is permitted on a partition (R422, R426).
DEDUCED, log entry 87. -/
def opcodeOn (s : State) (op p : Nat) : Bool :=
  match op with
  | 1 | 3 => p != 3
  | 4 => p != 3 || ! s.meter.sealed_
  | 5 => p == 3
  | _ => true

/-- The refusals that a command meets before its own (R435): 0 for none.
DEDUCED, log entry 87. -/
def nandCheck (s : State) (c : NandCmd) : Nat :=
  let op := nOp c
  let p := nPart c
  if nandWordsOk c = false then 0xC0
  else if s.nand.blocks.all (fun b => b == 0) ∨ (s.nand.table.isNone ∧ op ≠ 6 ∧ op ≠ 9) then 0xCC
  else if 1 ≤ op ∧ op ≤ 5 then
    if (partEntry s p).isNone then 0xC1 else if opcodeOn s op p = false then 0xC2 else 0
  else 0

/-- A heartwood area of a command: 8-byte aligned, outside the EC and channel regions. -/
def nandArea (s : State) (a n : Nat) : Bool := a % 8 == 0 && areaOk s false a n

/-- The result area W7: none, or 8 bytes. -/
def resultOk (s : State) (c : NandCmd) : Bool := nW c 7 == 0 || nandArea s (nW c 7).toNat 8

def putResult (s : State) (c : NandCmd) (lo hi : Nat) : State :=
  if nW c 7 = 0 then s else memWrite s (nW c 7).toNat (leBytes 4 lo ++ leBytes 4 hi)

/-! ## Queue and completions -/

/-- A command completed (R425): result, refusal event, and its completion delivered, or
held while its target does not take it. Chunks compressed for it are given up. -/
def nandDone (s : State) (c : NandCmd) (code info : Nat) : State :=
  let s0 := nandPut s { s.nand with comp := smapPut none s.nand.comp c.cseq none }
  let s1 := csrPut s0 offNandCres (wordOf (c.cseq * 0x10000 + code))
  let s2 := if code = 0 then s1 else raise0 s1 nandSrc 5 0 (leBytes 2 c.cseq ++ leBytes 1 (nOp c) ++ leBytes 1 code)
  let v := completionValue code nandSrc info
  match (if s2.nand.done.isEmpty then deliverCompletion s2 (nW c 1) v nandSrc else none) with
  | some s3 => s3
  | none => nandPut s2 { s2.nand with done := s2.nand.done ++ [⟨nW c 1, v, 0⟩] }

/-- Held completions delivered, oldest first, as far as their targets take them. -/
def nandRetry (fuel : Nat) (s : State) : State :=
  match fuel with
  | 0 => s
  | fuel + 1 =>
    match s.nand.done with
    | [] => s
    | d :: r =>
      match deliverCompletion s d.target d.value nandSrc with
      | none => s
      | some s1 => nandRetry fuel (nandPut s1 { s1.nand with done := r })

/-- Commands of no known opcode complete with code 0xC0.
DEDUCED, log entry 93. -/
def nandDrain (fuel : Nat) (s : State) : State :=
  match fuel with
  | 0 => s
  | fuel + 1 =>
    if s.nand.mounted then
      match s.nand.q.find? fun c => ! nandOpcode (nOp c) with
      | none => s
      | some c => nandDrain fuel (nandDone (nandPut s { s.nand with q := s.nand.q.erase c }) c 0xC0 0)
    else s

/-- NAND_CMDGO written with GO (R421). -/
def nandGo (s : State) : State :=
  let w := (List.range 8).map fun i => csrGet s (offNandCmd + 4 * i)
  let seq := csrFld s offNandCsent 15 0
  if 32 ≤ s.nand.q.length then
    raise0 s nandSrc 5 0 (leBytes 2 seq ++ leBytes 1 (fld (w.getD 0 0) 7 0) ++ leBytes 1 0xCD)
  else
    let n := (seq + 1) % 65536
    let s1 := csrPut s offNandCsent (wordOf n)
    nandDrain 33 (nandPut s1 { s1.nand with q := s1.nand.q ++ [⟨w, n⟩] })

def execNandCmdGo (s : State) : Result := .next (nandGo s)

/-- The `i`th queued command may be performed: it is the first of its partition, and the map
is rebuilt (R420, R421). -/
def nandReady (s : State) (i : Nat) (c : NandCmd) : Bool :=
  s.nand.mounted && (s.nand.q.take i).all fun d => nPart d != nPart c

/-- Chunks of an append with COMPRESS: address and length of each (R424). -/
def chunksOf (c : NandCmd) : List (Nat × Nat) :=
  let src := (nW c 2).toNat
  let len := (nW c 3).toNat
  (List.range ((len + 16383) / 16384)).map fun i => (src + 16384 * i, min 16384 (len - 16384 * i))

/-- What an append is refused with before it writes: its addresses, and a partition that is
read-only. -/
def appendCheck (s : State) (c : NandCmd) : Nat :=
  let len := (nW c 3).toNat
  if 65536 < len ∨ nandArea s (nW c 2).toNat len = false ∨ resultOk s c = false then 0xC3
  else if readOnlyPart s (nPart c) then 0xC7
  else 0

/-- The append with COMPRESS, the `i`th queued command, that must still wait for the crucible. -/
def compressWaits (s : State) (i : Nat) : Option NandCmd :=
  (s.nand.q[i]?).filter fun c =>
    nOp c == 1 && nCompress c && nandReady s i c && nandCheck s c == 0 && nW c 3 != 0 && appendCheck s c == 0
      && decide (((smapGet none s.nand.comp c.cseq).map List.length).getD 0 < (chunksOf c).length)

/-! ## What goes first (R434) -/

/-- The target on which a partition lies. -/
def partTarget (s : State) (p : Nat) : Nat := ((partEntry s p).map fun e => e.start / 16384).getD 0

/-- The target that a command works on; the anchor lies on target 0. -/
def cmdTarget (s : State) (c : NandCmd) : Nat :=
  match nOp c with
  | 6 => fld (nW c 4) 15 0 / 16384
  | 8 | 9 => 0
  | _ => partTarget s (nPart c)

/-- The place of a command's array operations in the order of R434: 1 reads, 2 programs and erases;
a PATROL command has none of its own. -/
def cmdClass (c : NandCmd) : Nat :=
  match nOp c with
  | 2 | 5 | 6 => 1
  | 7 => 0
  | _ => 2

/-- A handover can be programmed (R427). -/
def handDue (s : State) : Bool :=
  s.nand.mounted && ! s.nand.hand.isEmpty && (partEntry s 3).isSome && ! readOnlyPart s 3
    && ((findBlock s 3 (slotBlock s)).isSome || decide (0 < freeOutside s 3))

/-- A queued command of class `k` has an operation to do on target `t`. -/
def cmdDue (s : State) (k t : Nat) : Bool :=
  (List.range s.nand.q.length).any fun i => (s.nand.q[i]?).any fun c =>
    cmdClass c == k && nandReady s i c && cmdTarget s c == t && nandCheck s c == 0 && (compressWaits s i).isNone

/-- NAND_RDLIM.LIMIT, 0 acting as 1. -/
def readLimit (s : State) : Nat := max 1 (csrGet s offNandRdlim).toNat

/-- A block is to be refreshed or given up (R430, R432, R433). -/
def refreshDue (s : State) (g : Nat) : Bool :=
  let b := blkGet s g
  b.state == .used && (b.want || decide (readLimit s ≤ b.reads) || decide (endurLimit s ≤ b.erases))

/-- Compaction is due (R428). -/
def compactDue (s : State) : Bool := (partEntry s 3).isSome && decide (freeSlots s ≤ 2 * placesInBlock s 3)

/-- What stands before work of class `k` on target `t`: handovers, then reads for commands, then
programs and erases for commands, then relocation, compaction and refresh, then patrol (R434). -/
def priorDue (s : State) (k t : Nat) : Bool :=
  (handDue s && partTarget s 3 == t) || (decide (1 < k) && cmdDue s 1 t) || (decide (2 < k) && cmdDue s 2 t)
    || (decide (3 < k) && ((s.nand.blk.any fun kb => kb.1 / 16384 == t && refreshDue s kb.1)
      || (compactDue s && partTarget s 3 == t)))

/-- The `i`th queued command performed when its opcode is `op`, it is the first of its partition, the
map is rebuilt, and nothing stands before it on its target (R420, R421, R434); `f` gives the state,
the code and INFO, and `d` free values are drawn. -/
def nandRun (s : State) (i op d : Nat) (w : FlashWorld) (f : State → NandCmd → State × Nat × Nat) : State :=
  match s.nand.q[i]? with
  | none => s
  | some c =>
    let code := nandCheck s c
    if nOp c = op ∧ nandReady s i c ∧ ¬ (code = 0 ∧ op ≠ 7 ∧ priorDue s (cmdClass c) (cmdTarget s c)) then
      let s1 := nandPut { s with free := s.free + d } { s.nand with q := s.nand.q.eraseIdx i }
      if code ≠ 0 then nandDone s1 c code 0
      else if w.timeout then nandDone s1 c 0xC8 0
      else
        let x := f s1 c
        nandDone x.1 c x.2.1 x.2.2
    else s

/-- A command that draws no free value. -/
def nandPerform (s : State) (i op : Nat) (w : FlashWorld) (f : State → NandCmd → State × Nat × Nat) : State :=
  nandRun s i op 0 w f

/-! ## APPEND (R423, R424) -/

/-- The chunks passed to the crucible's storage queue, when it has room for all of them; the
request descriptor of each lies in the controller's own buffers, as its destination does.
DESIGN CHOICE, log entry 174. -/
def compressPass (s : State) (c : NandCmd) : State :=
  let l := chunksOf c
  if 32 < (s.cruc.q.filter fun r => r.queue == 1).length + l.length then s
  else
    l.zipIdx.foldl (fun a x =>
        let d := 32 * x.2
        crucEnqueue a 1 c.cseq (some ⟨d, x.1.1, x.1.2, 0, 16384⟩) 0xFFFF0601 0xFFFFFFFF (wordOf d) (nW c 6))
      (nandPut s { s.nand with comp := smapPut none s.nand.comp c.cseq (some []) })

/-- The frame of a chunk (R424). -/
def frameOf (orig : Nat) (deflated : Bool) (bs : List Byte) : List Byte :=
  leBytes 2 orig ++ leBytes 2 bs.length ++ leBytes 1 deflated.toNat ++ zeros 3 ++ bs

/-- The frames of an append with COMPRESS from what the crucible ended, or none when it fails. -/
def compressFrames (s : State) (c : NandCmd) : Option (List Byte) :=
  let l := (chunksOf c).zip ((smapGet none s.nand.comp c.cseq).getD [])
  if l.all fun x => x.2.1 == 0 || x.2.1 == 5 then
    some (l.flatMap fun x =>
      if x.2.1 = 0 then frameOf x.1.2 true x.2.2 else frameOf x.1.2 false (memBytes s x.1.1 x.1.2))
  else none

/-- New blocks that units `n` to `n` + `k` − 1 of partition `p` need. -/
def blocksNeeded (s : State) (p n k : Nat) : Nat :=
  let per := placesInBlock s p
  ((List.range ((n + k - 1) / per - n / per + 1)).filter fun i => (findBlock s p (n / per + i)).isNone).length

/-- The bytes of an append with their header (R423). -/
def appendAll (compressed : Bool) (bs : List Byte) : List Byte :=
  leBytes 2 0x4150 ++ leBytes 1 compressed.toNat ++ zeros 1 ++ leBytes 4 bs.length ++ bs

/-- The units of an append. -/
def appendUnits (parts : List (List Byte)) : List FlashUnit :=
  parts.zipIdx.map fun pi => ⟨pi.2 == 0, false, pi.1, false, false, false⟩

/-- Where unit `n` of a partition lies: its block and place. -/
def unitAt (s : State) (p n : Nat) : Option (Nat × Nat) :=
  let per := placesInBlock s p
  (holderOf s p (if p = 3 then 2 + n / per else n / per) (n % per)).map fun g => (g, n % per)

/-- `k` units of a partition from number `n` on discarded (R420). -/
def dropUnits (s : State) (p n k : Nat) : State :=
  (List.range k).foldl (fun a i =>
    match unitAt a p (n + i) with
    | none => a
    | some gp => unitPut a gp.1 gp.2 none) s

/-- An append of bytes to a partition (R423): the state, the code, its first LPA and its
units. An append cut short by the last of RESERVE is discarded with its LPA range.
DEDUCED, log entry 91. -/
def appendBytes (s : State) (w : FlashWorld) (p : Nat) (compressed : Bool) (bs : List Byte) : State × Nat × Nat × Nat :=
  let parts := chunks 4096 (appendAll compressed bs)
  let k := parts.length
  let x := partGet s p
  let s0 := retireWorn s p
  if freeOutside s0 p < blocksNeeded s0 p x.next k then (s0, 0xC5, 0, 0)
  else
    let y := progUnits s0 w p x.next 0 false (appendUnits parts)
    let s1 := partPut y.1 p { partGet y.1 p with next := x.next + k }
    if y.2 = k then (s1, 0, x.next, k) else (dropUnits s1 p x.next k, 0xC7, 0, 0)

def appendRun (w : FlashWorld) (s : State) (c : NandCmd) : State × Nat × Nat :=
  let len := (nW c 3).toNat
  if len = 0 then (s, 0, 0)
  else if appendCheck s c ≠ 0 then (s, appendCheck s c, 0)
  else
    let bytes := if nCompress c then compressFrames s c else some (memBytes s (nW c 2).toNat len)
    match bytes with
    | none => (s, 0xC9, 0)
    | some bs =>
      let r := appendBytes s w (nPart c) (nCompress c) bs
      if r.2.1 = 0 then (putResult r.1 c r.2.2.1 r.2.2.2, 0, r.2.2.2) else (r.1, r.2.1, 0)

/-- An append with COMPRESS first passes its chunks to the crucible and waits until all have
ended (R424).
DESIGN CHOICE, log entry 174. -/
def appendCommand (s : State) (i : Nat) (w : FlashWorld) : State :=
  match (if w.timeout then none else compressWaits s i) with
  | some c => if (smapGet none s.nand.comp c.cseq).isSome then s else compressPass s c
  | none => nandPerform s i 1 w (appendRun w)

def execAppend (i : Nat) (w : FlashWorld) (s : State) : Result := .next (appendCommand s i w)

/-! ## READ, TRIM, ERASEPART, READREC -/

/-- Pages read once each. -/
def readPages (s : State) (w : FlashWorld) (l : List (Nat × Nat)) : State :=
  l.eraseDups.foldl (fun a gp => readPage a w gp.1 gp.2 false) s

/-- The pages in which places lie. -/
def pagesOf (s : State) (p : Nat) (l : List (Nat × Nat)) : List (Nat × Nat) :=
  l.map fun gp => (gp.1, gp.2 / placesInPage s p)

/-- The 4,096 bytes of a unit. -/
def unitBytes (u : FlashUnit) : List Byte := u.data ++ List.replicate (4096 - u.data.length) 0xFF#8

/-- DEDUCED, log entry 88. -/
def readRun (w : FlashWorld) (s : State) (c : NandCmd) : State × Nat × Nat :=
  let k := (nW c 3).toNat
  let n := (nW c 4).toNat
  let dst := (nW c 2).toNat
  let p := nPart c
  let x := partGet s p
  if k = 0 ∨ 16 < k ∨ nandArea s dst (4096 * k) = false then (s, 0xC3, 0)
  else if n < x.low ∨ x.next < n + k then (s, 0xC4, 0)
  else
    let at_ := (List.range k).filterMap fun i => unitAt s p (n + i)
    let us := at_.filterMap fun gp => unitGet s gp.1 gp.2
    if us.length ≠ k then (s, 0xC4, 0)
    else
      let s1 := readPages s w (pagesOf s p at_)
      if (us.any fun u => u.lost) ∨ (at_.any fun gp => ! unitReads s w gp.1 p gp.2) then (s1, 0xC6, 0)
      else (memWrite s1 dst (us.flatMap unitBytes), 0, k)

def execRead (i : Nat) (w : FlashWorld) (s : State) : Result := .next (nandPerform s i 2 w (readRun w))

def trimRun (w : FlashWorld) (s : State) (c : NandCmd) : State × Nat × Nat :=
  let p := nPart c
  let n := (nW c 4).toNat
  let x := partGet s p
  if x.next < n then (s, 0xC4, 0)
  else
    let s1 := partPut s p { x with low := max x.low n }
    let gone := (partBlocks s1 p).filter fun g =>
      let b := blkGet s1 g
      b.state == .used && b.part == p && decide ((b.lblk + 1) * placesInBlock s1 p ≤ n)
    (gone.foldl (fun a g => eraseBlock a w g) s1, 0, 0)

def execTrim (i : Nat) (w : FlashWorld) (s : State) : Result := .next (nandPerform s i 3 w (trimRun w))

/-- Every block of a partition that is in use erased, and its LPAs begun again at 0. -/
def erasePart (s : State) (w : FlashWorld) (p : Nat) (all : Bool) : State :=
  let s1 := (partBlocks s p).foldl (fun a g =>
    let b := blkGet a g
    if b.state = .used ∨ (all ∧ b.state = .free) then eraseBlock a w g else clearUnits a g) s
  partPut s1 p { partGet s1 p with next := 0, low := 0 }

def execErasepart (i : Nat) (w : FlashWorld) (s : State) : Result :=
  .next (nandPerform s i 4 w fun a c => (erasePart a w (nPart c) false, 0, 0))

/-- The journalled records from RSEQ `r` on, rising, each with the place of its slot. -/
def recordsFrom (s : State) (r : Nat) : SMap (List Byte × Nat × Nat) :=
  (recordBlocks s).foldl (fun l g =>
    (blockUnits s g).foldl (fun l u =>
      if u.2.lost then l
      else
        (unitRecs u.2).foldl (fun l b =>
          if r ≤ recSeq b then smapInsert (smapErase l (recSeq b)) (recSeq b) (b, g, u.1) else l) l) l) []

def readrecRun (w : FlashWorld) (s : State) (c : NandCmd) : State × Nat × Nat :=
  let k := (nW c 3).toNat
  let dst := (nW c 2).toNat
  let r := (nW c 4).toNat + (nW c 5).toNat * 4294967296
  if k = 0 ∨ 512 < k ∨ nandArea s dst (128 * k) = false ∨ resultOk s c = false then (s, 0xC3, 0)
  else if r ≤ s.meter.jrel ∨ s.meter.jrseq < r then (s, 0xC4, 0)
  else
    let l := ((recordsFrom s r).filter fun x => decide (x.1 ≤ s.meter.jrseq)).take k
    let at_ := (l.map fun x => x.2.2).eraseDups
    let s1 := readPages s w (pagesOf s 3 at_)
    if at_.any fun gp => ! unitReads s w gp.1 3 gp.2 then (s1, 0xC6, 0)
    else (putResult (memWrite s1 dst (l.flatMap fun x => x.2.1)) c l.length 0, 0, at_.length)

def execReadrec (i : Nat) (w : FlashWorld) (s : State) : Result := .next (nandPerform s i 5 w (readrecRun w))

/-! ## RAWREAD, PATROL, SYNC, SETPART -/

/-- The unit header of a unit (R415). -/
def unitHeader (s : State) (g : Nat) (u : FlashUnit) : List Byte :=
  let b := blkGet s g
  leBytes 1 b.part ++ leBytes 1 (boolBit u.first 0 + boolBit u.reloc 1 + boolBit u.param 2)
    ++ leBytes 2 b.lblk ++ leBytes 4 b.gen

/-- The anchor: the first two good blocks among blocks 0–7 of target 0 (R417).
DEDUCED, log entry 92. -/
def anchorBlocks (s : State) : List Nat :=
  ((List.range 8).filter fun g => (blkGet s g).state == .free || (blkGet s g).state == .used).take 2

/-- Sector `i` of a page as the cells hold it (R415): parity, a sector with errors, and the anchor's
tables, whose layout no rule gives, are free bytes.
DESIGN CHOICE, log entry 23; DEDUCED, log entry 90. -/
def rawSector (s : State) (w : FlashWorld) (g page i : Nat) : List Byte :=
  let p := (blkGet s g).part
  let per := placesInPage s p
  let free := Config.rawBytes (s.free + i)
  if s.nand.anchor ≠ [] ∧ (anchorBlocks s).contains g then padTo 1152 free
  else match (if per = 1 ∧ 4 ≤ i then none else unitGet s g (page * per + i / 4)) with
  | none => List.replicate 1152 0xFF#8
  | some u =>
    if (pageFaults w g page).any fun f => f.sector == i then padTo 1152 free
    else
      ((unitBytes u).drop (1024 * (i % 4))).take 1024 ++ ((unitHeader s g u).drop (2 * (i % 4))).take 2
        ++ padTo 126 free

/-- DEDUCED, log entry 90. -/
def rawreadRun (w : FlashWorld) (s : State) (c : NandCmd) : State × Nat × Nat :=
  let g := fld (nW c 4) 15 0
  let page := fld (nW c 4) 31 16
  let sectors := 4 * unitsInPage s
  let dst := (nW c 2).toNat
  if nandArea s dst (1152 * sectors) = false ∨ resultOk s c = false then (s, 0xC3, 0)
  else if targetBlocks s g ≤ g % 16384 ∨ s.nand.ppb ≤ page then (s, 0xC4, 0)
  else
    let bytes := (List.range sectors).flatMap (rawSector s w g page)
    let worst := ((pageFaults w g page).map fun f => f.bits).foldl max 0
    let b := blkGet s g
    let want := b.want || (pageFaults w g page).any fun f => decide (patrolThr s ≤ f.bits)
    let s1 := nandPut (bump { s with free := s.free + sectors } offNandRead)
      { s.nand with blk := smapPut Blk.reset s.nand.blk g { b with reads := b.reads + 1, want := want } }
    (putResult (memWrite s1 dst bytes) c worst 0, 0, unitsInPage s)

def execRawread (i : Nat) (w : FlashWorld) (s : State) : Result := .next (nandPerform s i 6 w (rawreadRun w))

/-- Every programmed page: global block × 512 + page. -/
def programmedPages (s : State) : List Nat :=
  (s.nand.unit.map fun ku =>
    let g := ku.1 / 2048
    g * 512 + ku.1 % 2048 / placesInPage s (blkGet s g).part).eraseDups

/-- A patrol pass begun (R433). -/
def startPass (s : State) (cmd : Bool) : State :=
  let l := programmedPages s
  nandPut s { s.nand with patrol := l, patrolLen := l.length, patrolCmd := cmd, patrolAt := some (elapsed s.time) }

def execPatrol (i : Nat) (s : State) : Result :=
  .next (nandPerform s i 7 ⟨false, [], [], []⟩ fun a _ => (startPass a true, 0, 0))

/-- SYNC (R422); whether target 0 times out (0xC8) is free, since the row carries no word on it.
DESIGN CHOICE, log entry 190. -/
def execSync (i : Nat) (s : State) : Result :=
  .next (nandRun s i 8 1 ⟨Config.flashTimeout s.free, [], [], []⟩ fun a _ => (saveTable a, 0, 0))

/-- The entry of `p` in a table. -/
def entryIn (t : List Byte) (p : Nat) : Option PartEntry := (tableEntries t).find? fun e => e.id == p

/-- SETPART (R418). -/
def setpartRun (w : FlashWorld) (s : State) (c : NandCmd) : State × Nat × Nat :=
  let src := (nW c 2).toNat
  if nandArea s src 256 = false then (s, 0xC3, 0)
  else
    let t := memBytes s src 256
    let old := s.nand.table.getD []
    if s.dev.run ∨ (s.meter.sealed_ ∧ entryIn t 3 ≠ entryIn old 3) then (s, 0xCB, 0)
    else if tableOk s t = false then (s, 0xCA, 0)
    else
      let changed := (tableEntries t).filter fun e => entryIn old e.id ≠ some e
      let s1 := nandPut s { s.nand with table := some t }
      let s2 := changed.foldl (fun a e => erasePart a w e.id true) s1
      (saveTable s2, 0, 0)

def execSetpart (i : Nat) (w : FlashWorld) (s : State) : Result := .next (nandPerform s i 9 w (setpartRun w))

/-! ## Mounting (R413, R419, R420) -/

/-- Whether a target's geometry lies inside R412. -/
def targetOk (t : NandTarget) : Bool :=
  (t.pageKib == 8 || t.pageKib == 16) && decide (128 * t.pageKib ≤ t.spare) && decide (64 ≤ t.ppb) && decide (t.ppb ≤ 512) && decide (1 ≤ t.blocks) && decide (t.blocks ≤ 16384) && decide (t.nop < 16)

def sameGeometry (a b : NandTarget) : Bool :=
  a.pageKib == b.pageKib && a.spare == b.spare && a.nop == b.nop && a.ppb == b.ppb && a.blocks == b.blocks

/-- Erase counts after an unclean stop (R420). -/
def uncleanCounts (s : State) : State :=
  (List.range 4).foldl (fun a t =>
    (List.range (s.nand.blocks.getD t 0)).foldl (fun a i =>
      let g := t * 16384 + i
      let b := blkGet a g
      let e := if b.state = .free ∨ b.opened then b.saved + 64 else b.saved
      blkPut a g { b with erases := e, saved := e, opened := false }) a) s

/-- Blocks that relocation left without their last page discarded (R420). -/
def dropCopies (s : State) : State :=
  s.nand.blk.foldl (fun a kb =>
    if kb.2.reloc ∧ kb.2.state = .used then eraseBlock a ⟨false, Config.flashFails s.free, [], []⟩ kb.1 else a)
    { s with free := s.free + 1 }

/-- An append behind the last one known, found at mounting: it stands when it has all its units, and
is discarded otherwise; the next append begins after its range (R420). -/
def dropTorn (s : State) (p : Nat) : State :=
  let x := partGet s p
  match (unitAt s p x.next).bind fun gp => unitGet s gp.1 gp.2 with
  | none => s
  | some u =>
    let k := (8 + leAt u.data 4 4 + 4095) / 4096
    let whole := (List.range k).all fun i => (unitAt s p (x.next + i)).isSome
    let s1 := if whole then s else dropUnits s p x.next k
    partPut s1 p { x with next := x.next + k }

/-- The map rebuilt from the unit headers (R420). -/
def rebuild (s : State) : State :=
  ((tableEntries (s.nand.table.getD [])).filter fun e => e.id != 3).foldl (fun a e => dropTorn a e.id) (dropCopies s)

/-- Factory marks found at the first mount of a blank device (R419). -/
def factoryMarks (s : State) (ts : List (Nat × NandTarget)) : State :=
  ts.foldl (fun a t => t.2.marked.foldl (fun a b =>
    if b < t.2.blocks then blkPut a (t.1 * 16384 + b) { blkGet a (t.1 * 16384 + b) with state := .factoryBad } else a) a) s

/-- Mounting, on the targets that answer (R413, R419, R420); NAND_PSLCt and TMODE act as the device
reset found them.
DESIGN CHOICE, log entry 190. -/
def mount (s : State) (ts : List (Option NandTarget)) : State :=
  if s.nand.mounted then s
  else
    let found := (List.range 4).filterMap fun t => ((ts.getD t none).filter fun x => x.crcOk).map fun x => (t, x)
    let fit := found.filter fun x => targetOk x.2
    let good := match fit with
      | [] => []
      | x :: _ => fit.filter fun y => sameGeometry x.2 y.2
    let refused := found.filter fun x => ! good.contains x
    let geo := match good with
      | [] => (⟨true, 8, 0, 0, 0, 0, 0, []⟩ : NandTarget)
      | x :: _ => x.2
    let n := s.nand
    let unclean := n.dirty
    let blank := n.anchor.isEmpty
    let on := fun (t : Nat) => good.find? fun x => x.1 == t
    let s1 := nandPut s { n with
      mounted := true
      blank := blank
      unclean := unclean
      table := n.anchor.head?.map fun a => a.table
      timing := (List.range 4).map fun t => (on t).map fun x => min n.tmode x.2.mode
      features := (List.range 4).map fun t => (on t).bind fun _ =>
        let v := n.pslc.getD t 0
        if bitOf v 31 then some (fld v 15 8, fld v 7 0) else none
      page16 := geo.pageKib == 16
      nop := geo.nop
      ppb := geo.ppb
      blocks := (List.range 4).map fun t => if good.any fun x => x.1 == t then geo.blocks else 0
      blk := n.blk.foldl (fun m kb => smapPut Blk.reset m kb.1 { kb.2 with reads := 0, want := false }) n.blk
      patrol := []
      patrolAt := none }
    let s2 := rebuild (if unclean then uncleanCounts s1 else s1)
    let s3 := saveTable (if blank then factoryMarks s2 good else s2)
    let bits := fun (l : List (Nat × NandTarget)) (lo : Nat) => (l.map fun x => 2 ^ (lo + x.1)).sum
    let s4 := raise0 s3 nandSrc 1 (boolBit blank 0 + boolBit unclean 1 + bits good 2 + bits refused 6)
      (leBytes 4 (good.length * geo.blocks))
    nandDrain 33 s4

def execNandMount (ts : List (Option NandTarget)) (s : State) : Result := .next (mount s ts)

/-! ## A device reset in the middle of work (R413, R420) -/

/-- The APPEND that may be under way: the first of its partition, with nothing to wait for. -/
def openAppend (s : State) : Option NandCmd :=
  ((List.range s.nand.q.length).find? fun i => (s.nand.q[i]?).any fun c =>
    nOp c == 1 && nandReady s i c && nandCheck s c == 0 && nW c 3 != 0 && appendCheck s c == 0
      && (compressWaits s i).isNone).bind fun i => s.nand.q[i]?

/-- What a device reset leaves of an append under way: a free number of its first units programmed.
DESIGN CHOICE, log entry 190. -/
def cutAppend (s : State) : State :=
  match openAppend s with
  | none => s
  | some c =>
    match (if nCompress c then compressFrames s c else some (memBytes s (nW c 2).toNat (nW c 3).toNat)) with
    | none => s
    | some bs =>
      let p := nPart c
      let us := appendUnits (chunks 4096 (appendAll (nCompress c) bs))
      if freeOutside s p < blocksNeeded s p (partGet s p).next us.length then s
      else
        (progUnits { s with free := s.free + 1 } ⟨false, [], [], []⟩ p (partGet s p).next 0 false
          (us.take (Config.freePick s.free % (us.length + 1)))).1

/-- What a device reset leaves of a relocation under way: a block opened for the copy and not
finished, or nothing begun.
DESIGN CHOICE, log entry 190. -/
def cutCopy (s : State) : State :=
  match s.nand.blk.find? fun kb => refreshDue s kb.1 with
  | none => s
  | some kb =>
    let s1 := { s with free := s.free + 1 }
    if Config.freePick s.free % 2 = 0 then s1 else (openBlock s1 kb.2.part kb.2.lblk true true).1

/-- The flash across a device reset (R413, R420): work in progress is cut short, and what the
controller holds in its own memory is new; a static move waits a whole interval again (R431).
DEDUCED, log entry 60. -/
def flashReset (s : State) : State :=
  let s1 := if s.nand.mounted then cutCopy (cutAppend s) else s
  nandPut s1 { s1.nand with
    q := []
    comp := []
    done := []
    mounted := false
    tmode := csrFld s offNandCtl 2 0
    pslc := (List.range 4).map fun t => csrGet s (offNandPslc + 4 * t)
    part := s1.nand.part.map fun kp => (kp.1, { kp.2 with wlAt := kp.2.wlAt.map fun _ => 0 })
    patrol := []
    patrolLen := 0
    patrolCmd := false
    patrolAt := none }

/-! ## The meter's journal (R427–R429) -/

/-- A handover programmed into the next free slot, and JRSEQ reported. -/
def handover (s : State) (w : FlashWorld) : State :=
  match s.nand.hand with
  | [] => s
  | h :: r =>
    if s.nand.mounted ∧ (partEntry s 3).isSome ∧ readOnlyPart s 3 = false ∧ w.timeout = false then
      let x := partGet s 3
      let y := progUnits s w 3 x.next 2 false [⟨true, false, h.flatten, false, false, false⟩]
      if y.2 = 1 then
        let s2 := partPut y.1 3 { partGet y.1 3 with next := x.next + 1 }
        let s3 := nandPut s2 { s2.nand with hand := r }
        meterPut s3 { s3.meter with jrseq := match h.getLast? with
          | none => s3.meter.jrseq
          | some b => recSeq b }
      else slotOn y.1
    else s

def execNandHandover (w : FlashWorld) (s : State) : Result := .next (handover s w)

/-- A parameter image written into the parameter block that does not hold the latest. -/
def paramImage (s : State) (w : FlashWorld) : State :=
  match s.nand.images with
  | [] => s
  | i :: r =>
    if s.nand.mounted ∧ (partEntry s 3).isSome ∧ readOnlyPart s 3 = false ∧ w.timeout = false then
      let lb := 1 - s.nand.paramAt
      let used := fun (a : State) => match findBlock a 3 lb with
        | none => 0
        | some g => (blockUnits a g).length
      let s1 := match findBlock s 3 lb with
        | none => s
        | some g => if placesInBlock s 3 ≤ used s then eraseBlock s w g else s
      let x := progUnit (w.progFails.length + 1) s1 w 3 lb (used s1) false true ⟨true, true, i, false, false, false⟩
      if x.2 then nandPut x.1 { x.1.nand with images := r, paramAt := lb } else x.1
    else s

def execNandParamImage (w : FlashWorld) (s : State) : Result := .next (paramImage s w)

/-- The live journal slots in RSEQ order: block, place and unit of each. Slots that compaction has
copied, that are lost, or that do not read are none of them. -/
def liveSlots (s : State) (w : FlashWorld) : SMap (Nat × Nat × FlashUnit) :=
  (recordBlocks s).foldl (fun l g =>
    (blockUnits s g).foldl (fun l u =>
      if u.2.old || u.2.lost || ! unitReads s w g 3 u.1 then l
      else smapInsert l (recSeq (u.2.data.take 128)) (g, u.1, u.2)) l) []

/-- A slot that is short of 32 records. -/
def shortSlot (u : FlashUnit) : Bool := decide (u.data.length < 4096)

/-- Runs of two or more short slots that follow one another in RSEQ order. -/
def shortRuns (l : SMap (Nat × Nat × FlashUnit)) : List (SMap (Nat × Nat × FlashUnit)) :=
  (l.splitBy fun a b => shortSlot a.2.2.2 == shortSlot b.2.2.2).filter fun r =>
    decide (2 ≤ r.length) && r.all fun x => shortSlot x.2.2.2

/-- The full slots that a run of short ones becomes; a record at or below JREL is not copied. -/
def mergedSlots (s : State) (r : SMap (Nat × Nat × FlashUnit)) : List FlashUnit :=
  (chunks 32 ((r.flatMap fun x => unitRecs x.2.2.2).filter fun b => decide (s.meter.jrel < recSeq b))).map fun l =>
    ⟨true, false, l.flatten, false, false, false⟩

/-- Compaction (R428): the records of consecutive short slots copied, in RSEQ order, into full ones,
and the blocks that this empties erased. -/
def compact (s : State) (w : FlashWorld) : State :=
  if s.nand.mounted ∧ compactDue s ∧ priorDue s 3 (partTarget s 3) = false ∧ w.timeout = false then
    let runs := shortRuns (liveSlots s w)
    let from_ := runs.flatten
    let us := runs.flatMap (mergedSlots s)
    let s1 := readPages s w (pagesOf s 3 (from_.map fun x => (x.2.1, x.2.2.1)))
    let x := partGet s1 3
    let y := progUnits s1 w 3 x.next 2 true us
    let s3 := partPut (cntAdd y.1 offNandReloc y.2) 3 { partGet y.1 3 with next := x.next + y.2 }
    if y.2 < us.length then slotOn s3
    else
      let s4 := from_.foldl (fun a x => unitPut a x.2.1 x.2.2.1 (some { x.2.2.2 with old := true })) s3
      slotOn ((from_.map fun x => x.2.1).eraseDups.foldl (fun a g =>
        if ((blockUnits a g).all fun u => u.2.old || (unitRecs u.2).all fun b => decide (recSeq b ≤ a.meter.jrel))
            ∧ (blkGet a g).state = .used ∧ (blkGet a g).lblk ≠ slotBlock a then eraseBlock a w g else a) s4)
  else s

def execNandCompact (w : FlashWorld) (s : State) : Result := .next (compact s w)

/-! ## Wear levelling, refresh and patrol (R431–R433) -/

/-- The good blocks of a partition. -/
def goodBlocks (s : State) (p : Nat) : List Nat :=
  (partBlocks s p).filter fun g => (blkGet s g).state == .free || (blkGet s g).state == .used

/-- The block of a list with the highest erase count, the first of those that tie. -/
def highestErases (s : State) (l : List Nat) : Option Nat :=
  l.foldl (fun best g =>
    match best with
    | none => some g
    | some h => if (blkGet s h).erases < (blkGet s g).erases then some g else best) none

/-- Block `g` copied to the free block `h`, and erased; where a program fails in `h`, that is retired
and `g` stays (R430). -/
def moveTo (s : State) (w : FlashWorld) (g h : Nat) : State :=
  let b := blkGet s g
  let s1 := openAs s b.part b.lblk h true
  if w.progFails.contains h then retireBlock s1 h 1 else eraseBlock (copyUnits s1 w g h b.part) w g

/-- A static move in partition `p` (R431). -/
def wlMove (s : State) (p : Nat) (w : FlashWorld) : State :=
  let x := partGet s p
  let now := elapsed s.time
  let due : Bool := match x.wlAt with
    | none => true
    | some t => decide (t + max 1 (csrFld s offNandWl 31 16) * 1000000000 ≤ now)
  let used := (partBlocks s p).filter fun g => (blkGet s g).state == .used
  match lowestErases s (goodBlocks s p), highestErases s (goodBlocks s p), lowestErases s used,
      highestErases s (freeBlocks s p) with
  | some lo, some hi, some g, some h =>
    if s.nand.mounted ∧ bitOf (csrGet s offNandCtl) 30 ∧ due ∧ w.timeout = false
        ∧ priorDue s 3 (partTarget s p) = false ∧ (blkGet s lo).erases + csrFld s offNandWl 15 0 < (blkGet s hi).erases then
      moveTo (partPut s p { x with wlAt := some now }) w g h
    else s
  | _, _, _, _ => s

def execNandWlMove (p : Nat) (w : FlashWorld) (s : State) : Result := .next (wlMove s p w)

def execNandRefresh (g : Nat) (w : FlashWorld) (s : State) : Result :=
  .next (if s.nand.mounted ∧ refreshDue s g ∧ w.timeout = false ∧ priorDue s 3 (g / 16384) = false then
      refreshBlock s w g
    else s)

/-- NAND_PATROL.HOURS in ns, 0 acting as 1. -/
def patrolPeriod (s : State) : Nat := max 1 (csrFld s offNandPatrol 31 16) * 3600000000000

/-- The pass that patrol is in: while PATROL_EN is 1 one begins in each period; a pass that the period
began ends when PATROL_EN clears, one that a PATROL command began goes on (R433).
DESIGN CHOICE, log entry 190. -/
def patrolPass (s : State) : State :=
  let on := bitOf (csrGet s offNandCtl) 31
  let due : Bool := match s.nand.patrolAt with
    | none => true
    | some t => decide (t + patrolPeriod s ≤ elapsed s.time)
  if on && due && s.nand.patrol.isEmpty then startPass s false
  else if ! on && ! s.nand.patrolCmd then nandPut s { s.nand with patrol := [] }
  else s

/-- The next page of a patrol pass read when its turn in the period has come, the reads spaced evenly,
and nothing else is due on its target (R433, R434). A page no longer programmed is passed over. -/
def patrolRead (s : State) (w : FlashWorld) : State :=
  if s.nand.mounted ∧ w.timeout = false then
    let s1 := patrolPass s
    let n := s1.nand
    match n.patrol with
    | [] => s1
    | x :: r =>
      let turn := n.patrolAt.getD 0 + (n.patrolLen - n.patrol.length) * patrolPeriod s / n.patrolLen
      if turn ≤ elapsed s.time ∧ priorDue s1 4 (x / 512 / 16384) = false then
        let s2 := nandPut s1 { n with patrol := r }
        if (programmedPages s).contains x then readPage s2 w (x / 512) (x % 512) true else s2
      else s1
  else s

def execNandPatrolRead (w : FlashWorld) (s : State) : Result := .next (patrolRead s w)

/-! ## Views (R437) -/

/-- NAND_STAT. -/
def nandStat (s : State) : Word :=
  let n := s.nand
  wordOf (boolBit n.mounted 31 + boolBit (n.blank && n.mounted) 30 + boolBit (n.unclean && n.mounted) 29
    + boolBit (n.mounted && ! n.q.isEmpty) 28 + n.q.length)

/-- NAND_TGTt. -/
def nandTgt (s : State) (t : Nat) : Word :=
  let n := s.nand
  let b := n.blocks.getD t 0
  if n.mounted ∧ b ≠ 0 then
    wordOf (0x80000000 + boolBit n.page16 30 + n.nop * 0x4000000 + n.ppb * 0x10000 + b)
  else 0

/-- NAND_PINFO0–2 of the partition that NAND_PSEL names. -/
def nandPinfo (s : State) (i : Nat) : Word :=
  let p := csrFld s offNandPsel 3 0
  match (if s.nand.mounted then partEntry s p else none) with
  | none => 0
  | some e =>
    match i with
    | 0 => wordOf (e.start * 0x10000 + e.len)
    | 1 => wordOf (freeOutside s p * 0x10000 + reserveLeft s p)
    | _ => wordOf (partGet s p).next

/-- NAND_BINFO, NAND_BERASE, NAND_BREAD of the block that NAND_BSEL names. -/
def nandBinfo (s : State) (i : Nat) : Word :=
  let g := csrFld s offNandBsel 15 0
  let b := blkGet s g
  let st := match b.state with
    | .free => if ! s.nand.anchor.isEmpty && (anchorBlocks s).contains g then 1 else 0
    | .used => 1
    | .factoryBad => 2
    | .retired => 3
  if s.nand.mounted then
    match i with
    | 0 => wordOf (st * 0x40000000 + partOf s g * 0x4000000)
    | 1 => wordOf b.erases
    | _ => wordOf b.reads
  else 0

end Sys2Proof.Machine
end

