-- ==== Sys2Proof/Machine/Fingerprint.lean ====
section
/-! DEFINITION. The configuration fingerprint (R521–R523): the covered locations of every
block, and DEV_CFGDIG as the sum of their terms. -/

namespace Sys2Proof.Machine

/-- The term of a location with content `v` under round keys `rks` (R521, R522). -/
def fpTerm (rks : List (List Byte)) (space addr v : Nat) : Nat :=
  leNat (aesEnc rks (leBytes 6 (space * 2 ^ 40 + addr) ++ zeros 2 ++ leBytes 4 v ++ zeros 4))

/-- The copies of the register whose first copy is at `o`. -/
def csrCopies (o : Nat) : List Nat :=
  match rowAt o with
  | none => [o]
  | some r => (List.range (max 1 r.count)).map fun i => o + i * r.stride

/-- Covered registers outside the ports and groves, by their first copy, with the mask of
the covered fields (R68, R181, R219, R250, R319, R361, R379, R411, R438, R471, R496, R529, R556). -/
def coveredRegs : List (Nat × Nat) :=
  let all := 0xFFFFFFFF
  [(offDevHwlChan, all), (offDevHwlEc, all), (offDevHwlCell, all),
   (offTimeCtl, all), (offTimeSlew, all), (offTimePpsCtl, all), (offTimePpsOfs, all), (offTimeTsinCtl, all),
   (offTimePortTxlat, all), (offTimePortRxlat, all), (offTimePortAsym, all), (offTimePtpq, all)]
  ++ [(offDispCtl, all), (offDispBp, all), (offDispList, 0xFFFF), (offDispClass, all), (offDispTmrCtl, all),
   (offDispTmrPhase, all), (offDispTmrTgt, all)]
  ++ [(offEcaCtl, all), (offEcaStep, all), (offEcaAdapt, all), (offEcaDtd, all), (offEcaNlp, all), (offEcaRepl, all),
   (offEcaTone, all), (offRsfCtl, all), (offRsfDrift, all), (offRsfDriftj, all), (offRsfSettle, all)]
  ++ [(offQmgrClrRes, all), (offQmgrClrLowev, all), (offQmgrEvroute, all), (offPktCtl, all), (offPktMissq, all),
   (offPktRtcpq, all), (offPktTxq, all), (offCiphCtl, all), (offCrucCtl, all), (offMeterCtl, all), (offMeterPdig, all)]
  ++ [(offNandCtl, all), (offNandEndur, all), (offNandWl, all), (offNandRdlim, all), (offNandPatrol, all),
   (offNandPslc, all), (offMirrCtl, all), (offMirrHb, all), (offMirrRetx, all), (offMirrEcsweep, all),
   (offMirrSleep, all), (offMirrUserq, all), (offMirrUserrx, all)]
  ++ [(offHostImod, all), (offHostRingCtl, 0x7FF0FFFF), (offHostDbtgt, all), (offUsbCtl, all), (offUsbConrx, all),
   (offUsbContx, all), (offHvsCtl, all), (offHvsFthr, all), (offHvsAincfg, all), (offHvsAlmout, 0x700),
   (offAssayCtl, all), (offAssayEngint, all), (offAssayBgint, all)]

/-- Covered registers of MAC0 (R342). -/
def coveredMac : List (Nat × Nat) :=
  let all := 0xFFFFFFFF
  [(offMacCtl, all), (offMacAddrLo, all), (offMacAddrHi, all), (offMacMaxlen, all), (offMacSerdesTx, all),
   (offMacSerdesRx, 0xFFFFFF00), (offMacPreempt, all), (offMacPfc, all), (offMacPfcThr, all), (offMacPfcHold, all),
   (offMacMcastLo, all), (offMacMcastHi, all)]

/-- The term of a register with a mask. -/
def csrTerm (s : State) (o mask : Nat) : Nat × Nat × Nat := (0, o, ((csrGet s o) &&& wordOf mask).toNat)

/-- Covered registers of an engine's grove block (R112). -/
def engTerms (s : State) (e : Nat) : List (Nat × Nat × Nat) :=
  [csrTerm s (engReg offGroveEngExcv e) 0xFFFFFFFF, csrTerm s (engReg offGroveEngCtl e) 0xFF0000]

/-- The CSR terms.
DESIGN CHOICE, log entry 165. -/
def csrTerms (s : State) : List (Nat × Nat × Nat) :=
  coveredRegs.flatMap (fun x => (csrCopies x.1).map fun o => csrTerm s o x.2)
  ++ (List.range 5).flatMap (fun n =>
    coveredMac.flatMap fun x => (csrCopies x.1).map fun o => csrTerm s (o + n * 0x10000) x.2)
  ++ ((List.range 17).filter (grovePresent s)).flatMap (fun g =>
    [csrTerm s (offGroveHoldlim + g * 0x10000) 0xFFFFFFFF, csrTerm s (offGroveSgsel + g * 0x10000) 0xFFFFFFFF])
  ++ ((List.range 136).filter (engPresent s)).flatMap (engTerms s)

/-- The PM words of every engine present (R112). -/
def pmTerms (s : State) : List (Nat × Nat × Nat) :=
  ((List.range 136).filter (engPresent s)).flatMap fun e =>
    (List.range (pmSize e / 4)).map fun i => (1, e * 2 ^ 32 + 4 * i, memNat s (fetchPa e (4 * i)) 4)

/-- The words of a table kept as bytes. -/
def byteWords (space base : Nat) (bs : List Byte) : List (Nat × Nat × Nat) :=
  (List.range (bs.length / 4)).map fun i => (space, base + 4 * i, leAt bs (4 * i) 4)

/-- Flow entries and header templates (R319). -/
def pktTerms (s : State) : List (Nat × Nat × Nat) :=
  (List.range 65536).flatMap (fun i => byteWords 2 (16 * i) (smapGet (zeros 16) s.pkt.flow i))
  ++ (List.range 12288).flatMap (fun i => byteWords 3 (64 * i) (smapGet (zeros 64) s.pkt.tmpl i))

/-- Installed templates (R181). -/
def dispTerms (s : State) : List (Nat × Nat × Nat) :=
  s.disp.tmpl.flatMap fun kv =>
    match kv.2 with
    | none => []
    | some (a, b) => [(4, 8 * kv.1, a.toNat), (4, 8 * kv.1 + 4, b.toNat)]

/-- Bytes 0x00–0x1F of every descriptor of the channel region (R288). -/
def chanTerms (s : State) : List (Nat × Nat × Nat) :=
  (List.range (chanCount s)).flatMap fun n =>
    (List.range 8).map fun i => (5, chanAddr s n + 4 * i, memNat s (chanAddr s n + 4 * i) 4)

/-- The configuration of a queue as QMGR_QCFG shows it. -/
def queueCfg (k : Queue) : Word :=
  wordOf (boolBit k.en 31 + boolBit k.event 30 + k.ntype * 0x10000000 + k.limit)

/-- Queue configurations (R319). -/
def queueTerms (s : State) : List (Nat × Nat × Nat) :=
  (List.range 65536).flatMap fun q =>
    let k := queueGet s q
    [(6, 8 * q, (queueCfg k).toNat), (6, 8 * q + 4, k.note.toNat)]

/-- Every covered location with its content. -/
def fpTerms (s : State) : List (Nat × Nat × Nat) :=
  csrTerms s ++ pmTerms s ++ pktTerms s ++ dispTerms s ++ chanTerms s ++ queueTerms s
    ++ byteWords 7 0 (s.nand.table.getD [])

/-- DEV_CFGDIG under the applied key (R521). -/
def cfgDigest (s : State) : List Byte :=
  let rks := roundKeys s.dev.key
  leBytes 16 ((fpTerms s).foldl (fun d x => (d + fpTerm rks x.1 x.2.1 x.2.2) % 2 ^ 128) 0)

/-- DEV_CFGDIG as it reads: the old value while it is being recomputed (R521). -/
def cfgShown (s : State) : List Byte := if s.dev.cfgBusy then s.dev.cfgOld else cfgDigest s

end Sys2Proof.Machine
end

