-- ==== Sys2Proof/Machine/Boot.lean ====
section
/-! DEFINITION. Boot packages and their verification (R499–R503), images placed on engines
(R113–R115), OTP (R504), the RUN check (R505, R506) and the fingerprint key (R521). -/

namespace Sys2Proof.Machine

def devPut (s : State) (d : DevSt) : State := { s with dev := d }

/-- An event of the DEV block (R526). -/
def devEvent (s : State) (code flags : Nat) (data : List Byte) : State := raise0 s 0x00 code flags data

/-! ## Images (R113, R114) -/

/-- A section entry of an image. -/
structure Section where
  type : Nat
  load : Nat
  size : Nat
  ofs : Nat
  deriving DecidableEq, Repr

/-- An import entry of an image. -/
structure Import where
  id : Nat
  version : Nat
  at_ : Nat
  deriving DecidableEq, Repr

/-- The section entries of an image. -/
def imageSections (b : List Byte) : List Section :=
  (List.range (leAt b 12 2)).map fun i =>
    ⟨byteAt b (64 + 16 * i), leAt b (68 + 16 * i) 4, leAt b (72 + 16 * i) 4, leAt b (76 + 16 * i) 4⟩

/-- The import entries of an image. -/
def imageImports (b : List Byte) : List Import :=
  (List.range (leAt b 14 2)).map fun i =>
    let o := 64 + 16 * leAt b 12 2 + 16 * i
    ⟨leAt b o 4, leAt b (o + 4) 2, leAt b (o + 8) 4⟩

/-- ENTRY[c] of an image. -/
def imageEntry (b : List Byte) (c : Nat) : Nat := leAt b (16 + 4 * c) 4

/-- Bytes of PM on a supervisor or a voice engine (R69). -/
def pmBytes (sup : Bool) : Nat := if sup then 0x20000 else 0x10000

/-- Bytes of the memory that a section of a type is loaded into; a supervisor reaches no
grove memory of its own grove (R26). -/
def sectionRoom (sup : Bool) (type : Nat) : Option Nat :=
  match type with
  | 1 => some (pmBytes sup)
  | 2 => some 0x10000
  | 3 => some 0x10000
  | 4 => some 0x100000000
  | 5 => if sup then none else some 0x80000
  | 6 => some 0x10000
  | 7 => some 0x10000
  | _ => none

/-- Whether a section lies in its memory and its data in the image (R114).
DEDUCED, log entry 120. -/
def sectionOk (sup : Bool) (len : Nat) (x : Section) : Bool :=
  match sectionRoom sup x.type with
  | none => false
  | some n =>
    decide (x.load + x.size ≤ n) && x.size % 4 == 0
      && (x.type == 6 || x.type == 7 || decide (x.ofs + x.size + 96 ≤ len))
      && (x.type != 4 || (x.load == 0 && x.size % 12 == 0))

/-- The PM sections of an image and the kernels it imports, each first byte and size. -/
def pmSections (b : List Byte) : List (Nat × Nat) :=
  ((imageSections b).filter fun x => x.type == 1).map fun x => (x.load, x.size)

def pmKernels (b : List Byte) : List (Nat × Nat) :=
  (imageImports b).map fun x => (x.at_, match findKernel x.id with | none => 0 | some k => k.1.size)

/-- Whether two stretches share a byte. -/
def meets (a b : Nat × Nat) : Bool :=
  a.2 != 0 && b.2 != 0 && decide (a.1 < b.1 + b.2) && decide (b.1 < a.1 + a.2)

/-- Whether any two stretches of a list share a byte. -/
def anyMeets (l : List (Nat × Nat)) : Bool :=
  match l with
  | [] => false
  | x :: r => r.any (meets x) || anyMeets r

/-- Whether an image's signature verifies under a public key (R113, R502): the trailer's
fields are little-endian.
DEDUCED, log entry 119. -/
def trailerOk (pub b : List Byte) : Bool :=
  let n := b.length - 96
  (b.drop n).take 32 == sha256 pub
    && ecdsaOk (beAt pub 0 32, beAt pub 32 32) (beNat (sha256 (b.take n))) (leAt b (n + 32) 32) (leAt b (n + 64) 32)

/-- Whether an image is valid (R113, R114).  Fields that R113 gives as zero are not looked at, nor
whether section data lie over the header and the entries.
DEDUCED, log entry 120. -/
def imageOk (sup : Bool) (b : List Byte) : Bool :=
  let len := leAt b 8 4
  decide (160 ≤ b.length) && len == b.length
    && b.take 4 == [0x44#8, 0x52#8, 0x4E#8, 0x53#8] && leAt b 4 2 == 1 && leAt b 6 2 == sup.toNat
    && decide (64 + 16 * (leAt b 12 2 + leAt b 14 2) + 96 ≤ len)
    && (imageSections b).all (sectionOk sup len)
    && ((imageImports b).all fun x => (findKernel x.id).isSome && decide (x.version ≤ 0x0100) && x.at_ % 256 == 0)
    && ((pmSections b ++ pmKernels b).all fun x => decide (x.1 + x.2 ≤ pmBytes sup))
    && ! anyMeets (pmSections b) && ((pmSections b).all fun x => ! (pmKernels b).any (meets x))
    && ([imageEntry b 0, imageEntry b 1, imageEntry b 2, imageEntry b 3, leAt b 36 4].all fun a =>
        a == 0xFFFFFFFF || decide (a < pmBytes sup))

/-! ## Placing an image (R115) -/

/-- A load-unit transfer of the Boot ROM onto engine `e`, to data-map address `dst`: registers, bytes
and event as for any transfer, from a place of its own (R109, R111, R115).
DEDUCED, log entry 123. -/
def romXfer (s : State) (e dst : Nat) (zero : Bool) (bs : List Byte) : State :=
  if bs = [] then s
  else
    let g := e / 8
    let f := drawFree s
    let x : LoadXfer := {
      src := wordOf f.1
      dst := wordOf dst
      len := bs.length
      zero := zero
      dir := false
      eng := e }
    let s1 := csrPut (csrPut f.2 (groveReg offGroveLdSrc g) x.src) (groveReg offGroveLdDst g) x.dst
    let s2 := csrPut s1 (groveReg offGroveLdLen g) (wordOf x.len)
    let s3 := csrPut s2 (groveReg offGroveLdCtl g) (wordOf (e % 8 + boolBit zero 9))
    ldEnd (memWrite s3 (localBase e + dst) bs) g x 0 x.len

/-- Bytes put into PM of engine `e` from offset `o` on. -/
def pmWrite (s0 : State) (e o : Nat) (bs : List Byte) : State :=
  let s := kernDrop s0 e o bs.length
  let n := 0x10000 - o
  romXfer (romXfer s e o false (bs.take n)) e (max o 0x10000 + 0x20000) false (bs.drop n)

/-- The template records of a section installed in order, until one fails (R153).  One whose zero
bits are not zero fails.
DEDUCED, log entry 181. -/
def installAll (s : State) (l : List (List Byte)) : State × Bool :=
  match l with
  | [] => (s, true)
  | r :: rest =>
    let x := installTmpl s (leAt r 0 4) (wordOf (leAt r 4 4)) (wordOf (leAt r 8 4))
    if x.2 = 0 ∧ leAt r 0 4 < 256 then installAll x.1 rest else (if leAt r 0 4 < 256 then x.1 else s, false)

/-- A section placed on engine `e`; false when a template record fails. -/
def placeSection (s : State) (e : Nat) (b : List Byte) (x : Section) : State × Bool :=
  let data := (b.drop x.ofs).take x.size
  match x.type with
  | 1 => (pmWrite s e x.load data, true)
  | 2 => (romXfer s e (0x10000 + x.load) false data, true)
  | 3 => (romXfer s e (0x20000 + x.load) false data, true)
  | 4 => installAll s (chunks 12 data)
  | 5 => (memWrite s (groveBase (e / 8) + x.load) data, true)
  | 6 => (romXfer s e (0x10000 + x.load) true (zeros x.size), true)
  | 7 => (romXfer s e (0x20000 + x.load) true (zeros x.size), true)
  | _ => (s, true)

/-- Sections placed in order, until one fails. -/
def placeSections (s : State) (e : Nat) (b : List Byte) (l : List Section) : State × Bool :=
  match l with
  | [] => (s, true)
  | x :: r =>
    let y := placeSection s e b x
    if y.2 then placeSections y.1 e b r else y

/-- An image placed on engine `e`, whose contexts have stopped, without being started: sections,
kernels, priorities and exception vector. -/
def placeImage (s : State) (e : Nat) (b : List Byte) : State × Bool :=
  let y := placeSections s e b (imageSections b)
  if y.2 then
    let s2 := (imageImports b).foldl (fun a x =>
      match findKernel x.id with
      | none => a
      | some k => kernPlace (pmWrite a e x.at_ (romBytes (romPlace (k.2 + 2)) k.1.size)) e x.at_ k.2) y.1
    let excv := leAt b 36 4
    let s3 := csrPut s2 (engReg offGroveEngExcv e) (wordOf excv &&& wordOf (pmSize e - 4))
    (csrPut s3 (engReg offGroveEngCtl e)
      (wordOf (byteAt b 32 * 0x10000 + boolBit (excv != 0xFFFFFFFF) 8)), true)
  else y

/-- The contexts of engine `e` that an image starts. -/
def startImage (s : State) (e : Nat) (b : List Byte) : State :=
  (List.range 4).foldl (fun a c =>
    if imageEntry b c = 0xFFFFFFFF then a
    else startCtx (writePc a (4 * e + c) (wordOf (imageEntry b c))) (4 * e + c)) s

/-! ## Packages (R501, R502) -/

/-- An entry of a boot package. -/
structure PkgEntry where
  type : Nat
  supmask : Nat
  ofs : Nat
  size : Nat
  dest : Nat
  deriving DecidableEq, Repr

/-- The entries of a package. -/
def pkgEntries (b : List Byte) : List PkgEntry :=
  (List.range (leAt b 6 2)).map fun i =>
    let o := 96 + 16 * i
    ⟨byteAt b o, byteAt b (o + 1), leAt b (o + 4) 4, leAt b (o + 8) 4, leAt b (o + 12) 4⟩

/-- The bytes of an entry. -/
def entryBytes (b : List Byte) (x : PkgEntry) : List Byte := (b.drop x.ofs).take x.size

/-- LENGTH, NENT and the entries agree (code 0x71).
DEDUCED, log entry 121. -/
def pkgLayoutOk (b : List Byte) (size : Nat) : Bool :=
  let len := leAt b 8 4
  let n := leAt b 6 2
  decide (1 ≤ n) && decide (n ≤ 32) && decide (len ≤ size) && decide (96 + 16 * n + 96 ≤ len)
    && ((pkgEntries b).all fun x => decide (x.ofs + x.size ≤ len))
    && ! anyMeets ((pkgEntries b).map fun x => (x.ofs, x.size))

/-- The slot of a programmed, unrevoked key whose hash is that of a public key (R502). -/
def keySlotFor (s : State) (pub : List Byte) : Option Nat :=
  (List.range 4).find? fun i => ! s.dev.otpRevoked.contains i && smapGet none s.dev.otpKey i == some (sha256 pub)

/-- Whether every image of a package is valid and verifies (code 0x75).
DEDUCED, log entry 120. -/
def pkgImagesOk (b : List Byte) : Bool :=
  (pkgEntries b).all fun x =>
    let i := entryBytes b x
    if x.type = 1 ∨ x.type = 2 then imageOk (x.type == 1) i && trailerOk ((b.drop 32).take 64) i else true

/-- Where a package stands: its first bytes, enough for the header and the entries, or none
when they do not read; how many bytes there are; and all of it, or none when a part does
not read. -/
structure PkgSource where
  head : Option (List Byte)
  size : Nat
  body : Nat → Option (List Byte)

/-- The verification of a package (R502): its code, its bytes and its key slot.
DEDUCED, log entry 121. -/
def verifyPkg (s : State) (p : PkgSource) : Nat × List Byte × Nat :=
  match p.head with
  | none => (0x76, [], 0)
  | some h =>
    if h.take 4 ≠ [0x4B#8, 0x42#8, 0x50#8, 0x4B#8] ∨ leAt h 4 2 ≠ 1 then (0x70, h, 0)
    else if pkgLayoutOk h p.size = false then (0x71, h, 0)
    else if ((List.range 4).all fun i => smapGet none s.dev.otpKey i == none) then (0x79, h, 0)
    else
      match p.body (leAt h 8 4) with
      | none => (0x76, h, 0)
      | some b =>
        let pub := (b.drop 32).take 64
        match keySlotFor s pub with
        | none => (0x72, h, 0)
        | some k =>
          if trailerOk pub b = false then (0x73, h, 0)
          else if leAt h 12 4 < s.dev.otpMin then (0x74, h, 0)
          else if pkgImagesOk b = false then (0x75, h, 0)
          else (0, b, k)

/-- Bytes that a package's header and entries can take. -/
def pkgHead : Nat := 96 + 16 * 32

/-- A package in heartwood at address `a`, of at most `size` bytes. -/
def heartwoodPkg (s : State) (a size : Nat) : PkgSource :=
  let n := if hwBase ≤ a ∧ a < hwEnd then min size (hwEnd - a) else 0
  { head := if anyPoison s a (min n pkgHead) then none else some (memBytes s a (min n pkgHead))
    size := n
    body := fun len => if anyPoison s a len then none else some (memBytes s a len) }

/-- The data of the appends of a partition from unit `i` on, for `n` units; none for a unit
that does not read. -/
def appendedFrom (s : State) (w : FlashWorld) (p i n : Nat) (left : Nat) : List (Option (List Byte)) :=
  match n with
  | 0 => []
  | n + 1 =>
    match unitAt s p i with
    | none => []
    | some gp =>
      match unitGet s gp.1 gp.2 with
      | none => []
      | some u =>
        if u.lost ∨ unitReads s w gp.1 p gp.2 = false then [none]
        else
          let all := padTo 4096 u.data
          let first := u.first
          let len := if first then leAt all 4 4 else left
          let data := if first then all.drop 8 else all
          some (data.take len) :: appendedFrom s w p (i + 1) n (len - data.length)

/-- The package in boot partition `p` (R499, R500): what its appends hold from LPA 0 on.
DEDUCED, log entry 123. -/
def partitionPkg (s : State) (w : FlashWorld) (p : Nat) : PkgSource :=
  let x := partGet s p
  let us := if x.low = 0 then appendedFrom s w p 0 x.next 0 else []
  let bytes := (us.filterMap fun u => u).flatten
  { head := match us.head? with
      | some (some _) => some (bytes.take pkgHead)
      | _ => none
    size := if us.any fun u => u.isNone then 0x100000000 else bytes.length
    body := fun len => if bytes.length < len then none else some (bytes.take len) }

/-! ## The Boot ROM's own context (R498, R503) -/

/-- The context in which the Boot ROM runs: context 0 of the lowest-numbered present supervisor.
DEDUCED, log entry 123. -/
def romCtx (s : State) : Option Nat :=
  (((List.range 8).map fun i => 128 + i).find? (engPresent s)).map fun e => 4 * e

/-- Context `k` runs the Boot ROM. -/
def romRuns (s : State) (k : Nat) : State := ctxPut s k { ctxGet s k with state := .running }

/-- The Boot ROM starts on the lowest-numbered supervisor (R498). -/
def romStart (s : State) : State := ((romCtx s).map (romRuns s)).getD s

/-- The Boot ROM stops its own context (R503). -/
def romStop (s : State) : State := ((romCtx s).map (stopCtx s)).getD s

/-! ## Starting a package (R503) -/

/-- Every context of engine `e` but the Boot ROM's own asked to stop (R115, R503). -/
def stopEngine (s : State) (e : Nat) : State :=
  (List.range 4).foldl (fun a c => if romCtx s = some (4 * e + c) then a else stopCtx a (4 * e + c)) s

/-- Whether every context of engine `e` but the Boot ROM's own is STOPPED or FAULT. -/
def engineStopped (s : State) (e : Nat) : Bool :=
  (List.range 4).all fun c => romCtx s == some (4 * e + c)
    || (ctxGet s (4 * e + c)).state == .stopped || (ctxGet s (4 * e + c)).state == .fault

/-- The supervisors that a TYPE 1 entry names and that are present, as engines. -/
def pkgSups (s : State) (x : PkgEntry) : List Nat :=
  ((List.range 8).filter fun i => x.supmask.testBit i && engPresent s (128 + i)).map fun i => 128 + i

/-- Every TYPE 1 image placed; false when a template fails. -/
def placeAll (s : State) (l : List (Nat × List Byte)) : State × Bool :=
  match l with
  | [] => (s, true)
  | x :: r =>
    let y := placeImage s x.1 x.2
    if y.2 then placeAll y.1 r else y

/-- The boot event (R526) and DEV_BOOT after a package was refused.
DEDUCED, log entry 123. -/
def refusePkg (s : State) (source code : Nat) (b : List Byte) : State :=
  devEvent (csrSetFld s offDevBoot 23 16 code) 3 0
    (leBytes 1 code ++ leBytes 1 source ++ zeros 2 ++ leBytes 4 (leAt b 12 4))

/-- The images that a package's TYPE 1 entries place, by engine. -/
def pkgJobs (s : State) (b : List Byte) : List (Nat × List Byte) :=
  ((pkgEntries b).filter fun x => x.type == 1).flatMap fun x => (pkgSups s x).map fun e => (e, entryBytes b x)

/-- A verified package started; its code is 0x77 when a template fails. -/
def startPkg (s : State) (source : Nat) (b : List Byte) (slot : Nat) : State × Nat :=
  let jobs := pkgJobs s b
  let y := placeAll s jobs
  if y.2 then
    let s1 := ((pkgEntries b).filter fun x => x.type == 2 || x.type == 3).foldl
      (fun a x => busWrite a x.dest ((entryBytes b x).take (hwEnd - x.dest))) y.1
    let s2 := csrSetFld (csrSetFld (csrSetFld s1 offDevBoot 31 28 source) offDevBoot 15 0 (leAt b 12 4))
      offDevBoot 27 26 slot
    let s3 := jobs.foldl (fun a x => startImage a x.1 x.2) (romStop (devPut s2 { s2.dev with bootRom := false }))
    (devEvent s3 3 1 (leBytes 1 0 ++ leBytes 1 source ++ zeros 2 ++ leBytes 4 (leAt b 12 4)), 0)
  else (y.1, 0x77)

/-- The code of a package that came over the craft port, for GET_STATUS (R500). -/
def usbCode (s : State) (source code : Nat) : State :=
  if source = 3 then { s with usb := { s.usb with code := code } } else s

/-- A package to try: its source and the outcome of its verification (code, bytes and key slot). -/
abbrev BootTry := Nat × Nat × List Byte × Nat

/-- The Boot ROM tries packages in order until one verifies (R499): that one is started, once its
engines have stopped (R115), and no other is tried even if a template fails.  `fresh`: the first has
not been begun.
DEDUCED, log entries 122, 123. -/
def tryAll (fresh : Bool) (s : State) (l : List BootTry) : State :=
  match l with
  | [] =>
    -- no package is left: the partitions have none that the Boot ROM accepts
    devPut s { s.dev with bootWait := [], noBoot := s.dev.noBoot || s.dev.mode == 0 }
  | x :: r =>
    if x.2.1 ≠ 0 then tryAll true (usbCode (refusePkg s x.1 x.2.1 x.2.2.1) x.1 x.2.1) r
    else
      let jobs := pkgJobs s x.2.2.1
      let s1 := if fresh then jobs.foldl (fun a j => stopEngine a j.1) s else s
      if jobs.all fun j => engineStopped s1 j.1 then
        let y := startPkg s1 x.1 x.2.2.1 x.2.2.2
        if y.2 = 0 then devPut (usbCode y.1 x.1 0) { y.1.dev with bootWait := [] }
        else
          let s2 := usbCode (refusePkg y.1 x.1 y.2 x.2.2.1) x.1 y.2
          devPut s2 { s2.dev with bootWait := [], bootOver := s2.dev.mode == 0 }
      else devPut s1 { s1.dev with bootWait := x :: r }

/-- The Boot ROM looks again for the contexts it waits for (R115). -/
def bootAgain (s : State) : State := if s.dev.bootWait = [] then s else tryAll false s s.dev.bootWait

/-- A package read and verified. -/
def bootTry (s : State) (source : Nat) (p : PkgSource) : BootTry := (source, verifyPkg s p)

/-- The Boot ROM may choose a package: it runs, and the boot assay has ended (R498).
DEDUCED, log entry 123. -/
def bootReady (s : State) (mode : Nat) : Bool :=
  s.dev.bootRom && s.dev.assayed && ! s.assay.busy && s.dev.mode == mode && s.dev.bootWait == []

def execBootSelect (w : FlashWorld) (s : State) : Result :=
  .next (if bootReady s 0 && s.nand.mounted && ! s.dev.noBoot && ! s.dev.bootOver then
    let seq := fun (p : PkgSource) => match p.head with | none => 0 | some h => leAt h 12 4
    let p1 := partitionPkg s w 1
    let p2 := partitionPkg s w 2
    let l := (if seq p1 < seq p2 then [(1, p2), (0, p1)] else [(0, p1), (1, p2)]).filter fun x => x.2.head.isSome
    tryAll true s (l.map fun x => bootTry s x.1 x.2)
  else s)

/-- A write of DEV_BOOTGO with GO (R500). -/
def bootGo (s : State) : State :=
  if bootReady s 1 then tryAll true s [bootTry s 2 (heartwoodPkg s (csrGet s offDevBootaddr).toNat 0xA000000)] else s

def execBootGo (s : State) : Result := .next (bootGo s)

/-! ## RUN (R505, R506) -/

/-- First and last of a region in units of 64 KiB. -/
def regionOf (s : State) (o : Nat) : Nat × Nat := (csrFld s o 11 0, csrFld s o 27 16)

/-- The conditions of R506 for a RUN write, in the order of their codes. -/
def runFails (s : State) : List (Nat × Bool) :=
  let c := regionOf s offDevHwlChan
  let e := regionOf s offDevHwlEc
  let p := regionOf s offDevHwlCell
  let out := fun (x : Nat × Nat) => decide (0xA00 < x.1 + x.2)
  [(0x60, out c || out e || out p), (0x61, anyMeets [c, e, p]), (0x62, c.2 == 0 || e.2 == 0 || p.2 == 0),
   (0x63, decide (0x400 < c.2)), (0x64, decide (0x200 < p.2)), (0x65, s.assay.busy),
   (0x66, voiceEngines s == 0), (0x67, s.dev.mode == 3), (0x69, s.dev.cfgBusy)]

/-- The outcome of the RUN check: the lowest code that holds, else 0. -/
def runCode (s : State) : Nat :=
  match (runFails s).find? fun x => x.2 with
  | none => 0
  | some x => x.1

/-- The RUN event and DEV_STAT.CODE (R505, R526). -/
def runDecision (s : State) (code : Nat) : State :=
  devEvent (csrSetFld s offDevStat 31 24 code) 1 s.dev.run.toNat (leBytes 1 code ++ zeros 7 ++ leBytes 8 (nfnOf s))

/-- A write of 1 to DEV_CTL.RUN.
DEDUCED, log entry 124. -/
def setRun (s : State) : State :=
  if s.dev.check then s
  else if s.dev.run then devPut s { s.dev with clear := false }
  else devPut s { s.dev with check := true }

def execRunSet (s : State) : Result := .next (setRun s)

/-- The device check decides. -/
def runCheck (s : State) : State :=
  if s.dev.check then
    let code := runCode s
    runDecision (devPut s { s.dev with check := false, run := code == 0 }) code
  else s

def execRunCheck (s : State) : Result := .next (runCheck s)

/-- A write of 0 to DEV_CTL.RUN. -/
def clearRun (s : State) : State :=
  if s.dev.run && ! s.dev.check then
    if useChan s ≠ 0 then runDecision s 0x68 else devPut s { s.dev with clear := true }
  else s

def execRunClear (s : State) : Result := .next (clearRun s)

/-! ## OTP (R504) -/

/-- DEV_OTPSTAT after an operation. -/
def otpDone (s : State) (code : Nat) : State := csrPut s offDevOtpstat (wordOf (0x80000000 + code))

/-- The hash in DEV_OTPDATA0–7: byte 4n in bits 31:24 of word n (R527). -/
def otpData (s : State) : List Byte := (List.range 8).flatMap fun i => beBytes 4 (csrGet s (offDevOtpdata + 4 * i)).toNat

/-- An operation of DEV_OTPCMD by a supervisor in privileged state. -/
def otpOp (s : State) (op slot : Nat) : State :=
  let prog := (smapGet none s.dev.otpKey slot).isSome
  let v := (csrGet s offDevOtpdata).toNat
  match op with
  | 1 => if prog then otpDone s 1
         else otpDone (devPut s { s.dev with otpKey := smapPut none s.dev.otpKey slot (some (otpData s)) }) 0
  | 2 => if prog then otpDone (devPut s { s.dev with otpRevoked := insertRising s.dev.otpRevoked slot }) 0
         else otpDone s 2
  | 3 => if s.dev.otpMin < v then otpDone (devPut s { s.dev with otpMin := v }) 0 else otpDone s 3
  | _ => s

def execOtpProgram (slot : BitVec 2) (s : State) : Result := .next (otpOp s 1 slot.toNat)

def execOtpRevoke (slot : BitVec 2) (s : State) : Result := .next (otpOp s 2 slot.toNat)

def execOtpRaiseMin (s : State) : Result := .next (otpOp s 3 0)

/-! ## The fingerprint key (R521) -/

/-- A write of DEV_CFGKEYn, ignored while RUN is 1 and while the RUN check runs.
DEDUCED, log entry 125. -/
def stageCfgkey (s : State) (n : Nat) (v : Word) : State :=
  if s.dev.run ∨ s.dev.check then s
  else devPut s { s.dev with keyStage := smapPut 0 s.dev.keyStage n v }

/-- A write of DEV_CFGKEY3: the key takes effect, and the fingerprint is recomputed.
DEDUCED, log entry 125. -/
def applyCfgkey (s : State) (v : Word) : State :=
  if s.dev.run ∨ s.dev.check then s
  else
    let s1 := stageCfgkey s 3 v
    devPut s1 { s1.dev with
      key := (List.range 4).flatMap fun i => leBytes 4 (smapGet (0#32) s1.dev.keyStage i).toNat
      cfgOld := cfgShown s
      cfgBusy := true }

def execCfgkeyApply (v : Word) (s : State) : Result := .next (applyCfgkey s v)

def execCfgRecomputeDone (s : State) : Result :=
  .next (if s.dev.cfgBusy then devEvent (devPut s { s.dev with cfgBusy := false }) 4 0 [] else s)

/-- A read of DEV_CFGDIG0, which latches the other words. -/
def readCfgdig (s : State) : Word × State :=
  let d := cfgShown s
  let w := fun (i : Nat) => wordOf (leAt d (4 * i) 4)
  (w 0, csrPut (csrPut (csrPut (devPut s { s.dev with cfgSeen := true }) (offDevCfgdig + 4) (w 1)) (offDevCfgdig + 8) (w 2)) (offDevCfgdig + 12) (w 3))

def execCfgdigRead (s : State) : Result := .next (let r := readCfgdig s; answer r.2 r.1)

end Sys2Proof.Machine
end

