-- ==== Sys2Proof/Machine/Assay.lean ====
section
/-! DEFINITION. Assay (R514–R520): boot and full assay, run-time tests of engines, grove
memory and heartwood banks, failures, and the unlock sequence. -/

namespace Sys2Proof.Machine

def assayPut (s : State) (a : AssaySt) : State := { s with assay := a }

def assayEvent (s : State) (code flags : Nat) (data : List Byte) : State := raise0 s 0x15 code flags data

/-- The capacity event (R519, R526). -/
def capacityEvent (s : State) : State :=
  devEvent s 2 0 (leBytes 2 (capChan s) ++ zeros 2 ++ leBytes 4 (capEcu s) ++ leBytes 2 (capEcrec s))

/-! ## Failures (R519) -/

/-- Engine `e` (128 + s for Ss) fails its test: absent from now on.
DEDUCED, log entry 43. -/
def failEngine (s : State) (e code : Nat) : State :=
  if engPresent s e then
    let s1 := (List.range 4).foldl (fun a c => ctxPut a (4 * e + c) (Ctx.reset (4 * e + c))) s
    let s2 := bump { s1 with core := { s1.core with removed := insertRising s1.core.removed e } } offAssayFailures
    if e < 128 then capacityEvent (assayEvent s2 1 e (leBytes 1 code)) else s2
  else s

/-- Bank `b` of group `g` fails: the spare stands for it, or the group has none. -/
def failBank (s : State) (g b : Nat) : State :=
  let s1 := bump s offAssayFailures
  if s.assay.noSpare.contains g then
    if s.assay.failed.contains (g, b) then s
    else capacityEvent (assayEvent (assayPut s1 { s1.assay with failed := s1.assay.failed ++ [(g, b)] }) 3 g (leBytes 1 b))
  else assayEvent (assayPut s1 { s1.assay with noSpare := insertRising s1.assay.noSpare g }) 2 g (leBytes 1 b)

/-! ## Boot and full assay (R514, R515) -/

/-- The memories as the assay leaves them: zero.
DEDUCED, log entry 127. -/
def zeroMemories (s : State) : State :=
  { s with
    mem := []
    poison := []
    soft := []
    core := { s.core with kern := [] }
    disp := { s.disp with insts := [] }
    qmgr := QmgrSt.reset
    pkt := { s.pkt with flow := [], flowBad := [], tmpl := [], tmplBad := [] }
    ciph := { s.ciph with slot := [], kek := none } }

/-- The assay at its end, with the engines (and the test each failed) and the banks that
failed; the Boot ROM goes on, on the lowest supervisor that is left.
DEDUCED, log entries 126, 127. -/
def bootAssay (s : State) (engs banks : List (Nat × Nat)) : State :=
  let s1 := engs.foldl (fun a x => failEngine a x.1 x.2) (zeroMemories s)
  let s2 := banks.foldl (fun a x => if x.1 < 16 ∧ x.2 < 5 then failBank a x.1 x.2 else a) s1
  romStart (devPut (assayPut s2 { s2.assay with busy := false }) { s2.dev with assayed := true })

def execQuickAssay (engs banks : List (Nat × Nat)) (s : State) : Result :=
  .next (if s.assay.busy ∧ s.dev.mode ≠ 3 then bootAssay s engs banks else s)

def execFullAssay (engs banks : List (Nat × Nat)) (s : State) : Result :=
  .next (if s.assay.busy ∧ s.dev.mode = 3 then csrSetFld (bootAssay s engs banks) offDevBoot 31 28 5 else s)

/-! ## Run-time tests (R516–R518) -/

/-- A context of engine `e` holds a task. -/
def holdsTask (s : State) (e : Nat) : Bool := (List.range 4).any fun c => (ctxGet s (4 * e + c)).task.isSome

/-- The engine tested next: the first present from `n` on. -/
def engineFrom (s : State) (n : Nat) : Option Nat := (List.range 128).find? fun e => decide (n ≤ e) && engPresent s e

/-- The test of engine `e` is over; after the last engine, the cycle is complete. -/
def engineOver (s : State) (e : Nat) : State :=
  let s1 := assayPut s { s.assay with drain := none, engNext := e + 1, engAt := elapsed s.time }
  match engineFrom s1 (e + 1) with
  | some _ => s1
  | none =>
    assayEvent (assayPut s1 { s1.assay with engNext := 0, engFails := 0 }) 5 1 (leBytes 4 s1.assay.engFails)

/-- Engine `e` saved, tested and restored; `fail` is the test it fails, 0 for none.
DEDUCED, log entry 126. -/
def testEngine (s : State) (e fail : Nat) : State :=
  let s1 := bump s offAssayEngtests
  if fail = 0 then engineOver s1 e
  else engineOver (failEngine (assayPut s1 { s1.assay with engFails := s1.assay.engFails + 1 }) e fail) e

/-- A group has a spare bank, idle between migrations, that can take an engine's state (R516). -/
def spareIdle (s : State) : Bool := (List.range 16).any fun g => ! s.assay.noSpare.contains g

/-- The seconds between engine tests and between migrations: 0 acts as 1. -/
def assayPeriod (s : State) (o : Nat) : Nat := max 1 (csrFld s o 15 0) * 1000000000

def execEngineTest (fail : Nat) (s : State) : Result :=
  .next (if s.dev.run = false ∨ bitOf (csrGet s offAssayCtl) 31 = false then s
  else
    match s.assay.drain with
    | some (e, t) =>
      if holdsTask s e = false then (if spareIdle s then testEngine s e fail else s)
      else if t + 2000000 ≤ elapsed s.time then
        engineOver (assayEvent (bump s offAssaySkips) 4 e []) e
      else s
    | none =>
      if elapsed s.time < s.assay.engAt + assayPeriod s offAssayEngint then s
      else
        match engineFrom s s.assay.engNext with
        | none => assayPut s { s.assay with engNext := 0 }
        | some e =>
          if holdsTask s e ∨ spareIdle s = false then assayPut s { s.assay with drain := some (e, elapsed s.time) }
          else testEngine s e fail)

/-- A slice of 4 KiB of a grove's memory saved, tested and restored: nothing changes but the
time of accesses to it (R517). -/
def execGroveSliceTest (_g _slice : Nat) (s : State) : Result := .next s

/-- Bank `b` of group `g` copied to the spare, replaced by it, and tested. -/
def migrateBank (s : State) (g b : Nat) (fail : Bool) : State :=
  if s.assay.noSpare.contains g then (if fail then failBank s g b else s)
  else
    let s1 := bump s offAssayMigrations
    if fail then failBank (assayPut s1 { s1.assay with bankFails := s1.assay.bankFails + 1 }) g b else s1

/-- A migration: of a bank whose corrections exceed CETHR, or of the next one in turn.
DEDUCED, log entry 126. -/
def execBankMigrate (at_ : Option BankHot) (fail : Bool) (s : State) : Result :=
  .next (match at_ with
  | some x =>
    if s.assay.busy = false ∧ x.group < 16 ∧ x.bank < 5 ∧ max 1 (csrFld s offAssayCtl 15 0) < x.corrections then
      migrateBank s x.group x.bank fail
    else s
  | none =>
    if s.dev.run = false ∨ bitOf (csrGet s offAssayCtl) 29 = false
        ∨ elapsed s.time < s.assay.bankAt + assayPeriod s offAssayBgint then s
    else
      let n := s.assay.bankNext
      let s1 := if s.assay.noSpare.contains (n % 16) then s else migrateBank s (n % 16) (n / 16 % 5) fail
      let s2 := assayPut s1 { s1.assay with bankNext := (n + 1) % 80, bankAt := elapsed s.time }
      if n % 80 = 79 then
        assayEvent (assayPut s2 { s2.assay with bankFails := 0 }) 5 2 (leBytes 4 s2.assay.bankFails)
      else s2)

/-! ## The unlock sequence (R520) -/

/-- ASSAY_NONCE.
DESIGN CHOICE, log entry 27. -/
def assayNonce (s : State) : Word := Config.assayNonce s.assay.tries

/-- A write of the host to ASSAY_UNLOCK.
DEDUCED, log entry 128. -/
def assayUnlock (s : State) (v : Word) : State :=
  let a := s.assay
  let now := elapsed s.time
  let good := match a.keyAt with
    | none => false
    | some t => decide (now ≤ t + 1000000) && v == ~~~ assayNonce s
  if good then assayPut s { a with unlocked := true, hostAt := now, keyAt := none, tries := a.tries + 1 }
  else if v = 0 then assayPut s { a with unlocked := false, keyAt := none }
  else if v = 0x4153554E#32 then assayPut s { a with keyAt := some now, hostAt := now }
  else assayPut s { a with keyAt := none, tries := a.tries + 1, hostAt := now }

def execAssayUnlock (v : Word) (s : State) : Result := .next (assayUnlock s v)

def execAssayUnlockExpire (s : State) : Result :=
  .next (if s.assay.unlocked ∧ s.assay.hostAt + 10000000000 ≤ elapsed s.time then
    assayPut s { s.assay with unlocked := false }
  else s)

end Sys2Proof.Machine
end

