-- ==== Sys2Proof/Machine/HostIf.lean ====
section
/-! DEFINITION. The PCI Express endpoint (R472–R485): windows, MSI-X, descriptor rings,
signal doorbells, and resets of the link.  Host memory lies outside the machine: a ring
command carries what the device reads there, and what it writes stands in `HostSt.out`. -/

namespace Sys2Proof.Machine

def hostPut (s : State) (h : HostSt) : State := { s with host := h }

def hostEvent (s : State) (code flags : Nat) (data : List Byte) : State := raise0 s 0x12 code flags data

/-- The device masters DMA and MSI-X (R473), which it does in D0 only (R472).
PRESUMED, log entry 191. -/
def mastering (s : State) : Bool := s.host.on && s.host.busMaster && ! s.host.d3

/-! ## BAR2 and BAR0 (R33, R474, R475) -/

/-- A byte of memory as a reader sees it that no rule gives a consequence for uncorrectable
data: free in an uncorrectable word.
DESIGN CHOICE, log entry 29. -/
def seenByte (s : State) (a : Nat) : Byte := if isPoison s a then Config.badByte s.free a else memByte s a

/-- HOST_STAT.WINERR set. -/
def winErr (s : State) : State := csrSetBit s offHostStat 0 true

/-- A host read of `n` bytes at BAR2 offset `o`. -/
def execBar2Read (o n : Nat) (s : State) : Result :=
  .next (if barOn s then
    let bytes := (List.range n).map fun i => if o + i < 0xA000000 then seenByte s (hwBase + o + i) else 0
    let s1 := if o + n ≤ 0xA000000 then s else winErr s
    { s1 with busRead := bytes, free := s1.free + 1 }
  else s)

/-- A host write of bytes at BAR2 offset `o`. -/
def execBar2Write (o : Nat) (bs : List Byte) (s : State) : Result :=
  .next (if barOn s then
    let inside := bs.take (0xA000000 - o)
    let s1 := if inside.isEmpty then s else busWrite s (hwBase + o) inside
    if inside.length = bs.length then s1 else winErr s1
  else s)

def execBar0PartialWrite (s : State) : Result := .next (if barOn s then csrSetBit s offHostStat 1 true else s)

/-! ## MSI-X (R477) -/

/-- A word of the MSI-X table; the mask bit of each vector is 1 after a reset. -/
def msixWord (s : State) (i : Nat) : Word := smapGet (if i % 4 = 3 then 1 else 0) s.host.table i

/-- DESIGN CHOICE, log entry 133. -/
def msixPut (h : HostSt) (i : Nat) (v : Word) : HostSt :=
  { h with table := smapPut (if i % 4 = 3 then 1 else 0) h.table i v }

def execMsixSend (v : Nat) (s : State) : Result :=
  .next (let h := s.host
    let last := smapGet 0 h.sentAt v
    let rested := last = 0 ∨ last - 1 + csrFld s offHostImod 15 0 * 1000 ≤ elapsed s.time
    if h.pend.contains v ∧ bitOf (msixWord s (4 * v + 3)) 0 = false ∧ mastering s ∧ h.msixEn ∧ h.funMask = false ∧ rested then
      hostPut s { h with
        pend := h.pend.filter fun x => x != v
        sentAt := smapPut 0 h.sentAt v (elapsed s.time + 1)
        sent := some v }
    else s)

/-! ## Rings (R478–R483) -/

def ringReg (o r : Nat) : Nat := o + 0x20 * r
def ringCtl (s : State) (r : Nat) : Word := csrGet s (ringReg offHostRingCtl r)
def ringRun (s : State) (r : Nat) : Bool := bitOf (ringCtl s r) 31
def ringCons (s : State) (r : Nat) : Nat := csrFld s (ringReg offHostRingCons r) 15 0
def ringProd (s : State) (r : Nat) : Nat := csrFld s (ringReg offHostRingProd r) 15 0

/-- Descriptors of a ring, LOG2SIZE held to 4 to 12. -/
def ringSize (s : State) (r : Nat) : Nat := 2 ^ (max 4 (min 12 (fld (ringCtl s r) 23 20)))

/-- Descriptors posted and not committed. -/
def ringPosted (s : State) (r : Nat) : Nat := (ringProd s r + 65536 - ringCons s r) % 65536

def ringJob (s : State) (r : Nat) : Option RingJob := smapGet none s.host.job r

def ringJobPut (s : State) (r : Nat) (j : Option RingJob) : State :=
  hostPut s { s.host with job := smapPut none s.host.job r j }

/-- The vector of a ring fired. -/
def ringFire (s : State) (r : Nat) : State := pendVector s (fld (ringCtl s r) 29 24)

/-- What a begun descriptor leaves when it is rolled back (R485). -/
def ringRollback (s : State) (r : Nat) : State :=
  match ringJob s r with
  | none => s
  | some j =>
    let s1 := ringJobPut s r none
    let s2 := match j.built with
      | none => s1
      | some i => clearingCheck (freeItem s1 i)
    match j.popped with
    | none => s2
    | some i =>
      let q := fld (ringCtl s r) 15 0
      let k := queueGet s2 q
      if k.limit ≤ k.items.length ∨ k.en = false then clearingCheck (queuePut (freeItem s2 i) q (loseOne k))
      else queuePut s2 q { k with items := i :: k.items }

/-- A ring error (R483). -/
def ringError (s : State) (r cause : Nat) : State :=
  let s1 := ringRollback s r
  let s2 := csrSetBit s1 (ringReg offHostRingCtl r) 31 false
  let s3 := csrPut s2 (ringReg offHostRingStat r) (wordOf (0x80000000 + cause))
  ringFire (hostEvent s3 3 r (leBytes 1 cause ++ zeros 1 ++ leBytes 2 (ringCons s r))) r

/-- A write of ring `r`'s doorbell (R480): recorded, and an error when it is out of range.
DEDUCED, log entry 131. -/
def execRingDoorbell (r : Nat) (v : Word) (s : State) : Result :=
  .next (if barOn s ∧ r < 16 then
    let s1 := csrPut s (ringReg offHostRingProd r) (wordOf (fld v 15 0))
    if ringSize s r < ringPosted s1 r then ringError s1 r 1 else s1
  else s)

/-- A write of HOST_RINGr_CTL: all but RUN is ignored while RUN is 1 (R478).  Clearing RUN
rolls back a descriptor that was begun. -/
def writeRingCtl (s : State) (r : Nat) (v : Word) : State :=
  let o := ringReg offHostRingCtl r
  if ringRun s r then
    if bitOf v 31 then s else csrSetBit (ringRollback s r) o 31 false
  else csrPut s o (v &&& 0xFFF0FFFF#32)

/-- Fields of a descriptor (R479). -/
def dHaddr (d : List Byte) : Nat := leAt d 0 8
def dLen (d : List Byte) : Nat := leAt d 8 4
def dOp (d : List Byte) : Nat := byteAt d 12
def dIrq (d : List Byte) : Bool := (byteAt d 13).testBit 0
def dAddr (d : List Byte) : Nat := leAt d 16 4

/-- A running ring of direction `d2h` has descriptors posted (R473, R480). -/
def ringReady (s : State) (r : Nat) (d2h : Bool) : Bool :=
  mastering s && decide (r < 16) && ringRun s r && bitOf (ringCtl s r) 30 == d2h
    && decide (1 ≤ ringPosted s r) && decide (ringPosted s r ≤ ringSize s r)

/-- A descriptor of ring `r` could begin: a D2H ring's waits for an item (R481). -/
def ringDue (s : State) (r : Nat) : Bool :=
  (ringJob s r).isNone && (ringReady s r false || (ringReady s r true && ! (queueGet s (fld (ringCtl s r) 15 0)).items.isEmpty))

/-- It is ring `r`'s turn (R482): no ring between the one that began last and `r` could begin one.
DEDUCED, log entry 130. -/
def ringTurn (s : State) (r : Nat) : Bool :=
  (List.range ((r + 15 - s.host.turn) % 16)).all fun i => ! ringDue s ((s.host.turn + 1 + i) % 16)

/-- The device reads and writes host memory for ring `r` of direction `d2h`: a descriptor that has
begun goes on, and the next begins in the ring's turn. -/
def ringServed (s : State) (r : Nat) (d2h : Bool) : Bool :=
  ringReady s r d2h && ((ringJob s r).isSome || ringTurn s r)

/-- Ring `r`'s descriptor begins, or goes on. -/
def ringBegin (s : State) (r : Nat) : State :=
  if (ringJob s r).isSome then s else hostPut s { s.host with turn := r }

/-- Host address of the descriptor at CONS. -/
def descAddr (s : State) (r : Nat) : Nat :=
  (csrGet s (ringReg offHostRingBaseHi r)).toNat * 4294967296 + (csrGet s (ringReg offHostRingBaseLo r)).toNat
    + ringCons s r % ringSize s r * 32

/-- A descriptor committed (R482): RESULT and DONE after `out`, the other writes to host
memory. -/
def ringCommit (s : State) (r : Nat) (d : List Byte) (code bytes : Nat) (out : List (Nat × List Byte)) : State :=
  let words := leBytes 4 (code + bytes % 2 ^ 24 * 256) ++ leBytes 4 1
  let s0 := ringBegin s r
  let s1 := ringJobPut (hostPut s0 { s0.host with out := out ++ [(descAddr s r + 24, words)] }) r none
  let s2 := csrPut s1 (ringReg offHostRingCons r) (wordOf ((ringCons s r + 1) % 65536))
  let s3 := bump s2 offHostDesc
  if dIrq d then ringFire s3 r else s3

/-- Reserved fields of a descriptor that are not zero. -/
def descReserved (d : List Byte) : Bool :=
  byteAt d 13 / 2 != 0 || leAt d 14 2 != 0 || (dOp d == 1 && dAddr d != 0)

/-- The code with which a descriptor ends before it moves anything, if it does.
DEDUCED, log entry 130. -/
def descCode (s : State) (d2h : Bool) (d : List Byte) : Option (Nat) :=
  let limit := if d2h then 0xFFFFFFFF else if dOp d = 1 then 14336 else 1048576
  if dLen d = 0 then some 0
  else if dOp d = 0 ∨ 3 < dOp d ∨ (d2h ∧ dOp d ≠ 1) ∨ descReserved d then some 1
  else if limit < dLen d then some 2
  else if dOp d ≠ 1 ∧ (dAddr d < hwBase ∨ hwEnd < dAddr d + dLen d) then some 3
  else if dOp d = 1 ∧ d2h = false ∧ freeCells s < (dLen d + 111) / 112 then some 4
  else none

/-- A ring stopped by a host memory error (R481, R483): its RESULT says code 0x06, and the descriptor is not
committed.
DEDUCED, log entry 130. -/
def ringHostError (s : State) (r : Nat) : State :=
  let s1 := ringError s r 2
  hostPut s1 { s1.host with out := [(descAddr s r + 24, leBytes 4 6)] }

/-- The common frame of the ring commands: codes that move nothing, then host memory
errors, then the descriptor's own work.
DEDUCED, log entry 130. -/
def ringStep (s : State) (r : Nat) (d2h : Bool) (d : List Byte) (err : Bool) (work : State → State) : State :=
  if ringServed s r d2h then
    if (ringJob s r).isSome then (if err then ringHostError s r else work s)
    else
      match descCode s d2h d with
      | some c => ringCommit s r d c 0 []
      | none => if err then ringHostError s r else work s
  else s

/-- H2D MSG, and any descriptor of an H2D ring whose OP is neither WRITE nor READ: begun, or
committed when `commit`. -/
def execRingH2dMsg (r : Nat) (d data : List Byte) (err commit : Bool) (s : State) : Result :=
  .next (if dOp d = 2 ∨ dOp d = 3 then s
  else ringStep s r false d err fun s =>
    let bs := padTo (dLen d) data
    let got : Option (Item × State) := match ringJob s r with
      | some j => j.built.map fun i => (i, s)
      | none => buildItem s 0 0 bs
    match got with
    | none => s
    | some (i, s1) =>
      let s2 := clearingCheck s1
      if commit then
        let s3 := memPut s2 (cellAddr s2 i.head + 4) 4 (ts32 s2.time)
        let s4 := clearingCheck (pushItem s3 (fld (ringCtl s3 r) 15 0) i 0x12)
        ringCommit (cntAdd s4 offHostH2db (dLen d)) r d 0 (dLen d) []
      else ringJobPut (ringBegin s2 r) r (some ⟨some i, none⟩))

/-- H2D WRITE: the heartwood bytes, then the commit when `commit`. -/
def execRingH2dWrite (r : Nat) (d data : List Byte) (err commit : Bool) (s : State) : Result :=
  .next (if dOp d ≠ 2 then s
  else ringStep s r false d err fun s =>
    let s1 := if (ringJob s r).isSome then s else busWrite s (dAddr d) (padTo (dLen d) data)
    if commit then ringCommit (cntAdd s1 offHostH2db (dLen d)) r d 0 (dLen d) []
    else ringJobPut (ringBegin s1 r) r (some ⟨none, none⟩))

/-- H2D READ: heartwood written to host memory. -/
def execRingH2dRead (r : Nat) (d : List Byte) (err commit : Bool) (s : State) : Result :=
  .next (if dOp d ≠ 3 then s
  else ringStep s r false d err fun s =>
    if commit then
      if anyPoison s (dAddr d) (dLen d) then ringCommit s r d 7 0 []
      else
        ringCommit (cntAdd s offHostD2hb (dLen d)) r d 0 (dLen d) [(dHaddr d, memBytes s (dAddr d) (dLen d))]
    else ringJobPut (ringBegin s r) r (some ⟨none, none⟩))

/-- Whether the cells of an item hold uncorrectable data. -/
def itemBad (s : State) (i : Item) : Bool := (itemCells s i).any fun c => anyPoison s (cellAddr s c) 128

/-- D2H MSG: an item popped, or the descriptor waits; then the commit when `commit`.
DEDUCED, log entries 50, 130. -/
def execRingD2hMsg (r : Nat) (d : List Byte) (err commit : Bool) (s : State) : Result :=
  .next (ringStep s r true d err fun s =>
    let q := fld (ringCtl s r) 15 0
    let got : Option (Item × State) := match ringJob s r with
      | some j => j.popped.map fun i => (i, s)
      | none => (match (queueGet s q).items with
        | [] => none
        | i :: _ => some (i, (popQueue s q).2))
    match got with
    | none => s
    | some (i, s1) =>
      if commit then
        let bs := itemBytes s1 i
        let s2 := clearingCheck (freeItem s1 i)
        if itemBad s1 i then ringCommit s2 r d 7 0 []
        else
          let n := min bs.length (dLen d)
          ringCommit (cntAdd s2 offHostD2hb n) r d (if dLen d < bs.length then 5 else 0) bs.length
            [(dHaddr d, bs.take n)]
      else ringJobPut (ringBegin s1 r) r (some ⟨none, some i⟩))

/-! ## Signal doorbells (R484) -/

/-- A value offered to its doorbell's target: delivered, discarded, or held. -/
def doorbellOffer (s : State) (k : Nat) (v : Word) : State :=
  let w := csrGet s (offHostDbtgt + 4 * k)
  let clear := fun (a : State) => hostPut a { a.host with held := smapPut none a.host.held k none }
  if w = 0xFFFFFFFF#32 ∨ (undeliverable s w).isSome then clear (bump s offHostDbdrop)
  else
    match deliver s .host w v (wordOf (0x8212 + k * 0x10000)) 0x12 0 false with
    | some s1 => clear s1
    | none => hostPut s { s.host with held := smapPut none s.host.held k (some v) }

/-- A write of signal doorbell `k`: it replaces a value that is held.
DEDUCED, log entry 134. -/
def execSignalDoorbell (k : Nat) (v : Word) (s : State) : Result :=
  .next (if barOn s ∧ k < 64 then
    let s1 := if (smapGet none s.host.held k).isSome then bump s offHostDbdrop else s
    doorbellOffer s1 k v
  else s)

/-- The values held offered again (R173), in rising doorbell number (R159).
DEDUCED, log entry 134. -/
def doorbellRetry (s : State) : State :=
  s.host.held.foldl (fun a kv =>
    match kv.2 with
    | none => a
    | some v => doorbellOffer a kv.1 v) s

/-! ## The link (R485, R493, R498) -/

/-- Registers of a ring after R485: CTL but for RUN and the base stay, and CONS stays.
DEDUCED, log entry 131. -/
def ringReset (s : State) (r : Nat) : State :=
  let s1 := ringRollback s r
  csrPut (csrPut (csrSetBit s1 (ringReg offHostRingCtl r) 31 false) (ringReg offHostRingProd r) 0)
    (ringReg offHostRingStat r) 0

/-- A reset of the PCIe core (R485): 0 hot reset, 1 link down, 2 FLR.  HOST_STAT returns to its reset
value (R494).
DEDUCED, log entry 132. -/
def pcieReset (s : State) (cause : Nat) : State :=
  let n := (s.host.job.filter fun j => j.2.isSome).length
  let s1 := csrPut ((List.range 16).foldl ringReset s) offHostStat 0
  let s2 := hostPut s1 { s1.host with
    memEn := false
    busMaster := false
    msixEn := false
    funMask := false
    d3 := false
    table := []
    pend := []
    sentAt := [] }
  hostEvent (doorbellRetry s2) 2 cause (leBytes 2 n)

def execPcieHotReset (s : State) : Result := .next (if s.host.on then pcieReset s 0 else s)

def execPcieLinkDown (s : State) : Result := .next (if s.host.on then pcieReset s 1 else s)

def execPcieFlr (s : State) : Result := .next (if s.host.on then pcieReset s 2 else s)

/-- A byte of BAR4 as the host reads it (R484): the MSI-X table, the pending bits, zero elsewhere. -/
def bar4Byte (s : State) (o : Nat) : Byte :=
  if 0x8000 ≤ o ∧ o < 0x8400 then (leBytes 4 (msixWord s ((o - 0x8000) / 4)).toNat).getD (o % 4) 0
  else if 0x9000 ≤ o ∧ o < 0x9008 then
    BitVec.ofNat 8 (((List.range 8).map fun i => boolBit (s.host.pend.contains ((o - 0x9000) * 8 + i)) i).sum)
  else 0

/-- What a read of the endpoint returns: Vendor and Device ID, class code, serial number, Max payload and
Max read request (R472), the type bits of BAR0, BAR2 and BAR4 (R473), or bytes of BAR4 while it answers.
PRESUMED, log entry 191. -/
def pcieAnswer (s : State) (r : PcieRead) : Option (List Byte) :=
  match r with
  | .ident => some (leBytes 2 0x1F3C ++ leBytes 2 (0x7160 + s.variantH.toNat))
  | .classCode => some (leBytes 3 0x118000)
  | .serial => some (leBytes 8 Config.pcieSerial.toNat)
  | .sizes => some (leBytes 2 256 ++ leBytes 2 512)
  | .barTypes => some [0x0#8, 0xC#8, 0x4#8]
  | .bar4 o n => if barOn s then some ((List.range n).map fun i => bar4Byte s (o + i)) else none

/-- A read of the endpoint, if host software makes one. -/
def pcieRead (s : State) (r : Option PcieRead) : State :=
  match r.bind (pcieAnswer s) with
  | none => s
  | some bs => { s with busRead := bs }

/-- The link trains to a speed (1–4) and a width, and host software sets the configuration
space and, through BAR4 while it answers, the MSI-X table.
DESIGN CHOICE, log entry 133. -/
def execPcieLinkChange (speed width : Nat) (c : PcieCfg) (s : State) : Result :=
  .next (if s.host.on then
    let s0 := hostPut s { s.host with
      memEn := c.memEn, busMaster := c.busMaster, msixEn := c.msixEn, funMask := c.funMask, d3 := c.d3 }
    let s1 := if barOn s0 then
        hostPut s0 (c.table.foldl (fun h x => if x.1 < 256 then msixPut h x.1 x.2 else h) s0.host)
      else s0
    let up := decide (0 < width)
    let link := 0x80000000 * up.toNat + speed % 8 * 0x10000000 + width % 8 * 0x2000000
    let old := csrGet s1 offHostStat
    let s2 := pcieRead s1 c.read
    if old &&& 0xFE000000#32 = wordOf link then s2
    else
      hostEvent (csrPut s2 offHostStat (wordOf link ||| (old &&& 3#32))) 1 (up.toNat + speed % 8 * 2 + width % 8 * 16) []
  else s)

end Sys2Proof.Machine
end

