-- ==== Sys2Proof/Machine/Island.lean ====
section
/-! DEFINITION. The high-voltage island and its link (R531, R541–R548, R554, R555): feed
monitor, alarm outputs and alarm inputs. -/

namespace Sys2Proof.Machine

def hvsPut (s : State) (h : HvsSt) : State := { s with hvs := h }

def hvsEvent (s : State) (code flags : Nat) (data : List Byte) : State := raise0 s 0x14 code flags data

/-- HVS_STAT.ISLAND. -/
def islandOn (s : State) : Bool := bitOf (csrGet s offHvsStat) 31

/-- One ms in ns of elapsed time. -/
def msNs : Nat := 1000000

/-! ## Feeds (R542, R543) -/

/-- HVS_CTL.PERSIST as it acts. -/
def hvsPersist (s : State) : Nat := max 1 (csrFld s offHvsCtl 7 0)

/-- The thresholds UV, OV and HYST as they act (R554). -/
def feedLimits (s : State) : Int × Int × Int :=
  let ov := csrFld s offHvsFthr 23 12
  let uv := csrFld s offHvsFthr 11 0
  (if ov ≤ uv then (ov : Int) - 1 else uv, ov, csrFld s offHvsFthr 31 24)

/-- The filtered value: the mean of the last 8 samples.
DEDUCED, log entry 139. -/
def feedValue (f : FeedSt) : Nat := f.samples.sum / 8

/-- The state whose entry condition a value meets: 0 OK, 1 UNDER, 2 OVER, 3 ABSENT. -/
def feedEntry (l : Int × Int × Int) (v : Int) : Nat :=
  if v < 400 then 3 else if v < l.1 then 1 else if v ≤ l.2.1 then 0 else 2

/-- Whether a value meets the condition for leaving a state. -/
def feedLeaves (l : Int × Int × Int) (state : Nat) (v : Int) : Bool :=
  match state with
  | 0 => decide (v < l.1) || decide (l.2.1 < v)
  | 1 => decide (l.1 + l.2.2 ≤ v) || decide (v < 400)
  | 2 => decide (v ≤ l.2.1 - l.2.2)
  | _ => decide (400 + l.2.2 ≤ v)

/-- A sample taken in: the feed, and its old state when it changed. -/
def feedStep (l : Int × Int × Int) (persist : Nat) (f : FeedSt) (x : Nat) : FeedSt × Option Nat :=
  let f1 := { f with samples := (min x 4095 :: f.samples).take 8 }
  let v : Int := feedValue f1
  if feedLeaves l f.state v then
    if persist ≤ f.run + 1 then ({ f1 with state := feedEntry l v, run := 0 }, some f.state)
    else ({ f1 with run := f.run + 1 }, none)
  else ({ f1 with run := 0 }, none)

/-- What a feed's change leaves to tell. -/
def feedNews (i : Nat) (f : FeedSt) (old : Option Nat) : List HvsNews :=
  match old with
  | none => []
  | some o => if o = f.state then [] else [.feed i f.state o (feedValue f)]

/-- A sample of both feeds in units of 25 mV. -/
def execHvsFeedSample (a b : Nat) (s : State) : Result :=
  .next (if s.hvs.power then
    let l := feedLimits s
    let x := feedStep l (hvsPersist s) s.hvs.feedA a
    let y := feedStep l (hvsPersist s) s.hvs.feedB b
    hvsPut s { s.hvs with
      feedA := x.1
      feedB := y.1
      news := s.hvs.news ++ feedNews 0 x.1 x.2 ++ feedNews 1 y.1 y.2 }
  else s)

/-! ## Outputs (R544–R547) -/

def outGet (h : HvsSt) (n : Nat) : OutSt := smapGet OutSt.reset h.out n
def outPut (h : HvsSt) (n : Nat) (o : OutSt) : HvsSt := { h with out := smapPut OutSt.reset h.out n o }

/-- Whether output `n` is commanded closed: ON differs from POL (R544). -/
def outWanted (h : HvsSt) (n : Nat) : Bool :=
  (bitOf h.almout n || (n == 0 && h.crit)) != bitOf h.almout (8 + n)

/-- Whether a retry of an output is in its last millisecond at `now`: a command then waits for the
retry's outcome (R546).
DEDUCED, log entry 140. -/
def retryEnding (o : OutSt) (now : Int) : Bool :=
  match o.retryAt with
  | none => false
  | some t => decide (t + msNs ≤ now)

/-- A command reaches output `n` at `now`: open at once; closed at once unless it is open under
fault (R546).  Only a write that commands it open ends a fault episode, not the loss of the link (R541, R545).
DEDUCED, log entry 140. -/
def outCommand (now : Int) (h : HvsSt) (n : Nat) : HvsSt :=
  let o := outGet h n
  if retryEnding o now then h
  else if outWanted h n then
    if o.openAt.isSome then h else outPut h n { o with closed := true }
  else
    let written := bitOf h.almout n == bitOf h.almout (8 + n)
    outPut h n { o with
      closed := false
      limiting := false
      openAt := if written then none else o.openAt
      retryAt := none
      episode := o.episode && ! written }

/-- The island takes a value of HVS_ALMOUT at `now`. -/
def takeAlmout (now : Int) (h : HvsSt) (v : Word) : HvsSt :=
  (List.range 3).foldl (outCommand now) { h with almout := v, crit := false }

/-- One thing the island has to tell, told (R554, R555).
DEDUCED, log entry 141. -/
def tellNews (s : State) (x : HvsNews) : State :=
  match x with
  | .fault n cause event =>
    let s1 := csrSetBit s offHvsAlmstat (16 + n) true
    if event then
      let s2 := bump s1 offHvsOutfault
      if bitOf (csrGet s offHvsCtl) 29 then hvsEvent s2 2 n (leBytes 1 cause) else s2
    else s1
  | .recovered n => if bitOf (csrGet s offHvsCtl) 29 then hvsEvent s 3 n [] else s
  | .feed i new old v =>
    let s1 := bump s offHvsFeedev
    if bitOf (csrGet s offHvsCtl) 30 then hvsEvent s1 1 i (leBytes 1 new ++ leBytes 1 old ++ leBytes 2 v) else s1

/-- Whether news is about a feed, which a frame carries. -/
def isFeedNews (x : HvsNews) : Bool :=
  match x with
  | .feed _ _ _ _ => true
  | _ => false

/-- Bits of the outputs for which `p` holds. -/
def outBits (h : HvsSt) (p : OutSt → Bool) : Nat := ((List.range 3).map fun n => boolBit (p (outGet h n)) n).sum

/-- HVS_ALMSTAT but for FAULT as the island reports it. -/
def reportOutputs (s : State) : State :=
  let h := s.hvs
  csrSetFld (csrSetFld (csrSetFld s offHvsAlmstat 2 0 (outBits h fun o => o.closed))
    offHvsAlmstat 10 8 (outBits h fun o => o.limiting)) offHvsAlmstat 26 24 (outBits h fun o => o.thermal)

/-- The alarm inputs as the island reports them (R548). -/
def reportInputs (s : State) : State :=
  let old := csrFld s offHvsAin 1 0
  let new := s.hvs.ain % 4
  let diff := old ^^^ new
  if diff = 0 then s
  else
    let s1 := csrSetFld (csrSetFld s offHvsAin 1 0 new) offHvsAin 9 8 (csrFld s offHvsAin 9 8 ||| diff)
    let s2 := cntAdd s1 offHvsAinchg ((boolBit (diff.testBit 0) 0) + (boolBit (diff.testBit 1) 0))
    if csrFld s offHvsAincfg 17 16 &&& diff = 0 then s2 else hvsEvent s2 4 new (leBytes 1 diff)

/-- Output and input state told to the main die while the link runs; with the link lost
it waits for the first frame.
DEDUCED, log entry 141. -/
def hvsReport (s : State) : State :=
  if islandOn s then
    let tell := s.hvs.news.filter fun x => ! isFeedNews x
    let s1 := hvsPut s { s.hvs with news := s.hvs.news.filter isFeedNews }
    tell.foldl tellNews (reportInputs (reportOutputs s1))
  else s

/-- Output `n` opens under fault (R545); a command that waited for a retry's outcome is applied (R546).
DEDUCED, log entry 140. -/
def faultOpen (s : State) (n cause : Nat) (thermal : Bool) : State :=
  let o := outGet s.hvs n
  let h := outPut s.hvs n { o with
    closed := false
    limiting := false
    thermal := thermal
    openAt := some (elapsed s.time)
    retryAt := none
    episode := true }
  hvsReport (hvsPut s (outCommand (elapsed s.time) { h with news := h.news ++ [.fault n cause (! o.episode)] } n))

/-- The load current of output `n` reaches its limit, or falls below it. -/
def execOutputCurrentLimit (n : Nat) (on : Bool) (s : State) : Result :=
  .next (let o := outGet s.hvs n
    if s.hvs.power ∧ n < 3 ∧ o.closed ∧ o.limiting ≠ on then
      hvsReport (hvsPut s (outPut s.hvs n { o with
        limiting := on
        limitAt := if on then some (elapsed s.time) else o.limitAt }))
    else s)

/-- Whether a retry of an output has met the limit: `limitAt` is cleared at its start. -/
def retryLimited (o : OutSt) : Bool := o.limiting || o.limitAt.isSome

/-- Limiting has lasted 2 ms, or a retry that met the limit has lasted 2 ms. -/
def execOutputLimitShutdown (n : Nat) (s : State) : Result :=
  .next (let o := outGet s.hvs n
    let due := (o.limiting && o.limitAt.all fun (t : Int) => decide (t + 2 * (msNs : Int) ≤ (elapsed s.time : Int)))
      || (match o.retryAt with
          | none => false
          | some t => retryLimited o && decide (t + 2 * msNs ≤ elapsed s.time))
    if s.hvs.power && decide (n < 3) && o.closed && due then faultOpen s n 1 o.thermal else s)

/-- The switch of output `n` reaches 150 °C.
DEDUCED, log entry 140. -/
def execOutputThermalShutdown (n : Nat) (s : State) : Result :=
  .next (let o := outGet s.hvs n
    if s.hvs.power ∧ n < 3 then
      if o.closed then faultOpen s n 2 true
      else hvsReport (hvsPut s { outPut s.hvs n { o with thermal := true } with
        news := s.hvs.news ++ [.fault n 2 false] })
    else s)

/-- The switch of output `n` cools below 130 °C. -/
def execThermalLimitCleared (n : Nat) (s : State) : Result :=
  .next (if s.hvs.power ∧ n < 3 then hvsReport (hvsPut s (outPut s.hvs n { outGet s.hvs n with thermal := false }))
    else s)

def execOutputRetry (n : Nat) (s : State) : Result :=
  .next (let o := outGet s.hvs n
    match o.openAt with
    | none => s
    | some t =>
      if s.hvs.power ∧ n < 3 ∧ o.thermal = false ∧ outWanted s.hvs n ∧ t + 100 * msNs ≤ elapsed s.time then
        hvsReport (hvsPut s (outPut s.hvs n { o with
          closed := true
          limitAt := none
          openAt := none
          retryAt := some (elapsed s.time) }))
      else s)

def execOutputRecovered (n : Nat) (s : State) : Result :=
  .next (let o := outGet s.hvs n
    match o.retryAt with
    | none => s
    | some t =>
      if s.hvs.power ∧ n < 3 ∧ retryLimited o = false ∧ t + 2 * msNs ≤ elapsed s.time then
        let h := outPut s.hvs n { o with retryAt := none, episode := false }
        hvsReport (hvsPut s (outCommand (elapsed s.time) { h with news := h.news ++ [.recovered n] } n))
      else s)

/-- A write of HVS_ALMOUT: the island takes it while the link runs and it has power (R531). -/
def writeAlmout (s : State) (v : Word) : State :=
  let s1 := csrPut s offHvsAlmout (v &&& 0x707#32)
  if islandOn s1 ∧ s1.hvs.power then hvsReport (hvsPut s1 (takeAlmout (elapsed s.time) s1.hvs (v &&& 0x707#32))) else s1

def execHvsAlmoutWrite (v : Word) (s : State) : Result := .next (writeAlmout s v)

/-! ## The link (R541) -/

/-- HVS_FEEDA or HVS_FEEDB and its extremes after a frame. -/
def reportFeed (s : State) (o mm : Nat) (f : FeedSt) : State :=
  let v := feedValue f
  let s1 := csrPut s o (wordOf (f.state * 0x40000000 + v))
  csrSetFld (csrSetFld s1 mm 27 16 (max v (csrFld s mm 27 16))) mm 11 0 (min v (csrFld s mm 11 0))

/-- What an island frame carries.
DEDUCED, log entry 141. -/
def islandFrame (s : State) : State :=
  let s1 := hvsPut s { s.hvs with frameAt := elapsed s.time, news := [] }
  let s2 := reportFeed (reportFeed s1 offHvsFeed offHvsFeedMm s.hvs.feedA) (offHvsFeed + 4) (offHvsFeedMm + 4) s.hvs.feedB
  s.hvs.news.foldl tellNews (reportInputs (reportOutputs s2))

/-- Milliseconds since the last island frame, saturating. -/
def silenceMs (s : State) : Nat := min 0xFFFFFFFF ((elapsed s.time - s.hvs.frameAt) / msNs).toNat

/-- Frames resume: ISLAND, the event, and HVS_ALMOUT written to the island.
DEDUCED, log entry 139. -/
def linkRestore (s : State) : State :=
  let s1 := hvsEvent (csrSetBit s offHvsStat 31 true) 5 1 (leBytes 4 (silenceMs s))
  hvsPut s1 (takeAlmout (elapsed s.time) s1.hvs (csrGet s offHvsAlmout))

def execHvsIslandFrame (s : State) : Result :=
  .next (if s.hvs.power then islandFrame (if islandOn s then s else linkRestore s) else s)

def execHvsLinkRestored (s : State) : Result :=
  .next (if s.hvs.power && ! islandOn s then islandFrame (linkRestore s) else s)

def execHvsLinkLost (s : State) : Result :=
  .next (if islandOn s ∧ s.hvs.frameAt + 5 * msNs ≤ elapsed s.time then
    let s1 := csrSetBit (csrSetBit s offHvsStat 31 false) offHvsStat 30 true
    hvsEvent (bump s1 offHvsLinkdrop) 5 0 (leBytes 4 (silenceMs s))
  else s)

/-- The critical output put in its ON state. -/
def lossCrit (now : Int) (h : HvsSt) : HvsSt := outCommand now { h with crit := true } 0

def execHvsLossCrit (s : State) : Result :=
  .next (if s.hvs.power ∧ islandOn s = false ∧ bitOf (csrGet s offHvsCtl) 31
      ∧ s.hvs.frameAt + 1000 * msNs ≤ elapsed s.time then
    hvsPut s (lossCrit (elapsed s.time) s.hvs)
  else s)

/-! ## Inputs and power (R531, R548) -/

/-- Input `k` has stood at level `on` for `ms` milliseconds. -/
def execAlarmInputChange (k : Nat) (on : Bool) (ms : Nat) (s : State) : Result :=
  .next (if s.hvs.power ∧ k < 2 ∧ max 1 (csrFld s offHvsAincfg 7 0) ≤ ms ∧ s.hvs.ain.testBit k ≠ on then
    hvsReport (hvsPut s { s.hvs with ain := s.hvs.ain % 4 ^^^ 2 ^ k })
  else s)

/-- The larger feed reaches or falls below 30 V.  Off, every contact is open; an island that returns while
the link still runs takes HVS_ALMOUT with its first frame (R544).
DEDUCED, log entry 142. -/
def execIslandPower (on : Bool) (s : State) : Result :=
  .next (if on = s.hvs.power then s
  else if on then
    let h := { s.hvs with power := true }
    hvsPut s (if islandOn s then takeAlmout (elapsed s.time) h (csrGet s offHvsAlmout) else h)
  else hvsPut s { HvsSt.reset with frameAt := s.hvs.frameAt, ain := s.hvs.ain })

end Sys2Proof.Machine
end

