-- ==== Sys2Proof/Machine/Mirror.lean ====
section
/-! DEFINITION. The mirror controller (15_mirror_pair.md): roles and epochs, heartbeats and
the death of the peer, the sleeping standby, the mirror protocol, takeover and the
comparison of fingerprints. -/

namespace Sys2Proof.Machine

/-! ## Slots (R446, R447) -/

/-- NFN mod 80 of the unit's own slots, or of its peer's. -/
def slotPhase (s : State) (own : Bool) : Nat :=
  csrFld s offMirrHb 5 0 % 40 + 40 * (if own then s.dev.pairId.toNat else 1 - s.dev.pairId.toNat)

/-- The latest NFN up to `x` that is `ph` mod 80. -/
def slotUpTo (ph x : Nat) : Option Nat :=
  let d := (x + 80 - ph % 80) % 80
  if d ≤ x then some (x - d) else none

/-- MIRR_SLEEP.GUARD in ns as it acts. -/
def guardNs (s : State) : Nat := min 200 (max 5 (csrFld s offMirrSleep 7 0)) * 1000

/-- An ACTIVE peer heard on either path, or on the link, in the last three peer slots. -/
def activeHeard (s : State) : Bool := s.mirr.actNow || s.mirr.actHist.any fun x => x.1
def activeOnLink (s : State) : Bool := s.mirr.actLink || s.mirr.actHist.any fun x => x.2

/-! ## Commands' outcome -/

/-- A command ended with a code (R470). -/
def cmdDone (s : State) (code : Nat) : State :=
  csrPut (mirrPut s { s.mirr with cmd := none }) offMirrCmdstat (wordOf (0x80000000 + code))

/-- A command left waiting. -/
def cmdPend (s : State) (w : MirrWait) : State :=
  csrSetBit (mirrPut s { s.mirr with cmd := some w }) offMirrCmdstat 30 true

/-! ## Roles (R442–R444) -/

def gateAll (s : State) : State := (List.range 4).foldl macGate s
def ungateAll (s : State) : State := (List.range 4).foldl macUngate s

/-- The role event (R469). -/
def roleEvent (s : State) (old : MirrRole) (oldEpoch cause : Nat) : State :=
  mirrEvent s 1 (roleCode s.mirr.role + 8 * roleCode old)
    (leBytes 4 (mirrEpoch s) ++ leBytes 4 oldEpoch ++ leBytes 1 cause)

/-- Both directions' state discarded at a change of MIRR_EPOCH (R457).
DEDUCED, log entry 107. -/
def dropWindows (s : State) : State :=
  mirrPut s { s.mirr with win := [], posts := [], restart := true, expect := 0, base := none, ackDue := none }

/-- MIRR_EPOCH changed (R457). -/
def setEpoch (s : State) (e : Nat) : State :=
  if e = mirrEpoch s then s else dropWindows (csrPut s offMirrEpoch (wordOf e))

/-- A standby asks for a bulk sync (R444, R457).
DEDUCED, log entry 108. -/
def requestSync (s : State) : State :=
  mirrPut s { s.mirr with wantSync := true, insync := false, syncEnd := false, named := none,
                          gotState := [], gotEc := [] }

/-- A role taken that is not ACTIVE: the trunk ports gated (R442). -/
def takeRole (s : State) (r : MirrRole) : State :=
  gateAll (horizonEnd (mirrPut s { s.mirr with role := r, insync := false, demote := none }))

/-- The unit becomes FENCED (R444). -/
def fence (s : State) (cause : Nat) : State :=
  roleEvent (takeRole s .fenced) s.mirr.role (mirrEpoch s) cause

/-- CIPH_CTL.JUMP as it acts. -/
def jump (s : State) : Nat := min 16384 (max 1 (csrFld s offCiphCtl 14 0))

/-- A send slot `v` at promotion (R463): `i` is where its indexes stand in STATE, `h` the horizons that
the unit holds for it.
DEDUCED, log entry 117. -/
def promoteSend (j i : Nat) (state : Option (Nat × List Nat)) (h : Option (Nat × Nat × Nat)) (v : KeySlot) : KeySlot :=
  let byState := fun (x : Nat × List Nat) => { v with idx := x.2.getD i 0 + j, cidx := x.2.getD (i + 1) 0 + j }
  match state, h with
  | some x, some h => if x.1 < h.1 then { v with idx := h.2.1, cidx := h.2.2 } else byState x
  | none, some h => { v with idx := h.2.1, cidx := h.2.2 }
  | some x, none => byState x
  | none, none => { v with idx := v.idx + 16384, cidx := v.cidx + 16384 }

/-- A receive slot `v` at promotion: the mirrored highest index, with replay windows that start empty
(R357, R463).  A slot whose mirrored index is the imported one has authenticated nothing yet.
DEDUCED, log entry 117. -/
def promoteRecv (i : Nat) (state : Option (Nat × List Nat)) (h : Option (Nat × Nat)) (v : KeySlot) : KeySlot :=
  let v0 := { v with win := 0, cwin := 0 }
  let top := fun (k : Nat) => { v0 with idx := k, fresh := v.fresh && k == v.idx }
  let byState := fun (x : Nat × List Nat) => { top (x.2.getD i 0) with cidx := x.2.getD (i + 1) 0 }
  match h, state with
  | some h, some x => if x.1 < h.1 then { top h.2 with cidx := x.2.getD (i + 1) 0 } else byState x
  | some h, none => top h.2
  | none, some x => byState x
  | none, none => v0

/-- A bound slot of channel `n` at promotion, by its DIR (R357). -/
def promoteSlot (n : Nat) (s : State) (x : Nat × Nat) : State :=
  let p := smapGet MirrKeep.reset s.mirr.keep n
  let v := keySlotGet s x.1
  if v.send then
    let h := if dirSlot s n true = some x.1 then p.send else none
    limitWarn (keySlotPut s x.1 (promoteSend (jump s) x.2 p.state h v)) x.1 v.idx
  else keySlotPut s x.1 (promoteRecv x.2 p.state (if dirSlot s n false = some x.1 then p.recv else none) v)

/-- The cipher indexes of channel `n` at promotion (R357, R463). -/
def promoteKeys (s : State) (n : Nat) : State :=
  match chanKeys s n with
  | none => s
  | some (r, t) => [(t, 2), (r, 0)].foldl (promoteSlot n) s

/-- A promotion (R463), or none when the epoch would pass its end (R443).
DEDUCED, log entries 110, 117. -/
def promote (s : State) (cause : Nat) : Option State :=
  let old := mirrEpoch s
  let e := max old (csrGet s offMirrPeerEpoch).toNat + 1
  if 4294967295 < e then none
  else
    let s1 := horizonEnd (setEpoch s e)
    let calls := s1.mirr.calls.filterMap fun c => c.2.map fun x => (c.1, x)
    let s2 := mirrPut s1 { s1.mirr with
      role := .active
      promo := nfnOf s
      peerSleep := false
      insync := false
      wantSync := false
      asleep := false
      listen := none
      demote := none
      calls := []
      adopts := calls }
    let s3 := (bindings s2).foldl (fun s b => promoteKeys s b.1) (ungateAll s2)
    let s4 := adoptPump 8 (meterNow s3)
    some (roleEvent s4 s.mirr.role old cause)

/-! ## Bulk sync (R457) -/

/-- A bulk sync of this unit has frames that wait or are not acknowledged. -/
def syncRuns (s : State) : Bool :=
  (s.mirr.win.any fun f => f.sync) || s.mirr.posts.any fun p =>
    match p with
    | .desc _ b => b
    | .frame _ b _ => b
    | .horizon _ => false

/-- What waits without the frames of a bulk sync. -/
def dropSync (l : List MirrPost) : List MirrPost :=
  l.filter fun p =>
    match p with
    | .desc _ b => ! b
    | .frame _ b _ => ! b
    | .horizon _ => true

/-- A bulk sync sent whole; what still waits of an earlier one gives way to it. -/
def bulkSync (s : State) : State :=
  let bs := bindings s
  let s0 := mirrEvent (mirrPut s { s.mirr with posts := dropSync s.mirr.posts }) 5 0 (leBytes 4 bs.length)
  let s1 := bs.foldl (fun s b => mirrPost s (.desc b.1 true)) s0
  let s2 := s1.meter.open_.foldl (fun s c =>
    match c.2 with
    | none => s
    | some x => mirrCall s c.1 (if x.adopted then 2 else 1) x.ref.toNat (ts80 x.start) true) s1
  mirrPost s2 (.frame 0x13 true [])

/-! ## Role commands (R444) -/

/-- MAC4 is ready and MIRR_PEER is set (R440, code 0xA1). -/
def linkReady (s : State) : Bool :=
  fld (macReg s 4 offMacCtl) 31 29 == 7 && decide (2218 ≤ macFld s 4 offMacMaxlen 13 0) && beNat (mirrDest s) != 0

/-- A promotion on command. -/
def promoteCmd (s : State) (cause : Nat) : State :=
  match promote s cause with
  | none => cmdDone s 0xA4
  | some s1 => cmdDone s1 0

/-- The effect of a command that has passed the first four checks of R444. -/
def mirrPerform (s : State) (op : Nat) (force : Bool) : State :=
  match op, s.mirr.role with
  | 1, .init => cmdPend s (.startActive 3 (nfnOf s))
  | 2, .init => cmdPend s (.startStandby (s.time.ticks + 8000))
  | 3, .standby => if force || ! activeHeard s then promoteCmd s 0 else cmdDone s 0xA2
  | 3, .fenced => cmdDone s 0xA3
  | 4, .active =>
    if s.mirr.peerRole = 1 ∧ s.mirr.peerInsync ∧ s.mirr.linkOk then
      let s1 := roleEvent (takeRole s .standby) .active (mirrEpoch s) 0
      let s2 := mirrQueue s1 (.frame 3 false ([2] ++ zeros 7))
      cmdDone (mirrPut s2 { s2.mirr with demote := some (0, nfnOf s) }) 0
    else cmdDone s 0xA6
  | 5, .fenced =>
    if activeOnLink s then
      let e := max (mirrEpoch s) (csrGet s offMirrPeerEpoch).toNat
      cmdDone (roleEvent (requestSync (takeRole (setEpoch s e) .standby)) .fenced (mirrEpoch s) 0) 0
    else cmdDone s 0xA5
  | 6, .active => cmdDone (bulkSync s) 0
  | _, _ => cmdDone s 0xA0

/-- A write of MIRR_CMD (R444, R470).
DEDUCED, log entry 111. -/
def mirrCommand (s : State) (op : Nat) (force : Bool) : State :=
  if op = 0 ∨ 7 ≤ op then s
  else if s.mirr.cmd.isSome then csrPut s offMirrCmdstat 0xC00000A9#32
  else if mirrEn s = false then cmdDone s 0xA0
  else if s.mirr.pairErr then cmdDone s 0xA7
  else if linkReady s = false ∧ op ≠ 3 ∧ op ≠ 4 then cmdDone s 0xA1
  else mirrPerform s op force

def execStartActive (s : State) : Result := .next (mirrCommand s 1 false)
def execStartStandby (s : State) : Result := .next (mirrCommand s 2 false)
def execPromote (force : Bool) (s : State) : Result := .next (mirrCommand s 3 force)
def execDemote (s : State) : Result := .next (mirrCommand s 4 false)
def execRejoin (s : State) : Result := .next (mirrCommand s 5 false)
def execMirrSync (s : State) : Result := .next (mirrCommand s 6 false)

def execStartStandbyTimeout (s : State) : Result :=
  .next (match s.mirr.cmd with
    | some (.startStandby t) => if t ≤ s.time.ticks then cmdDone s 0xAA else s
    | _ => s)

/-- Three peer slots after a DEMOTE without an ACTIVE peer (R444). -/
def execDemoteTimeout (s : State) : Result :=
  .next (match s.mirr.demote with
    | none => s
    | some k =>
      if 3 ≤ k.1 then roleEvent (mirrPut s { s.mirr with demote := none }) s.mirr.role (mirrEpoch s) 5 else s)

/-- EN cleared: role INIT, epoch kept, no port gated (R441, R444).
DEDUCED, log entries 110, 111, 117. -/
def mirrOff (s : State) : State :=
  let m := s.mirr
  let s0 := if m.cmd.isSome then cmdDone s 0xA0 else s
  let s1 := ungateAll (horizonEnd (mirrPut s0 { MirrSt.reset with
    ecAt := m.ecAt, pairErr := m.pairErr, promo := m.promo, seq := m.seq }))
  if m.role = .init then s1 else roleEvent s1 m.role (mirrEpoch s) 0

/-- EN set: role INIT, ports gated, slots judged from the next one on. -/
def mirrOn (s : State) : State :=
  gateAll (mirrPut s { s.mirr with judged := ((slotUpTo (slotPhase s false) (nfnOf s)).map (· + 1)).getD 0 })

/-- A write of MIRR_CTL (R441, R444, R470). -/
def writeMirrCtl (s : State) (v : Word) : State :=
  let was := mirrEn s
  let s1 := csrPut s offMirrCtl (v &&& 0xF8000000#32)
  let s2 := if bitOf v 29 then s1 else mirrPut s1 { s1.mirr with asleep := false, listen := none, sleepLost := false }
  if was ∧ mirrEn s1 = false then mirrOff s2
  else if was = false ∧ mirrEn s1 then mirrOn s2
  else s2

def execMirrDisable (v : Word) (s : State) : Result := .next (writeMirrCtl s (setBit v 31 false))

/-! ## Sending -/

/-- Every unacknowledged frame sent again, with RETX (R456). -/
def resendAll (s : State) : State :=
  let s1 := s.mirr.win.foldl (fun s f =>
    bump (mirrHand s f.type (mirrFlags true true false f.sync f.restart) f.seq f.payload) offMirrRetxc) s
  mirrPut s1 { s1.mirr with win := s1.mirr.win.map fun f => { f with sent := f.sent + 1, since := s.time.ticks } }

/-- MIRR_RETX.MAX, ACKDLY in ns and TMO as they act. -/
def retxMax (s : State) : Nat := max 1 (csrFld s offMirrRetx 31 24)
def ackDelay (s : State) : Nat := max 1 (csrFld s offMirrRetx 23 16) * 1000
def retxTmo (s : State) : Nat := max 1 (csrFld s offMirrRetx 15 0)

/-- The oldest unacknowledged frame has been sent MAX + 1 times (R457). -/
def stalled (s : State) : Bool :=
  match s.mirr.win with
  | [] => false
  | f :: _ => decide (retxMax s + 1 ≤ f.sent)

/-- A stall (R457). -/
def stall (s : State) : State :=
  match s.mirr.win with
  | [] => s
  | f :: _ =>
    let s1 := mirrEvent s 6 0 (leBytes 4 f.seq)
    let s2 := mirrPut s1 { s1.mirr with win := [], restart := true }
    if s.mirr.role = .active then bulkSync s2
    else if s.mirr.role = .standby then requestSync s2
    else s2

def execRetxTimeout (s : State) : Result :=
  .next (match s.mirr.win with
    | [] => s
    | f :: _ =>
      if mirrEn s ∧ mirrHeld s = false ∧ f.since + retxTmo s ≤ s.time.ticks then
        if stalled s then stall s else resendAll s
      else s)

def execAckSend (s : State) : Result :=
  .next (match s.mirr.ackDue with
    | none => s
    | some t =>
      if mirrEn s ∧ t ≤ elapsed s.time then mirrSend (mirrPut s { s.mirr with ackDue := none }) 2 [] else s)

/-- LAST set on the frame of the burst that MAC4 sends last (R451): with preemption on, express frames
leave ahead of the others (R331).
DEDUCED, log entry 118. -/
def markLast (s : State) : State :=
  let m := macGet s 4
  let slow := m.tx.filter fun f => ! isExpress s 4 f
  match (if slow.isEmpty then m.tx else slow).getLast? with
  | none => s
  | some f =>
    let back := (m.tx.reverse.takeWhile fun g => g != f).reverse
    let front := m.tx.take (m.tx.length - back.length - 1)
    macPut s 4 { m with tx := front ++ [{ f with
      bytes := putBytes f.bytes 16 [BitVec.ofNat 8 (byteAt f.bytes 16) ||| 4#8] }] ++ back }

/-- A standby with MIRR_CTL.SLEEP at 1. -/
def sleeps (s : State) : Bool := mirrEn s && s.mirr.role == .standby && bitOf (csrGet s offMirrCtl) 29

/-- Width in µs of the pulse that shows a role (R446). -/
def pulseWidth (r : MirrRole) : Nat :=
  match r with
  | .init => 2
  | .standby => 2
  | .active => 4
  | .fenced => 8

/-- The payload of a HEARTBEAT frame (R454).
DEDUCED, log entry 108. -/
def beatPayload (s : State) (slot : Nat) : List Byte :=
  beBytes 8 slot ++ beBytes 1 (s.mirr.wantSync.toNat + boolBit s.mirr.insync 1
    + boolBit (s.time.mode == .locked) 2 + boolBit (sleeps s) 3) ++ zeros 7

/-- The own slot at the current tick (R446, R451).
DEDUCED, log entry 118. -/
def execHeartbeatSend (s : State) : Result :=
  .next (if mirrEn s ∧ nfnOf s % 80 = slotPhase s true ∧ s.mirr.beatAt ≠ nfnOf s + 1 then
    let s1 := mirrPut s { s.mirr with beatAt := nfnOf s + 1, pulse := pulseWidth s.mirr.role, pulseAt := elapsed s.time }
    if mirrHeld s1 then
      let s2 := if stalled s1 then stall s1 else s1
      let s3 := resendAll (mirrHand s2 1 0 0 (beatPayload s2 (nfnOf s)))
      markLast (mirrFlush s3.mirr.posts.length s3)
    else mirrHand s1 1 0 0 (beatPayload s1 (nfnOf s))
  else s)

/-! ## Hearing the peer -/

/-- A role shown by the peer on a path, the link or the pin (R447, R444). -/
def showRole (s : State) (role : Nat) (link : Bool) : State :=
  let m := s.mirr
  let act := role == 2
  let s1 := mirrPut s { m with peerRole := role, actNow := m.actNow || act, actLink := m.actLink || (act && link),
                               demote := if act then none else m.demote }
  match m.cmd with
  | some (.startActive _ _) => if act then cmdDone s1 0xA2 else s1
  | _ => s1

/-- The role that a pulse of `ns` shows, if its width as measured to 20 ns is one of R446 (R539).
DESIGN CHOICE, log entry 194. -/
def widthRole (s : State) (ns : Nat) : Option Nat :=
  let w := ns / 20 * 20
  if 1500 ≤ w ∧ w ≤ 2500 then some (if s.mirr.peerRole ≤ 1 then s.mirr.peerRole else 0)
  else if 3500 ≤ w ∧ w ≤ 4500 then some 2
  else if 7500 ≤ w ∧ w ≤ 8500 then some 3
  else none

/-- The peer slot whose pin window the current instant lies in (R447). -/
def pinSlot (s : State) : Option Nat :=
  let t := nfnNs s.time - csrFld s offMirrHb 15 8 * 100
  let g : Int := guardNs s
  match slotUpTo (slotPhase s false) ((t + g) / 125000).toNat with
  | none => none
  | some p => if t - g ≤ p * 125000 ∧ p * 125000 ≤ t + g then some p else none

/-- A pulse of `w` ns that rises on PEER_HB_IN (R447). -/
def execPeerHbPulse (w : Nat) (s : State) : Result :=
  .next (match mirrEn s, pinSlot s, widthRole s w with
    | true, some p, some r =>
      showRole (mirrPut s { s.mirr with pinSlot := p + 1, lastHeard := max s.mirr.lastHeard p }) r false
    | _, _, _ => s)

/-- Consecutive heard and silent slots after one more. -/
def runNext (r : Nat × Nat) (heard : Bool) : Nat × Nat :=
  if heard then (min 3 (r.1 + 1), 0) else (0, min 3 (r.2 + 1))

/-- Whether a path is alive after a judgement (R448). -/
def pathNext (ok : Bool) (r : Nat × Nat) : Bool := if r.1 = 3 then true else if r.2 = 3 then false else ok

/-- The peer declared dead (R449). -/
def peerDead (s : State) : State :=
  let s1 := horizonEnd (mirrPut s { s.mirr with peerRole := 7, peerSleep := false, peerInsync := false })
  let s2 := mirrPump (mirrEvent s1 3 0 (leBytes 8 s.mirr.lastHeard ++ leBytes 8 (nfnOf s)))
  if s2.mirr.role = .standby ∧ bitOf (csrGet s2 offMirrCtl) 30 then (promote s2 1).getD s2
  else
    match s2.mirr.cmd with
    | some (.startActive _ _) => promoteCmd s2 0
    | _ => s2

/-- A START_ACTIVE after peer slot `p` without an ACTIVE peer, if that comes after the command (R444). -/
def startActiveSlot (s : State) (p : Nat) : State :=
  match s.mirr.cmd with
  | some (.startActive k t) =>
    if p ≤ t then s
    else if k ≤ 1 then promoteCmd s 0
    else mirrPut s { s.mirr with cmd := some (.startActive (k - 1) t) }
  | _ => s

/-- The judgement of peer slot `p` (R447–R449): each path that changes raises its event, the link first.
DEDUCED, log entry 109. -/
def judgeSlot (s : State) (p : Nat) : State :=
  let m := s.mirr
  let link := m.linkSlot == p + 1
  let pin := m.pinSlot == p + 1
  let lr := runNext m.linkRun link
  let pr := runNext m.pinRun pin
  let dead := if link || pin then 0 else m.deadRun + 1
  let m1 := { m with
    judged := p + 1
    linkRun := lr
    pinRun := pr
    linkOk := pathNext m.linkOk lr
    pinOk := pathNext m.pinOk pr
    deadRun := dead
    actHist := ((m.actNow, m.actLink) :: m.actHist).take 3
    actNow := false
    actLink := false
    demote := m.demote.map fun d => if d.2 < p then (d.1 + 1, d.2) else d }
  let s1 := mirrPut s m1
  let s2 := if link then s1 else bump s1 offMirrLinkmiss
  let s3 := if pin then s2 else bump s2 offMirrPinmiss
  let s4 := if m1.linkOk = m.linkOk then s3
    else mirrEvent s3 2 (m1.linkOk.toNat + 2 * m.pinOk.toNat) (leBytes 8 p)
  let s5 := if m1.pinOk = m.pinOk then s4
    else mirrEvent s4 2 (m1.linkOk.toNat + 2 * m1.pinOk.toNat) (leBytes 8 p)
  startActiveSlot (if dead = 3 then peerDead s5 else s5) p

/-- The latest peer slot whose link deadline has passed.
DEDUCED, log entry 109. -/
def dueSlot (s : State) : Option Nat :=
  if nfnOf s < 8 then none else slotUpTo (slotPhase s false) (nfnOf s - 8)

def execPeerSlotJudge (s : State) : Result :=
  .next (match dueSlot s with
    | none => s
    | some p => if mirrEn s ∧ s.mirr.judged ≠ p + 1 then judgeSlot s p else s)

/-- MIRR_STAT.DEGRADED (R448, R453). -/
def degraded (s : State) : Bool := (s.mirr.linkOk != s.mirr.pinOk) || s.mirr.sleepLost

/-- MIRR_STAT (R470). -/
def mirrStat (s : State) : Word :=
  let m := s.mirr
  wordOf (boolBit m.linkOk 31 + boolBit m.pinOk 30 + boolBit m.insync 29 + boolBit m.cfgMis 28
    + boolBit (degraded s) 27 + boolBit m.pairErr 26 + boolBit (sleeps s) 25 + m.peerRole * 0x100
    + boolBit s.dev.pairId 7 + roleCode m.role)

/-! ## Frames received (R454) -/

/-- A mirror frame. -/
structure MirrRx where
  type : Nat
  seqd : Bool
  last : Bool
  sync : Bool
  restart : Bool
  role : Nat
  epoch : Nat
  seq : Nat
  ack : Nat
  payload : List Byte
  deriving DecidableEq, Repr

/-- Bytes `i` to `j` − 1 of a list are zero. -/
def zeroAt (l : List Byte) (i j : Nat) : Bool := ((l.drop i).take (j - i)).all fun b => b == 0

/-- Whether the payload of a TYPE has its length and its zero fields (R454). -/
def payloadOk (type : Nat) (p : List Byte) : Bool :=
  match type with
  | 0x01 => p.length == 16 && decide (byteAt p 8 < 16) && zeroAt p 9 16
  | 0x02 => p.isEmpty
  | 0x03 => p.length == 8 && (byteAt p 0 == 1 || byteAt p 0 == 2) && zeroAt p 1 4
  | 0x10 => p.length == 68 && zeroAt p 2 4
  | 0x11 => p.length == 4 && zeroAt p 3 4
  | 0x12 => p.length == 20 && decide (1 ≤ byteAt p 2) && decide (byteAt p 2 ≤ 3) && zeroAt p 18 20
  | 0x13 => p.isEmpty
  | 0x20 => (p.length == 600 || p.length == 1192 || p.length == 1784)
      && (chunks 592 (p.drop 8)).all fun e => zeroAt e 2 8 && zeroAt e 588 592
  | 0x21 => p.length == 2064 && decide (byteAt p 12 < 2) && zeroAt p 13 16
  | 0x22 => decide (32 ≤ p.length) && decide (p.length ≤ 2168) && p.length % 24 == 8
      && (chunks 24 (p.drop 8)).all fun e => decide (byteAt e 2 < 4) && zeroAt e 3 4 && zeroAt e 10 12 && zeroAt e 22 24
  | 0x30 => p.length == 24
  | 0x40 => decide (p.length ≤ 2176)
  | _ => false

/-- A received frame read, or none when it is malformed (R454).
DEDUCED, log entries 106, 116. -/
def mirrParse (f : RxFrame) : Option (MirrRx × Bool) :=
  let h := f.bytes.drop 14
  let n := beAt h 20 2
  let p := (h.drop 24).take n
  let fl := byteAt h 2
  let ty := byteAt h 1
  let x : MirrRx := ⟨ty, fl.testBit 0, fl.testBit 2, fl.testBit 3, fl.testBit 4, byteAt h 3 / 2, beAt h 4 4,
    beAt h 8 4, beAt h 12 4, p⟩
  if f.trunc = false ∧ beAt f.bytes 12 2 = 0x88B5 ∧ byteAt h 0 = 0x10 ∧ fl < 32 ∧ byteAt h 3 < 8
      ∧ zeroAt h 22 24 ∧ 24 + n ≤ h.length ∧ payloadOk ty p ∧ x.seqd = seqType ty p ∧ (x.seqd ∨ x.seq = 0) then
    some (x, (byteAt h 3).testBit 0)
  else none

/-- The frame of the wanted TYPE at the head of MAC4's FIFO, with fuel: malformed frames
before it and frames of the unit's own PAIR_ID are dropped, and with EN at 0 every frame is.
DEDUCED, log entry 116. -/
def takeMirr (fuel : Nat) (s : State) (type : Nat) : Option MirrRx × State :=
  match fuel with
  | 0 => (none, s)
  | fuel + 1 =>
    match (macGet s 4).rx with
    | [] => (none, s)
    | f :: r =>
      let s1 := macPut s 4 { macGet s 4 with rx := r }
      if mirrEn s = false then takeMirr fuel s1 type
      else
        match mirrParse f with
        | none => takeMirr fuel (bump s1 offMirrBadfrm) type
        | some (x, pair) =>
          if pair = s.dev.pairId then takeMirr fuel (mirrPut s1 { s1.mirr with pairErr := true }) type
          else if x.type = type then (some x, bump s1 offMirrRxfrm)
          else (none, s)

/-- A stale frame refused (R445). -/
def refuseStale (s : State) (x : MirrRx) : State :=
  let s1 := bump s offMirrStale
  let slot := ((slotUpTo (slotPhase s false) (nfnOf s)).map (· + 1)).getD 0
  if s1.mirr.refused = slot ∧ slot ≠ 0 then s1
  else mirrSend (mirrPut s1 { s1.mirr with refused := slot }) 3 ([1] ++ zeros 3 ++ beBytes 4 x.epoch)

/-- What the epoch and the sender of a frame do to the role (R444). -/
def judgeEpoch (s : State) (x : MirrRx) : State :=
  if mirrEpoch s < x.epoch then
    match s.mirr.role with
    | .active => fence s 2
    | .fenced => s
    | _ =>
      let s1 := setEpoch s x.epoch
      if x.role = 2 then requestSync s1 else s1
  else if s.mirr.role = .active ∧ x.role = 2 ∧ s.dev.pairId then fence s 3
  else s

/-- Whether SEQ `a` precedes or equals `b` (R456). -/
def seqUpTo (a b : Nat) : Bool := decide ((b + 4294967296 - a) % 4294967296 < 2147483648)

/-- An ACK taken: the window advances, raises bind, and what waited follows (R452, R456). -/
def ackTake (s : State) (a : Nat) : State :=
  let done := s.mirr.win.filter fun f => seqUpTo f.seq a
  if done.isEmpty then s
  else
    let s1 := mirrPut s { s.mirr with win := s.mirr.win.filter fun f => ! seqUpTo f.seq a }
    mirrPump (done.foldl (fun s f => f.binds.foldl horizonBind s) s1)

/-- What every valid frame does; the flag says whether it is applied (R443–R445, R450, R456). -/
def mirrCommon (s : State) (x : MirrRx) : State × Bool :=
  let pe := max (csrGet s offMirrPeerEpoch).toNat x.epoch
  let s1 := csrPut (mirrPut s { s.mirr with heardWake := true }) offMirrPeerEpoch (wordOf pe)
  let s2 := showRole s1 x.role true
  if x.epoch < mirrEpoch s2 then (refuseStale s2 x, false)
  else (ackTake (judgeEpoch s2 x) x.ack, true)

/-- A sleeping standby sleeps again after a frame with LAST (R450), but not while it listens for a
HEARTBEAT (R453). -/
def lastSleep (s : State) (x : MirrRx) : State :=
  if x.last ∧ sleeps s ∧ s.mirr.listen = none then mirrPut s { s.mirr with asleep := true } else s

/-- An ACK sent at once. -/
def ackNow (s : State) : State := mirrSend s 2 []

/-- A sequenced frame judged (R456); the flag says whether it is applied.
DEDUCED, log entry 107. -/
def seqJudge (s : State) (x : MirrRx) : State × Bool :=
  let m := s.mirr
  let behind := (m.expect + 4294967296 - x.seq) % 4294967296
  let dup := decide (1 ≤ behind) && decide (behind ≤ 1024)
  let due := match m.ackDue with
    | some t => some t
    | none => some (elapsed s.time + ackDelay s)
  let take := fun (m : MirrSt) => (mirrPut s { m with expect := (x.seq + 1) % 4294967296, ackDue := due }, true)
  if x.restart ∧ ¬ (m.base = some x.seq ∧ dup) then take { m with base := some x.seq }
  else if x.seq = m.expect then take m
  else if dup then (ackNow (bump s offMirrDup), false)
  else if (x.seq + 4294967296 - m.expect) % 4294967296 < 2147483648 then (ackNow (bump s offMirrOoo), false)
  else (bump s offMirrBadfrm, false)

/-- The command that takes a frame of `type` from the link: what every frame does, then
`f` on one that is applied. -/
def mirrRx (s : State) (type : Nat) (f : State → MirrRx → State) : State :=
  match takeMirr (macGet s 4).rx.length s type with
  | (none, s1) => s1
  | (some x, s1) =>
    let r := mirrCommon s1 x
    if r.2 then
      if x.seqd then
        let q := seqJudge r.1 x
        lastSleep (if q.2 then f q.1 x else q.1) x
      else lastSleep (f r.1 x) x
    else r.1

/-- On a standby only (R442). -/
def onStandby (f : State → MirrRx → State) (s : State) (x : MirrRx) : State :=
  if s.mirr.role = .standby then f s x else s

/-! ### Heartbeats -/

/-- A slot heard on the link (R447). -/
def hearSlot (s : State) (h : Nat) : State :=
  if h % 80 = slotPhase s false ∧ h ≤ nfnOf s + 8 ∧ nfnOf s ≤ h + 8 then
    mirrPut s { s.mirr with linkSlot := h + 1, lastHeard := max s.mirr.lastHeard h }
  else s

/-- What the flags of a heartbeat say of the peer (R451, R452). -/
def beatFlags (s : State) (x : MirrRx) : State :=
  let fl := byteAt x.payload 8
  let slp := fl.testBit 3
  let was := mirrHeld s
  let s1 := mirrPut s { s.mirr with peerSleep := slp, peerInsync := fl.testBit 1 }
  if mirrActive s1 = false then s1
  else
    let s2 := if slp = false then mirrPump (if fl.testBit 1 then horizonEnd s1 else s1) else s1
    let s3 := if fl.testBit 0 ∧ syncRuns s2 = false then bulkSync s2 else s2
    if slp ∧ was = false then (bindings s3).foldl (fun s b => horizonStart s b.1) s3 else s3

/-- A listening standby recentred on a heartbeat (R453). -/
def recentre (s : State) (h : Nat) : State :=
  match s.mirr.listen with
  | none => s
  | some _ =>
    let ofs : Int := nfnNs s.time - h * 125000
    let s1 := csrPut (mirrPut s { s.mirr with listen := none, sleepLost := false }) offMirrSleepofs (wordOfInt ofs)
    mirrEvent s1 8 1 (leBytes 4 (csrGet s1 offMirrSleepofs).toNat)

/-- A heartbeat applied; `old` was MIRR_EPOCH before it. -/
def takeBeat (s : State) (x : MirrRx) (old : Nat) : State :=
  let s1 := beatFlags (recentre s (beAt x.payload 0 8)) x
  match s1.mirr.cmd, x.role with
  | some (.startStandby _), 2 =>
    cmdDone (roleEvent (requestSync (takeRole (setEpoch s1 x.epoch) .standby)) .init old 0) 0
  | _, _ => s1

/-- HEARTBEAT: a slot is heard by the arrival, whether the frame is applied or not.
DEDUCED, log entry 109. -/
def execMirrRxHeartbeat (s : State) : Result :=
  .next (match takeMirr (macGet s 4).rx.length s 1 with
    | (none, s1) => s1
    | (some x, s1) =>
      let r := mirrCommon (hearSlot s1 (beAt x.payload 0 8)) x
      if r.2 then lastSleep (takeBeat r.1 x (mirrEpoch s1)) x else r.1)

def execMirrRxAck (s : State) : Result := .next (mirrRx s 2 fun s _ => s)

/-- ROLE: REFUSE acts by its epoch; DEMOTING promotes a standby (R444, R445). -/
def execMirrRxRole (s : State) : Result :=
  .next (mirrRx s 3 fun s x =>
    if byteAt x.payload 0 = 2 ∧ s.mirr.role = .standby then (promote s 4).getD s else s)

/-! ### Descriptors, calls and the end of a sync (R457–R459) -/

/-- What a frame of a bulk sync names. -/
def nameIn (s : State) (x : MirrRx) (chan : Option Nat) (call : Option Nat) : State :=
  if x.sync then
    let old := if x.restart then ([], []) else s.mirr.named.getD ([], [])
    mirrPut s { s.mirr with named := some (chan.toList ++ old.1, call.toList ++ old.2) }
  else s

/-- A channel closed by the mirror controller itself, by the steps of R269 (R459).
DEDUCED, log entry 113. -/
def mirrClose (s : State) (n : Nat) : State :=
  let s1 := if bitOf (descWord s n 0) 0 then busWrite s (chanAddr s n) (leBytes 4 (setBit (descWord s n 0) 0 false).toNat)
    else s
  if (bindGet s1 n).isSome ∧ (relGet s1 n).en = false then (purgeAll s1 n).1 else s1

/-- A mirrored descriptor applied (R459); one of a channel that lies outside the unit's region is
refused as beyond its capacity (R264).
DEDUCED, log entry 113. -/
def applyDesc (s : State) (x : MirrRx) : State :=
  let n := beAt x.payload 0 2
  let d := x.payload.drop 4
  let s0 := nameIn s x (some n) none
  if chanCount s0 ≤ n then descResult s0 n (if byteAt d 0 % 2 = 1 then 0x1E else 0)
  else
    let a := chanAddr s0 n
    let s1 := busWrite (busWrite s0 (a + 0x24) ((d.drop 0x24).take 0x1C)) a (d.take 0x20)
    if bitOf (descWord s1 n 0) 0 then
      if checkWaits s1 n then mirrPut s1 { s1.mirr with descWait := s1.mirr.descWait ++ [n] }
      else descResult s1 n 0
    else descResult (mirrClose s1 n) n 0

def execMirrRxDesc (s : State) : Result := .next (mirrRx s 0x10 (onStandby applyDesc))

/-- DESCRES: a refusal raises the peer-refusal event on the active (R459). -/
def execMirrRxDescres (s : State) : Result :=
  .next (mirrRx s 0x11 fun s x =>
    if s.mirr.role = .active ∧ byteAt x.payload 2 ≠ 0 then
      raise s 0x11 4 (beAt x.payload 0 2) 0 (leBytes 1 0xA8 ++ leBytes 1 (byteAt x.payload 2))
    else s)

def execMirrRxCall (s : State) : Result :=
  .next (mirrRx s 0x12 (onStandby fun s x =>
    let p := x.payload
    let n := beAt p 0 2
    let s1 := nameIn s x none (some n)
    let v := if byteAt p 2 = 3 then none else some (⟨beAt p 4 4, byteAt p 3, (p.drop 8).take 10⟩ : MirrCall)
    mirrPut s1 { s1.mirr with calls := smapPut none s1.mirr.calls n v }))

/-- INSYNC, once all that R457 asks for has come. -/
def checkInsync (s : State) : State :=
  let m := s.mirr
  let states := (bindings s).all fun b => m.gotState.contains b.1
  let recs := (bindings s).all fun b => b.2.ec.all fun r => m.gotEc.contains r
  if m.role = .standby ∧ m.syncEnd ∧ m.insync = false ∧ (sleeps s ∨ (states ∧ recs)) then
    mirrEvent (mirrPut s { m with insync := true }) 5 1 (leBytes 4 (bindings s).length)
  else s

/-- SYNCEND applied (R457).
DEDUCED, log entry 108. -/
def applySyncend (s : State) (_ : MirrRx) : State :=
  let nm := s.mirr.named.getD ([], [])
  let gone := (bindings s).filter fun b => ! nm.1.contains b.1
  let s1 := gone.foldl (fun s b => mirrClose s b.1) s
  checkInsync (mirrPut s1 { s1.mirr with
    named := none
    wantSync := false
    syncEnd := true
    calls := s1.mirr.calls.filter fun c => nm.2.contains c.1 })

def execMirrRxSyncend (s : State) : Result := .next (mirrRx s 0x13 (onStandby applySyncend))

/-! ### Snapshots, records and horizons (R452, R460, R461) -/

/-- One STATE entry (R460).
DEDUCED, log entry 114. -/
def applyState (s : State) (nfn : Nat) (e : List Byte) : State :=
  let n := beAt e 0 2
  let k := smapGet MirrKeep.reset s.mirr.keep n
  let later : Bool := match k.state with
    | none => true
    | some x => decide (x.1 < nfn)
  let s0 := mirrPut s { s.mirr with gotState := insertRising s.mirr.gotState n }
  if (bindGet s n).isSome ∧ chanActive s n ∧ (chanStat s n).getLsbD 9 = false ∧ later then
    let ix := [beAt e 568 6, beAt e 574 4, beAt e 578 6, beAt e 584 4]
    let s1 := memWrite s0 (chanAddr s n + 0x40) ((e.drop 8).take 560)
    mirrPut s1 { s1.mirr with keep := smapPut MirrKeep.reset s1.mirr.keep n { k with state := some (nfn, ix) } }
  else bump s0 offMirrStdrop

def execMirrRxState (s : State) : Result :=
  .next (mirrRx s 0x20 (onStandby fun s x =>
    checkInsync ((chunks 592 (x.payload.drop 8)).foldl (fun s e => applyState s (beAt x.payload 0 8) e) s)))

/-- An EC record applied (R461).
DEDUCED, log entry 114. -/
def applyEcrec (s : State) (x : MirrRx) : State :=
  let n := beAt x.payload 8 2
  let r := beAt x.payload 10 2
  let b := (x.payload.drop 16).take 2048
  let own := ecRefOf s r
  let s0 := mirrPut s { s.mirr with gotEc := insertRising s.mirr.gotEc r }
  if r < ecCount s ∧ ecMagic s r = 0x4543 ∧ own.owner = n ∧ own.mode = leAt b 0x604 4 % 8 then
    let keep := memBytes s (ecAddr s r + 0xE00) 4
    let b1 := putAll b [(0x600, keep), (0x608, leBytes 2 own.link)]
    let b2 := if own.mode = 3 ∨ own.mode = 5 then b1
      else putAll b1 [(0x60A, zeros 2), (0x674, zeros 4), (0x62C, leBytes 1 (byteAt b1 0x62C % 128 + 128))]
    let s1 := if own.mode = 5 then s0 else memWrite s0 (ecAddr s r) (zeros 0x800)
    memWrite s1 (ecAddr s r + 0x800) b2
  else bump s0 offMirrEcdrop

def execMirrRxEcrec (s : State) : Result :=
  .next (mirrRx s 0x21 (onStandby fun s x => checkInsync (applyEcrec s x)))

/-- One HORIZON entry kept (R452). -/
def applyHorizon (s : State) (nfn : Nat) (e : List Byte) : State :=
  let n := beAt e 0 2
  let k := smapGet MirrKeep.reset s.mirr.keep n
  let k1 := if (byteAt e 2).testBit 0 then { k with send := some (nfn, beAt e 4 6, beAt e 12 4) } else k
  let k2 := if (byteAt e 2).testBit 1 then { k1 with recv := some (nfn, beAt e 16 6) } else k1
  mirrPut s { s.mirr with keep := smapPut MirrKeep.reset s.mirr.keep n k2 }

def execMirrRxHorizon (s : State) : Result :=
  .next (mirrRx s 0x22 (onStandby fun s x =>
    (chunks 24 (x.payload.drop 8)).foldl (fun s e => applyHorizon s (beAt x.payload 0 8) e) s))

/-! ### Fingerprints and USER frames (R466) -/

/-- The comparison with the own snapshot of the same NFN. -/
def compareFinger (s : State) (x : MirrRx) : State :=
  match s.mirr.fingers.find? fun f => f.1 == beAt x.payload 0 8 with
  | none => s
  | some f =>
    let theirs := x.payload.drop 8
    let tell := fun (s : State) (mis : Bool) =>
      mirrEvent s 7 mis.toNat (leBytes 8 f.1 ++ leBytes 4 (beAt theirs 0 4) ++ leBytes 4 (beAt theirs 4 4))
    if f.2 = theirs then
      let s1 := mirrPut s { s.mirr with misRun := 0, cfgMis := false }
      if s.mirr.cfgMis then tell s1 false else s1
    else
      let k := min 3 (s.mirr.misRun + 1)
      let s1 := mirrPut s { s.mirr with misRun := k, cfgMis := s.mirr.cfgMis || k == 3 }
      if k = 3 ∧ s.mirr.cfgMis = false then tell s1 true else s1

def execMirrRxFinger (s : State) : Result := .next (mirrRx s 0x30 compareFinger)

/-- DEV_CFGDIG0–3 as a FINGER frame carries them. -/
def fingerBytes (d : List Byte) : List Byte := (chunks 4 d).flatMap List.reverse

/-- The fingerprint snapshot of a second (R466). -/
def execFingerSend (s : State) : Result :=
  .next (if mirrEn s ∧ nfnOf s % 8000 = 0 ∧ (s.mirr.fingers.head?.map fun f => f.1) ≠ some (nfnOf s) then
    let d := fingerBytes (cfgShown s)
    mirrSend (mirrPut s { s.mirr with fingers := ((nfnOf s, d) :: s.mirr.fingers).take 2 }) 0x30
      (beBytes 8 (nfnOf s) ++ d)
  else s)

/-- A USER frame's item delivered to the queue of MIRR_USERRX (R454). -/
def execMirrRxUser (s : State) : Result :=
  .next (mirrRx s 0x40 fun s x =>
    let r := csrGet s offMirrUserrx
    if bitOf r 31 then
      match pushBytes s (fld r 15 0) 0x11 (ts32 s.time) 0 x.payload with
      | some s1 => s1
      | none => queuePut s (fld r 15 0) (loseOne (queueGet s (fld r 15 0)))
    else s)

/-- An item of MIRR_USERQ sent as a USER frame (R454).
DEDUCED, log entry 115. -/
def execMirrUserSend (s : State) : Result :=
  .next (let r := csrGet s offMirrUserq
    let q := fld r 15 0
    match (queueGet s q).items with
    | [] => s
    | i :: _ =>
      if mirrEn s ∧ bitOf r 31 then
        let s1 := clearingCheck (freeItem (popQueue s q).2 i)
        let bs := itemBytes s i
        if bs.length ≤ 2176 then mirrQueue s1 (.frame 0x40 false bs) else s1
      else s)

/-! ## Snapshots and records sent (R460, R462) -/

/-- NFN mod 160 of channel `n`'s snapshots; PHASE is that of the channel's release (R256).
DEDUCED, log entry 114. -/
def snapPhase (s : State) (n : Nat) : Nat := ((relGet s n).phase + 32 + 40 * (n % 4)) % 160

/-- Whether channel `n`'s snapshot is due and its flow is free (R460). -/
def snapDue (s : State) (n : Nat) : Bool :=
  let d := (nfnOf s + 160 - snapPhase s n) % 160
  (bindGet s n).isSome && chanActive s n && ! flowBusy s n && decide (d ≤ nfnOf s)
    && decide (smapGet 0 s.mirr.snapAt n ≤ nfnOf s - d)

/-- The SRTP and SRTCP indexes of channel `n`'s slots as STATE carries them. -/
def snapIndexes (s : State) (n : Nat) : List Byte :=
  match chanKeys s n with
  | none => zeros 20
  | some (r, t) =>
    beBytes 6 (keySlotGet s r).idx ++ beBytes 4 (keySlotGet s r).cidx
      ++ beBytes 6 (keySlotGet s t).idx ++ beBytes 4 (keySlotGet s t).cidx

/-- Channel `n`'s STATE entry (R460).
DEDUCED, log entry 106. -/
def snapEntry (s : State) (n : Nat) : List Byte :=
  beBytes 2 n ++ zeros 6 ++ memBytes s (chanAddr s n + 0x40) 560 ++ snapIndexes s n ++ zeros 4

/-- A STATE frame of those channels among the first three of `ns` that are due. -/
def execStateSnapshot (ns : List Nat) (s : State) : Result :=
  .next (let due := (ns.take 3).eraseDups.filter (snapDue s)
    if mirrActive s ∧ bitOf (csrGet s offMirrCtl) 27 ∧ s.mirr.peerSleep = false ∧ due ≠ [] then
      let at_ := due.foldl (fun m n => smapPut 0 m n (nfnOf s + 1)) s.mirr.snapAt
      mirrSend (mirrPut s { s.mirr with snapAt := at_ }) 0x20 (beBytes 8 (nfnOf s) ++ due.flatMap (snapEntry s))
    else s)

/-- Age in ticks of a head EC record since it was last sent (R462). -/
def ecAge (s : State) (r : Nat) : Nat :=
  match smapGet none s.mirr.ecAt r with
  | none => 0
  | some x => s.time.ticks - x.1

/-- The oldest EC record. -/
def ecOldest (s : State) : Option (Nat × Nat) :=
  s.mirr.ecAt.foldl (fun best kv =>
    let a := ecAge s kv.1
    match best with
    | none => some (kv.1, a)
    | some b => if b.2 < a then some (kv.1, a) else best) none

/-- MIRR_ECAGE. -/
def ecAgeReg (s : State) : Word :=
  match ecOldest s with
  | none => 0
  | some (r, a) => wordOf (r * 0x10000 + min 65535 a)

/-- MIRR_ECSWEEP.SWEEP as it acts. -/
def sweepTicks (s : State) : Nat := min 4000 (max 800 (csrFld s offMirrEcsweep 15 0))

/-- One record of channel `n` sent (R213, R454). -/
def ecSendOne (s : State) (n r : Nat) (tail : Bool) : State :=
  bump (mirrSend s 0x21 (beBytes 8 (nfnOf s) ++ beBytes 2 n ++ beBytes 2 r ++ beBytes 1 tail.toNat ++ zeros 3
    ++ memBytes s (ecAddr s r + 0x800) 2048)) offMirrEcsent

/-- The records of the channel that holds head record `r`, both at the same instant (R213).
DEDUCED, log entry 114. -/
def ecSend (s : State) (r : Nat) : State :=
  match (bindings s).find? fun b => b.2.ec.head? == some r with
  | none => s
  | some (n, b) =>
    let s1 := ecSendOne s n r false
    let s2 := b.ec.tail.foldl (fun s t => ecSendOne s n t true) s1
    mirrPut s2 { s2.mirr with ecAt := smapPut none s2.mirr.ecAt r (some (s.time.ticks, true)) }

/-- The EC-age event (R462). -/
def ecAgeEvent (s : State) (r a : Nat) : State := mirrEvent s 9 0 (leBytes 2 r ++ leBytes 2 (min 65535 a))

/-- Head record `r` sent in the sweep, or the oldest record ahead of it at the limit of
4,000 ticks (R462). -/
def execMirrEcrecSend (r : Nat) (s : State) : Result :=
  .next (if mirrActive s ∧ bitOf (csrGet s offMirrCtl) 28 ∧ s.mirr.peerRole = 1 ∧ s.mirr.peerSleep = false then
    let sweep := match smapGet none s.mirr.ecAt r with
      | none => s
      | some x => if x.2 = false ∨ sweepTicks s ≤ ecAge s r then ecSend s r else s
    match ecOldest s with
    | some (o, a) => if 4000 ≤ a then ecAgeEvent (ecSend s o) o a else sweep
    | none => sweep
  else s)

/-! ## The sleeping standby (R450, R453) -/

/-- The own or peer slot, with its offset in ns, whose waking window holds the current
instant: how long the window still lasts, whether it is a peer slot's, and the slot. -/
def wakeWindow (s : State) : Option (Nat × Bool × Nat) :=
  let t := nfnNs s.time
  let g : Int := guardNs s
  let near := fun (own : Bool) (ofs : Int) =>
    match slotUpTo (slotPhase s own) ((t + g - ofs) / 125000).toNat with
    | none => (none : Option (Nat × Nat))
    | some p =>
      let x : Int := (p * 125000 : Nat) + ofs
      if x - g ≤ t ∧ t ≤ x + g then some ((x + g - t).toNat, p) else none
  match near true 0 with
  | some d => some (d.1, false, d.2)
  | none => (near false (csrGet s offMirrSleepofs).toInt).map fun d => (d.1, true, d.2)

/-- A sleeping standby wakes once for a window, or sleeps again after it (R450). -/
def execSleepWake (s : State) : Result :=
  .next (let m := s.mirr
    let now := elapsed s.time
    if sleeps s = false then s
    else if m.asleep then
      match wakeWindow s with
      | none => s
      | some (d, peer, p) =>
        if m.wokeSlot = p + 1 then s
        else
          mirrPut s { m with
            asleep := false, wokeAt := now, wokeSlot := p + 1, closeAt := now + d, wakePeer := peer, heardWake := false }
    else if m.listen.isNone ∧ (m.wokeAt + 2000000 ≤ now ∨ (m.heardWake = false ∧ m.wakePeer = false ∧ m.closeAt < now)) then
      mirrPut s { m with asleep := true }
    else s)

/-- A peer window that closed with nothing received makes the standby listen; 1 s later it
is degraded (R453). -/
def execSleepResync (s : State) : Result :=
  .next (let m := s.mirr
    if sleeps s = false then s
    else
      match m.listen with
      | none =>
        if m.asleep = false ∧ m.wakePeer ∧ m.heardWake = false ∧ m.closeAt < elapsed s.time then
          mirrPut s { m with listen := some s.time.ticks }
        else s
      | some t =>
        if t + 8000 ≤ s.time.ticks ∧ m.sleepLost = false then
          mirrEvent (mirrPut s { m with sleepLost := true }) 8 0 (leBytes 4 (csrGet s offMirrSleepofs).toNat)
        else s)

end Sys2Proof.Machine
end

