-- ==== Sys2Proof/Machine/Usb.lean ====
section
/-! DEFINITION. The USB craft port (R486–R493): attachment, control requests, console, image
download, alarm reports, suspend and wake.  What a transfer returns to the USB host stands in
`State.busRead`; STALL and NAK stand in `UsbSt`. -/

namespace Sys2Proof.Machine

def usbPut (s : State) (u : UsbSt) : State := { s with usb := u }

def usbEvent (s : State) (code : Nat) (flags : Nat) (data : List Byte) : State := raise0 s 0x13 code flags data

/-- USB_CTL.EN and REGEN. -/
def usbEn (s : State) : Bool := bitOf (csrGet s offUsbCtl) 31
def usbRegen (s : State) : Bool := bitOf (csrGet s offUsbCtl) 30

/-- The device pulls D+ up (R486). -/
def usbAttached (s : State) : Bool := s.usb.vbus && usbEn s

/-- Flags of the bus state event (R493). -/
def usbFlags (s : State) : Nat :=
  boolBit (usbAttached s) 0 + boolBit s.usb.configured 1 + boolBit s.usb.suspended 2 + boolBit s.usb.hs 3

/-- The bus state event, when the state has changed from `old`. -/
def usbTold (s : State) (old : Nat) : State := if usbFlags s = old then s else usbEvent s 1 (usbFlags s) []

/-- The outcome of a transaction: STALL, NAK, or the bytes returned.
DESIGN CHOICE, log entry 36. -/
def usbStall (s : State) : State := { s with usb := { s.usb with stall := true, nak := false }, busRead := [] }
def usbNak (s : State) : State := { s with usb := { s.usb with stall := false, nak := true }, busRead := [] }
def usbOk (s : State) (bs : List Byte) : State :=
  { s with usb := { s.usb with stall := false, nak := false }, busRead := bs }

/-- A staged REG_WRITE abandoned and counted (R490).
DEDUCED, log entry 136. -/
def usbAbandon (s : State) : State :=
  match s.usb.staged with
  | none => s
  | some _ => bump (usbPut s { s.usb with staged := none }) offUsbAbandon

/-- A SETUP on EP0 of an attached port: `f` answers it. -/
def usbSetup (s : State) (f : State → State) : State := if usbAttached s then f (usbAbandon s) else s

/-! ## Bus events (R486, R490, R492) -/

/-- State of a port that is not attached, or that a bus reset has met. -/
def usbDefault (u : UsbSt) : UsbSt :=
  { u with configured := false, suspended := false, hs := false, rwake := false, addr := 0 }

/-- VBUS and EN as they stand now: a detach abandons what is staged. -/
def usbReattach (s : State) (old : Nat) : State :=
  let s1 := if usbAttached s then s else usbAbandon (usbPut s (usbDefault s.usb))
  usbTold s1 old

def execUsbAttach (vbus : Bool) (s : State) : Result :=
  .next (usbReattach (usbPut s { s.usb with vbus := vbus }) (usbFlags s))

/-- A write of USB_CTL (R495). -/
def writeUsbCtl (s : State) (v : Word) : State :=
  usbReattach (csrPut s offUsbCtl (v &&& 0xE0000000#32)) (usbFlags s)

/-- A bus reset; `hs`: the hub allows high speed. -/
def execUsbBusReset (hs : Bool) (s : State) : Result :=
  .next (if usbAttached s then
    let old := usbFlags s
    let s1 := bump (usbAbandon s) offUsbResets
    usbTold (usbPut s1 { usbDefault s1.usb with
      hs := hs && ! bitOf (csrGet s1 offUsbCtl) 29
      img := 0
      got := 0
      excess := false }) old
  else s)

/-- The bus has been idle for 3 ms. -/
def execUsbSuspend (s : State) : Result :=
  .next (if usbAttached s ∧ s.usb.suspended = false then
    usbTold (usbPut s { s.usb with suspended := true, idleAt := elapsed s.time - 3000000 }) (usbFlags s)
  else s)

/-- A report waits in suspend and the host has enabled remote wake (R492). -/
def wakeWanted (s : State) : Bool := s.usb.suspended && s.usb.rwake && s.usb.report.isSome

/-- A wake collision counted (R492). -/
def wakeCollision (s : State) : State := usbEvent (bump s offUsbWakecol) 3 0 []

def execUsbResume (s : State) : Result :=
  .next (if usbAttached s ∧ s.usb.suspended then
    let s1 := if wakeWanted s then wakeCollision s else s
    usbTold (usbPut s1 { s1.usb with suspended := false }) (usbFlags s)
  else s)

/-- The device drives resume for 2 ms; `still`: the bus is still in resume at their end.
DESIGN CHOICE, log entry 137. -/
def execUsbRemoteWake (still : Bool) (s : State) : Result :=
  .next (if usbAttached s ∧ wakeWanted s ∧ s.usb.idleAt + 5000000 ≤ elapsed s.time then
    let s1 := if still then wakeCollision s else s
    usbTold (usbPut s1 { s1.usb with suspended := false }) (usbFlags s)
  else s)

/-! ## Standard requests (R486) -/

/-- The device descriptor.
PRESUMED, log entry 30. -/
def usbDeviceDesc : List Byte :=
  [18#8, 1#8] ++ leBytes 2 0x0200 ++ [0#8, 0#8, 0#8, 64#8] ++ leBytes 2 0x3B2E ++ leBytes 2 0x7160
    ++ leBytes 2 (Config.usbNum 0) ++ leBytes 1 (Config.usbNum 1) ++ leBytes 1 (Config.usbNum 2)
    ++ leBytes 1 (Config.usbNum 3) ++ [1#8]

/-- An endpoint descriptor. -/
def usbEpDesc (addr attr size interval : Nat) : List Byte :=
  [7#8, 5#8] ++ leBytes 1 addr ++ leBytes 1 attr ++ leBytes 2 size ++ leBytes 1 interval

/-- The configuration descriptor with its interface and endpoints; `kind` 7 is the
other_speed_configuration. -/
def usbConfigDesc (kind : Nat) (hs : Bool) : List Byte :=
  let bulk := if hs then 512 else 64
  let eps := usbEpDesc 0x01 2 bulk (Config.usbNum 6) ++ usbEpDesc 0x81 2 bulk (Config.usbNum 6)
    ++ usbEpDesc 0x02 2 bulk (Config.usbNum 6) ++ usbEpDesc 0x83 3 16 (if hs then 4 else 1)
  [9#8] ++ leBytes 1 kind ++ leBytes 2 (18 + eps.length) ++ [1#8, 1#8] ++ leBytes 1 (Config.usbNum 4) ++ [0xE0#8, 0#8]
    ++ [9#8, 4#8, 0#8, 0#8, 4#8, 0xFF#8] ++ leBytes 1 (Config.usbNum 7) ++ leBytes 1 (Config.usbNum 8)
    ++ leBytes 1 (Config.usbNum 5) ++ eps

/-- The device_qualifier: the device descriptor's fields at the other speed (USB 2.0, 9.6.2).
PRESUMED, log entry 30. -/
def usbQualifier : List Byte := [10#8, 6#8] ++ leBytes 2 0x0200 ++ [0#8, 0#8, 0#8, 64#8, 1#8, 0#8]

/-- A descriptor by wValue. -/
def usbDescriptor (s : State) (value : Nat) : Option (List Byte) :=
  match value / 256, value % 256 with
  | 1, _ => some usbDeviceDesc
  | 2, 0 => some (usbConfigDesc 2 s.usb.hs)
  | 6, _ => some usbQualifier
  | 7, 0 => some (usbConfigDesc 7 (! s.usb.hs))
  | _, _ => none

/-- A standard request by its SETUP fields (USB 2.0, chapter 9); an unknown request, one of another
direction or recipient, and one of another type than standard are answered with STALL (R488). -/
def usbStandard (s : State) (type req value len : Nat) : State :=
  let u := s.usb
  let old := usbFlags s
  match req with
  | 0 => if 0x80 ≤ type ∧ type < 0x83 then
      usbOk s ((leBytes 2 (if type = 0x80 then 1 + 2 * u.rwake.toNat else 0)).take len)
    else usbStall s
  | 1 => if type = 0 ∧ value = 1 then usbOk (usbPut s { u with rwake := false }) []
    else if type < 3 then usbOk s [] else usbStall s
  | 3 => if type = 0 ∧ value = 1 then usbOk (usbPut s { u with rwake := true }) []
    else if type < 3 then usbOk s [] else usbStall s
  | 5 => if type = 0 then usbOk (usbPut s { u with addr := value % 128 }) [] else usbStall s
  | 6 => (match (if type = 0x80 then usbDescriptor s value else none) with
    | some bs => usbOk s (bs.take len)
    | none => usbStall s)
  | 8 => if type = 0x80 then usbOk s ((leBytes 1 u.configured.toNat).take len) else usbStall s
  | 9 => if type = 0 ∧ value % 256 < 2 then usbTold (usbOk (usbPut s { u with configured := value % 256 == 1 }) []) old
         else usbStall s
  | 10 => if type = 0x81 ∧ u.configured then usbOk s ((leBytes 1 0).take len) else usbStall s
  | 11 => if type = 1 ∧ u.configured ∧ value = 0 then usbOk s [] else usbStall s
  | _ => usbStall s

def execUsbStandardRequest (type req value len : Nat) (s : State) : Result :=
  .next (usbSetup s fun s => usbStandard s type req value len)

/-! ## Vendor requests (R488–R490) -/

def execGetInfo (len : Nat) (s : State) : Result :=
  .next (usbSetup s fun s =>
    if len ≠ 32 then usbStall s
    else
      let hash := (smapGet none s.dev.otpKey (csrFld s offDevBoot 27 26)).getD (zeros 32)
      usbOk s (padTo 32 (Config.usbInfo (devId s) (csrGet s offDevBoot) 0x0100 (hash.take 8))))

/-- IMG_BEGIN with its target and the announced length, from a data stage of `n` bytes. -/
def execImgBegin (target n len : Nat) (s : State) : Result :=
  .next (usbSetup s fun s =>
    if n ≠ 4 ∨ 2 < target then usbStall s
    else usbOk (usbPut s { s.usb with img := 1, target := target, len := len, got := 0, excess := false }) [])

/-- USB_IMG_SIZE as it acts. -/
def imgSize (s : State) : Nat := min 0x200000 (csrFld s offUsbImgSize 21 0)

/-- Bytes on EP2 OUT. -/
def execUsbImageData (bs : List Byte) (s : State) : Result :=
  .next (if usbAttached s ∧ s.usb.configured then
    if s.usb.img ≠ 1 then usbStall s
    else
      let base := (csrGet s offUsbImgBase).toNat
      let room := min (min s.usb.len (imgSize s)) (if hwBase ≤ base then hwEnd - base else 0)
      let take := bs.take (room - s.usb.got)
      let s1 := if take.isEmpty then s else busWrite s (base + s.usb.got) take
      let excess := decide (take.length < bs.length)
      let s2 := usbPut s1 { s1.usb with got := s1.usb.got + take.length, excess := s1.usb.excess || excess }
      if excess then usbStall s2 else usbOk s2 []
  else s)

/-- A package written to a boot partition with ERASEPART and APPEND (R500): the storage
code. -/
def placePackage (s : State) (w : FlashWorld) (p : Nat) (parts : List (List Byte)) : State × Nat :=
  match parts with
  | [] => (s, 0)
  | b :: r =>
    if readOnlyPart s p then (s, 0xC7)
    else
      let y := appendBytes s w p false b
      if y.2.1 = 0 then placePackage y.1 w p r else (y.1, y.2.1)

/-- What the Boot ROM does with a finished download in recovery (R500). -/
def recoverImage (s : State) (w : FlashWorld) : State :=
  let u := s.usb
  let base := (csrGet s offUsbImgBase).toNat
  let answer := fun (x : State × Nat) => usbPut x.1 { x.1.usb with code := x.2 }
  if u.excess then answer (refusePkg s 3 0x78 [], 0x78)
  else if u.target = 0 then tryAll true s [bootTry s 3 (heartwoodPkg s base u.got)]
  else
    let v := verifyPkg s (heartwoodPkg s base u.got)
    if v.1 ≠ 0 then answer (refusePkg s 3 v.1 v.2.1, v.1)
    else if s.nand.mounted = false ∨ s.nand.table.isNone then answer (s, 0xCC)
    else if (partEntry s u.target).isNone then answer (s, 0xC1)
    else if w.timeout then answer (s, 0xC8)
    else answer (placePackage (erasePart s w u.target false) w u.target (chunks 65536 (v.2.1.take (leAt v.2.1 8 4))))

def execImgEnd (w : ImgEnd) (s : State) : Result :=
  .next (usbSetup s fun s =>
    if w.len ≠ 0 ∨ s.usb.img ≠ 1 then usbStall s
    else
      let s1 := usbOk (usbPut s { s.usb with img := 2 }) []
      let s2 := usbEvent s1 2 0 (leBytes 1 s.usb.target ++ zeros 3 ++ leBytes 4 s.usb.got)
      if bootReady s2 2 then recoverImage s2 w.flash else s2)

def execGetStatus (len : Nat) (s : State) : Result :=
  .next (usbSetup s fun s =>
    if len ≠ 8 then usbStall s
    else usbOk s (leBytes 1 s.usb.img ++ leBytes 1 s.usb.code ++ zeros 2 ++ leBytes 4 s.usb.got))

/-- REG_WRITE with a data stage of `n` bytes: an offset and a value, staged.
DEDUCED, log entry 136. -/
def execRegWrite (n : Nat) (o v : Word) (s : State) : Result :=
  .next (usbSetup s fun s =>
    if usbRegen s = false ∨ n ≠ 8 then usbStall s
    else usbOk (usbPut s { s.usb with staged := some (o.toNat, v) }) [])

/-- REG_ADDR with a data stage of `n` bytes. -/
def execRegAddr (n : Nat) (o : Word) (s : State) : Result :=
  .next (usbSetup s fun s =>
    if usbRegen s = false ∨ n ≠ 4 then usbStall s
    else usbOk (usbPut s { s.usb with regAddr := o.toNat }) [])

/-! ## Console (R487) -/

/-- The port carries data: configured and awake. -/
def usbLive (s : State) : Bool := usbAttached s && s.usb.configured && ! s.usb.suspended

/-- A transfer on EP1 OUT. -/
def execUsbConsoleOut (bs : List Byte) (s : State) : Result :=
  .next (if usbLive s then
    if s.dev.bootRom then usbOk s []
    else if bitOf (csrGet s offUsbConrx) 31 = false then usbNak s
    else
      match pushBytes s (csrFld s offUsbConrx 15 0) 0x13 (ts32 s.time) 0 bs with
      | none => usbNak s
      | some s1 => usbOk s1 []
  else s)

/-- A token on EP1 IN: the whole of the next item, with its zero-length packet when one
follows.
DESIGN CHOICE, log entry 137. -/
def execUsbConsoleIn (s : State) : Result :=
  .next (if usbLive s then
    if s.dev.bootRom then
      if s.usb.console = [] then usbNak s
      else usbOk (usbPut s { s.usb with console := s.usb.console.drop 512 }) (s.usb.console.take 512)
    else if bitOf (csrGet s offUsbContx) 31 = false then usbNak s
    else
      let q := csrFld s offUsbContx 15 0
      match (queueGet s q).items with
      | [] => usbNak s
      | i :: _ =>
        let bs := itemBytes s i
        let s1 := clearingCheck (freeItem (popQueue s q).2 i)
        usbOk (usbPut s1 { s1.usb with zlp := bs.length % (if s.usb.hs then 512 else 64) == 0 }) bs
  else s)

/-! ## Alarm reports (R491) -/

/-- A write of USB_ALMGO with GO. -/
def almGo (s : State) : State :=
  let bs := (List.range 4).flatMap fun i => leBytes 4 (csrGet s (offUsbAlm + 4 * i)).toNat
  let s1 := if s.usb.report.isSome then bump s offUsbAlmovr else s
  usbPut s1 { s1.usb with report := some bs }

def execUsbAlmgo (s : State) : Result := .next (almGo s)

/-- A token on EP3 IN. -/
def execUsbAlarmIn (s : State) : Result :=
  .next (if usbLive s then
    match s.usb.report with
    | none => usbNak s
    | some bs => usbOk (usbPut s { s.usb with report := none }) bs
  else s)

/-! ## The endpoint after reset (R498, R500) -/

/-- 20 ms after RESET_N: the PCIe endpoint, and the craft port in MODE 0b10. -/
def execPcieEndpointEnable (s : State) : Result :=
  .next (if s.host.on = false ∧ s.dev.held = false ∧ 20000000 ≤ elapsed s.time then
    let s1 := { s with host := { s.host with on := true } }
    if s.dev.mode = 2 then
      writeUsbCtl (csrPut (csrPut s1 offUsbImgBase 0x18000000#32) offUsbImgSize 0x200000#32)
        (csrGet s1 offUsbCtl ||| 0xC0000000#32)
    else s1
  else s)

end Sys2Proof.Machine
end

