-- ==== Sys2Proof/Machine/CsrRead.lean ====
section
/-! DEFINITION. Reads of CSR space (R10, R32, R34, R110): what each register shows of the
machine, and what a read does. -/

namespace Sys2Proof.Machine

/-! ## Registers that are not there (R2, R108) -/

/-- The grove of a CSR offset in a grove block. -/
def csrGrove (o : Nat) : Nat := o / 0x10000 - 0x20

/-- Whether a CSR offset lies in a grove block (R34). -/
def inGrove (o : Nat) : Bool := decide (0x20 ≤ o / 0x10000) && decide (o / 0x10000 ≤ 0x30)

/-- The engine whose registers or portals a CSR offset of a grove block names.
DEDUCED, log entry 42. -/
def csrEngine (o : Nat) : Option Nat :=
  let x := o % 0x10000
  if 0x1000 ≤ x ∧ x < 0x1800 then some (csrGrove o * 8 + (x - 0x1000) / 0x100)
  else if 0x4000 ≤ x ∧ x < 0x4400 then some (csrGrove o * 8 + (x - 0x4000) / 0x80)
  else none

/-- Whether a register reads zero and ignores writes: one of an absent grove or engine
(R2), and GROVE_SGSEL outside grove 16 (R108).
DEDUCED, log entry 42. -/
def csrAbsent (s : State) (o : Nat) : Bool :=
  inGrove o &&
    (! grovePresent s (csrGrove o)
      || (match csrEngine o with
          | none => false
          | some e => ! engPresent s e)
      || (o % 0x10000 == 8 && csrGrove o != 16))

/-- The row of the register at an offset, unless the register is absent. -/
def csrRow (s : State) (o : Nat) : Option RegRow := if csrAbsent s o then none else rowAt o

/-! ## What registers show -/

/-- Word `i` of bytes shown with byte 4n in bits 31:24. -/
def wordBe (bs : List Byte) (i : Nat) : Word := wordOf (beAt bs (4 * i) 4)

/-- DEV_STAT (R527). -/
def devStat (s : State) : Word :=
  wordOf (csrFld s offDevStat 31 24 * 0x1000000 + boolBit s.dev.check 23 + boolBit s.dev.cfgBusy 22
    + boolBit s.dev.refl.isSome 21 + s.dev.mode % 4 * 0x80000 + boolBit s.dev.pairId 18)

/-- DEV_OTPINFO (R527). -/
def otpInfo (s : State) : Word :=
  wordOf (((List.range 4).map fun i =>
    boolBit (s.dev.otpRevoked.contains i) (4 + i) + boolBit (smapGet none s.dev.otpKey i).isSome i).sum)

/-- Registers of DEV that are computed. -/
def viewDev (s : State) (o : Nat) : Option Word :=
  if o = offDevId then some (devId s)
  else if o = offDevCtl then some (wordOf s.dev.run.toNat)
  else if o = offDevStat then some (devStat s)
  else if o = offDevCapChan then some (wordOf (capChan s))
  else if o = offDevCapEcu then some (wordOf (capEcu s))
  else if o = offDevCapEcrec then some (wordOf (capEcrec s))
  else if o = offDevUseChan then some (wordOf (useChan s))
  else if o = offDevUseEcu then some (wordOf (useEcu s))
  else if o = offDevUseEcrec then some (wordOf (useEcrec s))
  else if o = offDevUseMr then some (wordOf (useMr s))
  else if o = offDevCfgdig ∨ (s.dev.cfgSeen = false ∧ offDevCfgdig < o ∧ o < offDevCfgdig + 16) then
    some (wordOf (leAt (cfgShown s) (o - offDevCfgdig) 4))
  else if o = offDevOtpinfo then some (otpInfo s)
  else if o = offDevOtpmin then some (wordOf s.dev.otpMin)
  else if offDevKeyhash ≤ o ∧ o < offDevKeyhash + 32 then
    some (wordBe ((smapGet none s.dev.otpKey (csrFld s offDevKeysel 1 0)).getD []) ((o - offDevKeyhash) / 4))
  else none

/-- TIME_STATE (R67). -/
def timeState (s : State) : Word :=
  let t := s.time
  wordOf (csrFld s offTimeState 15 14 * 0x4000 + boolBit t.fallback 11 + boolBit (c10Ok t) 10
    + boolBit (ofsNow t == 0) 9 + boolBit (remNow t != 0) 8 + modeCode t.mode)

/-- Registers of TIME that are computed. -/
def viewTime (s : State) (o : Nat) : Option Word :=
  if o = offTimeState then some (timeState s)
  else if o = offTimeFreqAvg then some (wordOfInt (freqAvg s))
  else if o = offTimePhaseRem then some (wordOfInt (roundDiv (remNow s.time) 12884901888))
  else if o = offTimeNfnLo then some (wordOf s.time.nfn.toNat)
  else if o = offTimeC10Stat then some (c10Stat s.time)
  else none

/-- DISP_STAT (R179). -/
def dispStat (s : State) : Word :=
  let dlk := s.disp.dlk && ! s.disp.dlkDirty && blockedSet s == s.disp.blocked
  let full := (List.range 8).map fun k => boolBit (decide (listLimit s k ≤ listCount s k)) (8 + k)
  wordOf (boolBit dlk 16 + full.sum + bpLevel s)

/-- DISP_REL of the channel that DISP_RELSEL names.
DEDUCED, log entry 145. -/
def dispRel (s : State) : Word :=
  let n := csrFld s offDispRelsel 13 0
  let r := relGet s n
  wordOf (boolBit r.en 31 + r.phase * 0x1000000 + r.tmpl * 0x10000 + r.slot * 0x1000
    + min 255 (readyCount s n r.tmpl))

/-- Registers of DISP that are computed.
DEDUCED, log entry 41. -/
def viewDisp (s : State) (o : Nat) : Option Word :=
  if o = offDispStat then some (dispStat s)
  else if o = offDispMsFree then some (wordOf (msFree s))
  else if o = offDispMsHwm then some (wordOf (max (csrFld s o 16 0) s.disp.insts.length))
  else if offDispList ≤ o ∧ o < offDispList + 32 then
    some (setFld (csrGet s o) 31 16 (min 0xFFFF (listCount s ((o - offDispList) / 4))))
  else if o = offDispRel then some (dispRel s)
  else if offDispDlkSet ≤ o ∧ o < offDispDlkSet + 68 then
    let g := (o - offDispDlkSet) / 4
    some (wordOf (((blockedSet s).map fun k => if k / 32 = g then 2 ^ (k % 32) else 0).sum))
  else if o = offDispChkPend then some (wordOf (min 64 s.chan.checks.length))
  else none

/-- The queue of the QMGR window.
DEDUCED, log entry 145. -/
def selQueue (s : State) : Nat := csrFld s offQmgrQsel 15 0

/-- Registers of QMGR that are computed.
DEDUCED, log entry 41. -/
def viewQmgr (s : State) (o : Nat) : Option Word :=
  let k := queueGet s (selQueue s)
  if o = offQmgrClrFree then some (wordOf (freeCells s))
  else if o = offQmgrClrHwm then some (wordOf (max (csrFld s o 18 0) s.qmgr.used.length))
  else if o = offQmgrQcfg then some (queueCfg k)
  else if o = offQmgrQnote then some k.note
  else if o = offQmgrQstat then
    some (wordOf (boolBit k.bound 31 + boolBit k.under 30 + boolBit k.err 29 + k.items.length))
  else if o = offQmgrQlost then some k.lost
  else none

/-- Registers of CIPH that are computed. -/
def viewCiph (s : State) (o : Nat) : Option Word :=
  let v := viewSlot s
  if o = offCiphStat then some (ciphStat s)
  else if offCiphDevpub ≤ o ∧ o < offCiphDevpub + 64 then
    some (wordBe (pointBytes devPub) ((o - offCiphDevpub) / 4))
  else if o = offCiphSinfo then some (ciphSinfo s)
  else if o = offCiphSidxLo then some (wordOf v.idx)
  else if o = offCiphSidxHi then some (wordOf (v.idx / 4294967296 % 65536))
  else if o = offCiphScidx then some (wordOf (v.cidx % 2147483648))
  else none

/-- Registers of CRUC that are computed. -/
def viewCruc (s : State) (o : Nat) : Option Word :=
  if o = offCrucStat then some (crucStat s)
  else if o = offCrucHstat then some (setBit (csrGet s o) 0 (hostPend s))
  else none

/-- Windows and constants of METER: the windows show what the meter last reported (R382, R410). -/
def viewMeter (s : State) (o : Nat) : Option Word :=
  let m := s.meter.told
  let call := smapGet none m.open_ (csrFld s offMeterOpensel 13 0)
  if o = offMeterOpeninfo then
    some (match call with
      | none => 0
      | some c => wordOf (0x80000000 + c.adopted.toNat))
  else if o = offMeterOpenref then
    some (match call with
      | none => 0
      | some c => c.ref)
  else if offMeterAudit ≤ o ∧ o < offMeterAudit + 32 then
    some (wordOf (leAt (m.audit.getD (csrFld s offMeterAudsel 9 0) []) (o - offMeterAudit) 4))
  else if offMeterPub ≤ o ∧ o < offMeterPub + 64 then
    some (wordBe (pointBytes meterPub) ((o - offMeterPub) / 4))
  else if offMeterHmkblob ≤ o ∧ o < offMeterHmkblob + 24 then
    some (wordBe m.blob ((o - offMeterHmkblob) / 4))
  else none

/-- Registers of NAND that are computed. -/
def viewNand (s : State) (o : Nat) : Option Word :=
  if o = offNandStat then some (nandStat s)
  else if offNandTgt ≤ o ∧ o < offNandTgt + 16 then some (nandTgt s ((o - offNandTgt) / 4))
  else if o = offNandPinfo0 then some (nandPinfo s 0)
  else if o = offNandPinfo1 then some (nandPinfo s 1)
  else if o = offNandPinfo2 then some (nandPinfo s 2)
  else if o = offNandBinfo then some (nandBinfo s 0)
  else if o = offNandBerase then some (nandBinfo s 1)
  else if o = offNandBread then some (nandBinfo s 2)
  else none

/-- USB_STAT (R495). -/
def usbStat (s : State) : Word :=
  let u := s.usb
  wordOf (boolBit u.vbus 31 + boolBit u.configured 30 + boolBit u.suspended 29 + boolBit u.hs 28
    + boolBit u.rwake 27 + boolBit u.report.isSome 26 + u.img % 4)

/-- Registers of ASSAY that are computed. -/
def viewAssay (s : State) (o : Nat) : Option Word :=
  let a := s.assay
  if o = offAssayStat then
    some (wordOf (boolBit a.busy 31 + boolBit a.unlocked 30 + csrFld s o 29 29 * 0x20000000))
  else if o = offAssayNonce then some (assayNonce s)
  else if offAssayEngfail ≤ o ∧ o < offAssayEngfail + 16 then
    let i := (o - offAssayEngfail) / 4
    some (wordOf ((s.core.removed.map fun e => if e < 128 ∧ e / 32 = i then 2 ^ (e % 32) else 0).sum))
  else if o = offAssaySupfail then
    some (wordOf ((s.core.removed.map fun e => if 128 ≤ e then 2 ^ (e - 128) else 0).sum))
  else if offAssayBank ≤ o ∧ o < offAssayBank + 64 then
    let g := (o - offAssayBank) / 4
    some (wordOf (boolBit (! a.noSpare.contains g) 31
      + (a.failed.map fun x => if x.1 = g ∧ x.2 < 5 then 2 ^ x.2 else 0).sum))
  else none

/-- Code of a context's state in GROVE_ENGe_STAT. -/
def stateCode (c : CtxState) : Nat :=
  match c with
  | .stopped => 0
  | .ready => 1
  | .running => 2
  | .wait _ => 3
  | .fault => 4

/-- Registers of a grove that are computed. -/
def viewGrove (s : State) (o : Nat) : Option Word :=
  let g := csrGrove o
  let x := o % 0x10000
  if x = 0 then
    some (wordOf (((List.range 8).map fun i => boolBit (engPresent s (8 * g + i)) (16 + i)).sum
      + boolBit (g == 16) 8 + g))
  else if 0x1000 ≤ x ∧ x < 0x1800 then
    let e := g * 8 + (x - 0x1000) / 0x100
    let r := x % 0x100
    if r = 4 then
      some (wordOf ((engGet s e).last * 0x10000
        + ((List.range 4).map fun c => stateCode (ctxGet s (4 * e + c)).state * 8 ^ c).sum))
    else if 0x10 ≤ r ∧ r < 0x20 then
      let c := ctxGet s (4 * e + (r - 0x10) / 4)
      some (wordOf (pcShown e (if c.state = .stopped ∨ c.state = .fault then c.pc else c.lastPc)))
    else none
  else none

/-- MACn_SERDES_RX with its eye height, which is free with block lock and 0 without (R340). -/
def serdesRx (s : State) (n : Nat) : Word :=
  (macReg s n offMacSerdesRx &&& 0xFFFFFF00#32)
    ||| (if (macGet s n).lock then wordOf (Config.macEye n (elapsed s.time) % 256) else 0)

/-- The value a computed register shows.
DEDUCED, log entry 145. -/
def csrView (s : State) (o : Nat) : Option Word :=
  match o / 0x10000 with
  | 0x0 => viewDev s o
  | 0x2 => viewTime s o
  | 0x3 => viewDisp s o
  | 0x4 => if o = offEcaStat then some (ecaStat s) else none
  | 0x5 => if o = offRsfStat then some (rsfStat s) else none
  | 0x6 => viewQmgr s o
  | 0x7 => if o = offPktPend then some (wordOf (pendItems s)) else none
  | 0xD => viewCiph s o
  | 0xE => viewCruc s o
  | 0xF => viewMeter s o
  | 0x10 => viewNand s o
  | 0x11 =>
    if o = offMirrStat then some (mirrStat s)
    else if o = offMirrEcage then some (ecAgeReg s)
    else if o = offMirrPromoNfnLo then some (wordOf s.mirr.promo)
    else none
  | 0x13 => if o = offUsbStat then some (usbStat s) else none
  | 0x15 => viewAssay s o
  | b =>
    if 8 ≤ b ∧ b ≤ 0xC then
      (if o % 0x10000 = 4 then some (macStat s (b - 8))
       else if o = offMacSerdesRx + (b - 8) * 0x10000 then some (serdesRx s (b - 8))
       else none)
    else if 0x20 ≤ b ∧ b ≤ 0x30 then viewGrove s o
    else none

/-! ## Reading -/

/-- Engine cycles of engine `e` since device reset (R108): two for each fabric cycle, none
while reflector mode gates its clock (R507). -/
def engCycles (s : State) (e : Nat) : Nat :=
  let all := (s.time.cyc + s.time.fab) * 2
  match s.dev.refl with
  | none => all
  | some r => if 8 ≤ e ∧ e < 128 then r.cycAt * 2 else all

/-- The 64-bit count whose low word is at `o`. -/
def countAt (s : State) (o : Nat) : Nat :=
  if inGrove o && o % 0x10000 % 0x100 == 0x20 then engCycles s (csrGrove o * 8 + (o % 0x10000 - 0x1000) / 0x100)
  else (cntGet s o).toNat

/-- A read of a counter's low word, which latches its high word (R110). -/
def readCount (s : State) (o : Nat) : Word × State :=
  let n := countAt s o
  (wordOf n, csrPut s (o + 4) (wordOf (n / 4294967296)))

/-- The value and the cleared register of an RC read (R10): the minima and maxima of the
feeds begin again from the current value (R554). -/
def readClear (s : State) (r : RegRow) (o : Nat) : Word × State :=
  let v := (csrView s o).getD (csrGet s o)
  if o = offHvsFeedMm ∨ o = offHvsFeedMm + 4 then
    let now := csrFld s (o - 8) 11 0
    (v, csrPut s o (wordOf (now * 0x10001)))
  else if o = offQmgrQlost then (v, queuePut s (selQueue s) { queueGet s (selQueue s) with lost := 0 })
  else (v, csrPut s o (csrGet s o &&& ~~~ wordOf r.rc))

/-- The portal a CSR offset belongs to, with the offset within the portal (R296). -/
def portalAt (o : Nat) : Option (Option Nat × Nat) :=
  if offQpSel ≤ o ∧ o < offQpSel + 0x20 then some (none, o - offQpSel)
  else if inGrove o ∧ 0x4000 ≤ o % 0x10000 ∧ o % 0x10000 < 0x4400 then
    some (some (csrGrove o * 32 + (o % 0x10000 - 0x4000) / 0x20), o % 0x20)
  else none

/-- Whether `o` is the low word of a MAC counter, and of which (R338). -/
def macCountAt (o : Nat) : Option (Nat × Nat) :=
  let b := o / 0x10000
  let x := o % 0x10000
  if 8 ≤ b ∧ b ≤ 0xC ∧ 0x100 ≤ x ∧ x < 0x100 + 25 * 8 ∧ x % 8 = 0 then some (b - 8, (x - 0x100) / 8) else none

/-- A 32-bit read of CSR offset `o`: the value and what the read does (R10, R34). -/
def csrRead (s : State) (o : Nat) : Word × State :=
  match csrRow s o with
  | none => (0, s)
  | some r =>
    match portalAt o, macCountAt o with
    | some (p, 4), _ => popQueue s (csrFld s (portalOff p) 15 0)
    | some (_, 8), _ => allocPortal s
    | _, some (n, c) => readMacCounter s n c
    | _, _ =>
      if o = offTimeNfnLo then readNfnLo s
      else if o = offDevCfgdig then readCfgdig s
      else if o = offMeterTns then readTns s
      else if o = offMirrPromoNfnLo then
        (wordOf s.mirr.promo, csrPut s (offMirrPromoNfnLo + 4) (wordOf (s.mirr.promo / 4294967296)))
      else if r.cnt64 ∧ (o % 0x10000 - r.off) % (max r.stride 8) = 0 then readCount s o
      else if r.rc ≠ 0 then readClear s r o
      else ((csrView s o).getD (csrGet s o), s)

/-- The bytes of a word that byte enables select, in rising order. -/
def enabledBytes (be : BitVec 4) (w : Word) : List Byte :=
  ((List.range 4).filter fun i => be.getLsbD i).flatMap fun i => (leBytes 4 w.toNat).drop i |>.take 1

/-- A read of a register, with every side effect whatever the byte enables (R474): the enabled bytes are
kept where statements can see them.  BAR0 answers while R473 lets it. -/
def busReadCsr (s : State) (a : RegRead) : State :=
  if a.host && ! barOn s then s
  else
    let r := csrRead s a.o
    { r.2 with busRead := enabledBytes a.be r.1 }

/-- A read of an RC register (R10); of any other register, or of none, it answers as R34 and R110 say.
DEDUCED, log entry 135. -/
def execRcRegisterRead (a : RegRead) (s : State) : Result := .next (busReadCsr s a)

/-- A read of a counter's _LO word (R110). -/
def execCounterLoRead (a : RegRead) (s : State) : Result :=
  .next (match csrRow s a.o with
    | none => s
    | some r => if r.cnt64 then busReadCsr s a else s)

/-- REG_READ with a data stage of `len` bytes and wIndex `index` (R488, R490). -/
def execRegRead (index len : Nat) (s : State) : Result :=
  .next (usbSetup s fun s =>
    if usbRegen s = false ∨ index ≠ 0 ∨ len ≠ 4 then usbStall s
    else
      let r := csrRead s s.usb.regAddr
      usbOk r.2 (leBytes 4 r.1.toNat))

end Sys2Proof.Machine
end

