-- ==== Sys2Proof/Machine/Load.lean ====
section
/-! DEFINITION. The grove load units (R108, R109, R111). -/

namespace Sys2Proof.Machine

/-- A local or grove memory address of grove `g` with engine `e` as its target: its place and
the bytes from there to the end of the memory (R31, R108). -/
def ldNear (s : State) (g e a : Nat) : Option (Nat × Nat) :=
  if a < 0x40000 then
    (if engPresent s e && (decide (a < 0x30000) || isSup e) then some (localBase e + a, 0x10000 - a % 0x10000)
     else none)
  else if 0x100000 ≤ a ∧ a < 0x180000 ∧ g < 16 then some (groveBase g + (a - 0x100000), 0x180000 - a)
  else none

/-- A heartwood address, or with `rom` a Media ROM address, likewise. -/
def ldFar (rom : Bool) (a : Nat) : Option (Nat × Nat) :=
  if hwBase ≤ a ∧ a < hwEnd then some (a, hwEnd - a)
  else if rom ∧ 0x40000000 ≤ a ∧ a < 0x40400000 then some (romPa + (a - 0x40000000), 0x40400000 - a)
  else none

/-- Source of a transfer. -/
def ldSource (s : State) (g : Nat) (x : LoadXfer) : Option (Nat × Nat) :=
  if x.zero then some (0, 2 ^ 32)
  else if x.dir then ldNear s g x.eng x.src.toNat
  else ldFar true x.src.toNat

/-- Destination of a transfer. -/
def ldDest (s : State) (g : Nat) (x : LoadXfer) : Option (Nat × Nat) :=
  if x.dir then ldFar false x.dst.toNat else ldNear s g x.eng x.dst.toNat

/-- A PM target of an engine that has a context neither STOPPED nor FAULT. -/
def ldBusyPm (s : State) (x : LoadXfer) : Bool :=
  let a := x.dst.toNat
  ! x.dir && (decide (a < 0x10000) || (decide (0x30000 ≤ a) && decide (a < 0x40000)))
    && (List.range 4).any fun c =>
      let st := (ctxGet s (4 * x.eng + c)).state
      st != .stopped && st != .fault

/-- The code with which a transfer is refused before any byte moves, else 0 (R109).
DEDUCED, log entry 15. -/
def ldCode (s : State) (g : Nat) (x : LoadXfer) : Nat :=
  match ldSource s g x, ldDest s g x with
  | none, _ => 1
  | _, none => 2
  | some a, some d =>
    if ldBusyPm s x then 3
    else if x.len % 4 ≠ 0 ∨ a.2 < x.len ∨ d.2 < x.len then 5
    else 0

/-- GROVE_LD_CTL.GO, ignored while a transfer is in progress.
DEDUCED, log entry 15. -/
def ldGo (s : State) (g : Nat) : State :=
  if (smapGet none s.core.load g).isSome then s
  else
    let ctl := csrGet s (groveReg offGroveLdCtl g)
    let x : LoadXfer := {
      src := csrGet s (groveReg offGroveLdSrc g)
      dst := csrGet s (groveReg offGroveLdDst g)
      len := csrFld s (groveReg offGroveLdLen g) 19 0
      zero := bitOf ctl 9
      dir := bitOf ctl 8
      eng := 8 * g + fld ctl 2 0 }
    if x.len = 0 then ldEnd s g x 0 0
    else if ldCode s g x ≠ 0 then ldEnd s g x (ldCode s g x) 0
    else
      csrSetBit { s with core := { s.core with load := smapPut none s.core.load g (some x) } }
        (groveReg offGroveLdStat g) 0 true

/-- A write of GROVE_LD_CTL. -/
def writeLdCtl (s : State) (g : Nat) (v : Word) : State :=
  let s1 := csrPut s (groveReg offGroveLdCtl g) (v &&& 0x307#32)
  if bitOf v 31 then ldGo s1 g else s1

/-- A write of GROVE_LD_CTL with GO. -/
def execLoadUnitGo (g : Nat) (v : Word) (s : State) : Result :=
  .next (if g < 17 ∧ grovePresent s g then writeLdCtl s g (setBit v 31 true) else s)

/-- The bytes before the first uncorrectable word of a source, if it holds one. -/
def ldBad (s : State) (a n : Nat) : Option Nat :=
  ((List.range (n / 4)).find? fun i => isPoison s (a + 4 * i)).map fun i => 4 * i

/-- The fetch address at which a place of engine `e`'s PM is read. -/
def fetchAddr (e d : Nat) : Nat := let o := d - localBase e; if o < 0x10000 then o else o - 0x20000

/-- Whether a transfer writes PM. -/
def toPm (x : LoadXfer) (d : Nat) : Bool := ! x.dir && isLocal d && localKind x.eng d == 0

/-- Bytes put at a transfer's destination. -/
def ldPut (s : State) (x : LoadXfer) (d : Nat) (bs : List Byte) : State :=
  if x.dir then busWrite s d bs
  else memWrite (if toPm x d then kernDrop s x.eng (fetchAddr x.eng d) bs.length else s) d bs

/-- The kernel whose code a transfer copied whole from offset `o` of the Media ROM into PM (R115). -/
def ldKernel (s : State) (x : LoadXfer) (d o : Nat) : State :=
  match (if toPm x d then kernels.zipIdx.find? fun k => romPlace (k.2 + 2) == o && decide (k.1.size ≤ x.len) else none) with
  | none => s
  | some k => kernPlace s x.eng (fetchAddr x.eng d) k.2

/-- The transfer of grove `g` moves its bytes: all, or a free part of what stands before
uncorrectable data at its source.
DEDUCED, log entry 15. -/
def ldMove (s : State) (g : Nat) (x : LoadXfer) : State :=
  match ldSource s g x, ldDest s g x with
  | some (a, _), some (d, _) =>
    if x.zero then ldEnd (ldPut s x d (zeros x.len)) g x 0 x.len
    else if romPa ≤ a then ldEnd (ldKernel (ldPut s x d (romBytes (a - romPa) x.len)) x d (a - romPa)) g x 0 x.len
    else
      match ldBad s a x.len with
      | none => ldEnd (ldPut (correct s a x.len) x d (memBytes s a x.len)) g x 0 x.len
      | some b =>
        let f := drawFree s
        let n := f.1 % (b / 4 + 1) * 4
        ldEnd (ldPut f.2 x d (memBytes s a n)) g x 4 n
  | _, _ => ldEnd s g x 1 0

/-- A transfer ends (R109, R111). -/
def execLoadUnitDone (g : Nat) (s : State) : Result :=
  .next (match smapGet none s.core.load g with
    | none => s
    | some x => ldMove s g x)

end Sys2Proof.Machine
end

