-- ==== Sys2Proof/Machine/CsrWrite.lean ====
section
/-! DEFINITION. Writes of CSR space (R10, R32, R34): a register without an effect of its own
takes its new value, every other write goes to the operation its chapter gives it. -/

namespace Sys2Proof.Machine

/-- A write without an effect beyond the register (R10). -/
def csrPlain (s : State) (r : RegRow) (o : Nat) (v : Word) : State := csrPut s o (csrMerge r (csrGet s o) v)

/-- A write of a DEV register; `host` bars the OTP registers (R504).
DEDUCED, log entry 146. -/
def writeDev (s : State) (r : RegRow) (host : Bool) (o : Nat) (v : Word) : State :=
  if o = offDevCtl then (if bitOf v 0 then setRun s else clearRun s)
  else if o = offDevBootgo then (if bitOf v 0 then bootGo s else s)
  else if o = offDevHwlCell then writeHwlCell s v
  else if o = offDevHwlChan ∨ o = offDevHwlEc then (if s.dev.run ∨ s.dev.check then s else csrPlain s r o v)
  else if o = offDevCfgkey + 12 then applyCfgkey s v
  else if offDevCfgkey ≤ o ∧ o < offDevCfgkey + 12 then stageCfgkey s ((o - offDevCfgkey) / 4) v
  else if offDevOtpdata ≤ o ∧ o ≤ offDevOtpstat ∧ host then s
  else if o = offDevOtpcmd then otpOp s (fld v 1 0) (fld v 3 2)
  else csrPlain s r o v

/-- A write of a TIME register. -/
def writeTime (s : State) (r : RegRow) (o : Nat) (v : Word) : State :=
  if o = offTimeCtl then writeTimeCtl s v
  else if o = offTimeServo then writeServo s v
  else if o = offTimeFreq then writeFreq s v
  else if o = offTimeSlew then writeSlew s v
  else if o = offTimePhaseAdj then writePhaseAdj s v
  else csrPlain s r o v

/-- A write of a DISP register. -/
def writeDisp (s : State) (r : RegRow) (o : Nat) (v : Word) : State :=
  if o = offDispTmplCmd then tmplCommand s (fld v 1 0)
  else if o = offDispPurge then (if bitOf v 31 then purgeChan s (fld v 13 0) else s)
  else if o = offDispFree then (if bitOf v 31 then taskFree s v else s)
  else if o = offDispBp then levelCheck (csrPlain s r o v)
  else csrPlain s r o v

/-- A write of a QMGR register outside the portal. -/
def writeQmgr (s : State) (r : RegRow) (o : Nat) (v : Word) : State :=
  let q := selQueue s
  let k := queueGet s q
  if o = offQmgrQcfg then writeQcfg s q v
  else if o = offQmgrQnote then queuePut s q { k with note := v }
  else if o = offQmgrQstat then (if bitOf v 30 then queuePut s q { k with under := false } else s)
  else if o = offQmgrClrLowev then clearingCheck (csrPlain s r o v)
  else csrPlain s r o v

/-- A write of a portal register at `x` within it (R296). -/
def writePortal (s : State) (r : RegRow) (p : Option Nat) (x o : Nat) (v : Word) : State :=
  match x with
  | 0x0C => freePortal s p v
  | 0x10 => stagePush s p v
  | 0x14 => pushPortal s p v
  | _ => csrPlain s r o v

/-- A command of PKT_FCMD: 1 write, 2 read, 3 invalidate (R318). -/
def flowCommand (s : State) (op : Nat) : State :=
  match op with
  | 1 => flowWrite s (flowSel s) (stagedFlow s)
  | 2 => flowRead s
  | 3 => flowInvalidate s (flowSel s)
  | _ => s

/-- A command of PKT_TCMD: 1 write, 2 read (R318). -/
def hdrCommand (s : State) (op : Nat) : State :=
  match op with
  | 1 => tmplWrite s (hdrSel s) (stagedTmpl s)
  | 2 => tmplReadOut s
  | _ => s

/-- A write of a PKT register. -/
def writePkt (s : State) (r : RegRow) (o : Nat) (v : Word) : State :=
  if o = offPktFcmd then flowCommand s (fld v 1 0)
  else if o = offPktTcmd then hdrCommand s (fld v 1 0)
  else csrPlain s r o v

/-- A write of a register of port `n`. -/
def writeMac (s : State) (r : RegRow) (n o : Nat) (v : Word) : State :=
  if o % 0x10000 = 0 then writeMacCtl s n v
  else if o % 0x10000 = 0x20 then writePreempt s n v
  else csrPlain s r o v

/-- A write of a CIPH register. -/
def writeCiph (s : State) (r : RegRow) (o : Nat) (v : Word) : State :=
  if o = offCiphKekcmd then (if bitOf v 0 then kekStart s else s)
  else if o = offCiphImpCmd then impCommand s (fld v 1 0)
  else csrPlain s r o v

/-- A write of METER_SEALCMD (R404), METER_PROG_N standing as it was last seen.
DEDUCED, log entry 85. -/
def sealCommand (s : State) (v : Word) : State :=
  if v = 0x53454101#32 then armSeal s.meter.prog s
  else if v = 0x53454102#32 then sealMeter s.meter.prog s
  else s

/-- A write of a METER register. -/
def writeMeter (s : State) (r : RegRow) (o : Nat) (v : Word) : State :=
  if o = offMeterCmdgo then (if bitOf v 0 then meterGo (adoptFirst s) else s)
  else if o = offMeterSealcmd then sealCommand s v
  else if isSealReg o then writeSealReg s o v
  else csrPlain s r o v

/-- A write of a HOST register. -/
def writeHost (s : State) (r : RegRow) (o : Nat) (v : Word) : State :=
  let i := (o - offHostRingCtl) / 0x20
  if offHostRingCtl ≤ o ∧ o < offHostRingCtl + 0x200 then
    match (o - offHostRingCtl) % 0x20 with
    | 0 => writeRingCtl s i v
    | 4 => if ringRun s i then s else csrPlain s r o v
    | 8 => if ringRun s i then s else csrPlain s r o v
    | _ => csrPlain s r o v
  else csrPlain s r o v

/-- A write of a USB register. -/
def writeUsb (s : State) (r : RegRow) (o : Nat) (v : Word) : State :=
  if o = offUsbCtl then writeUsbCtl s v
  else if o = offUsbAlmgo then (if bitOf v 0 then almGo s else s)
  else csrPlain s r o v

/-- A write of an ASSAY register: the host's only while unlocked, and refused otherwise (R520).
DEDUCED, log entry 128. -/
def writeAssay (s : State) (r : RegRow) (host : Bool) (o : Nat) (v : Word) : State :=
  if o = offAssayUnlock then (if host then assayUnlock s v else s)
  else if host then
    if s.assay.unlocked then csrPlain (assayPut s { s.assay with hostAt := elapsed s.time }) r o v
    else csrSetBit s offAssayStat 29 true
  else csrPlain s r o v

/-- A write of a register of a grove outside the portals. -/
def writeGrove (s : State) (r : RegRow) (o : Nat) (v : Word) : State :=
  let g := csrGrove o
  let x := o % 0x10000
  if x = 0x1C then writeLdCtl s g v
  else
    match csrEngine o with
    | none => csrPlain s r o v
    | some e =>
      let y := x % 0x100
      if y = 0 then writeEngCtl s e v
      else if 0x10 ≤ y ∧ y < 0x20 then writePc s (4 * e + (y - 0x10) / 4) v
      else if y = 8 then csrPlain s r o (if isSup e then v else v &&& 0xFFFF#32)
      else csrPlain s r o v

/-- A write of a register that is there, by block (R34). -/
def writeBlock (s : State) (r : RegRow) (host : Bool) (o : Nat) (v : Word) : State :=
  match o / 0x10000 with
  | 0x0 => writeDev s r host o v
  | 0x2 => writeTime s r o v
  | 0x3 => writeDisp s r o v
  | 0x6 => writeQmgr s r o v
  | 0x7 => writePkt s r o v
  | 0xD => writeCiph s r o v
  | 0xE => if o = offCrucHcmd then (if bitOf v 0 then crucHostGo s else s) else csrPlain s r o v
  | 0xF => writeMeter s r o v
  | 0x10 => if o = offNandCmdgo then (if bitOf v 0 then nandGo s else s) else csrPlain s r o v
  | 0x11 =>
    if o = offMirrCtl then writeMirrCtl s v
    else if o = offMirrCmd then mirrCommand s (fld v 2 0) (bitOf v 31)
    else csrPlain s r o v
  | 0x12 => writeHost s r o v
  | 0x13 => writeUsb s r o v
  | 0x14 => if o = offHvsAlmout then writeAlmout s v else csrPlain s r o v
  | 0x15 => writeAssay s r host o v
  | b =>
    if 8 ≤ b ∧ b ≤ 0xC then writeMac s r (b - 8) o v
    else if 0x20 ≤ b then writeGrove s r o v
    else csrPlain s r o v

/-- A 32-bit write of CSR offset `o`, by the host or by an engine that may (R32); offsets
without a register ignore it (R34). -/
def csrWrite (s : State) (host : Bool) (o : Nat) (v : Word) : State :=
  match csrRow s o with
  | none => s
  | some r =>
    match portalAt o with
    | some (p, x) => writePortal s r p x o v
    | none => writeBlock s r host o v

/-- A write of a CSR by the host through BAR0, or by a supervisor in privileged state.
DEDUCED, log entry 135. -/
def execRegisterWrite (host : Bool) (o : Nat) (v : Word) (s : State) : Result :=
  .next (if host && ! barOn s then s else csrWrite s host o v)

/-- A staged REG_WRITE committed, with the host's rights (R490).
DEDUCED, log entry 136. -/
def execRegWriteCommit (s : State) : Result :=
  .next (match s.usb.staged with
    | none => s
    | some (o, v) => csrWrite (usbPut s { s.usb with staged := none }) true o v)

end Sys2Proof.Machine
end

