-- ==== Sys2Proof/Machine/Far.lean ====
section
/-! DEFINITION. Far accesses performed (R75, R76, R32) and CPX (R142). -/

namespace Sys2Proof.Machine

/-! ## Far loads and atomics -/

/-- `size` bytes read at CSR offset `o`: a half performs the whole 32-bit read of its
register, 64 bits are two reads, the lower first (R32).
DEDUCED, log entry 144. -/
def farCsr (s : State) (size o : Nat) : Nat × State :=
  if size = 2 then
    let r := csrRead s (o / 4 * 4)
    (r.1.toNat / 2 ^ (8 * (o % 4)) % 65536, r.2)
  else if size = 4 then
    let r := csrRead s o
    (r.1.toNat, r.2)
  else
    let lo := csrRead s o
    let hi := csrRead lo.2 (o + 4)
    (lo.1.toNat + hi.1.toNat * 4294967296, hi.2)

/-- What a far load returns, or none where its data are uncorrectable. -/
def farRead (s : State) (size pa : Nat) : Option (Nat × State) :=
  if romPa ≤ pa then some (leNat (romBytes (pa - romPa) size), s)
  else if csrPa ≤ pa then some (farCsr s size (pa - csrPa))
  else if anyPoison s pa size then none
  else some (memNat s pa size, correct s pa size)

/-- A far write of `size` bytes: heartwood as a bus agent, or grove memory, where a store of part of
a protected word reads the rest of it (R557). -/
def farPut (s : State) (pa size v : Nat) : State :=
  if pa < hwEnd then busWrite s pa (leBytes size v)
  else memPut (if size < 8 then correct s pa size else s) pa size v

/-- The far data error of a context at the end of its wait (R103); a stop request that
waited takes effect (R101).
DEDUCED, log entry 39. -/
def farError (s : State) (k : Nat) (a : Word) : State :=
  let s1 := takeExc s k 7 a 0
  let c := ctxGet s1 k
  if c.stopReq && c.state == .ready then ctxPut s1 k { c with state := .stopped, stopReq := false } else s1

/-- An atomic on the word `old` at `pa`: the word it writes, if any, and the registers. -/
def atomicEnd (s : State) (k rd pa : Nat) (new : Option Word) (z : Option Bool) : State :=
  let old := wordOf (memNat s pa 4)
  let s0 := correct s pa 4
  let s1 := match new with
    | none => s0
    | some w => farPut s0 pa 4 w.toNat
  let c := regWrite (ctxGet s1 k) (.g rd) (old.zeroExtend 40)
  endWait s1 k (setFlags c ⟨z, none, none, none⟩)

/-- The far load or atomic of context `k` is performed.
DESIGN CHOICE, log entry 9. -/
def farPerform (s : State) (k : Nat) (op : FarOp) : State :=
  match op with
  | .load size ext dst addr pa post =>
    (match farRead s size pa with
    | none => farError s k addr
    | some (v, s1) =>
      let c := match post with
        | none => ctxGet s1 k
        | some (n, p) => regWrite (ctxGet s1 k) (.p n) (p.zeroExtend 40)
      endWait s1 k (regWrite c dst (loadValue size ext v)))
  | .aadd rd add addr pa =>
    if anyPoison s pa 4 then farError s k addr
    else atomicEnd s k rd pa (some (wordOf (memNat s pa 4) + add)) none
  | .acas rd cmp new addr pa =>
    if anyPoison s pa 4 then farError s k addr
    else
      let hit := wordOf (memNat s pa 4) == cmp
      atomicEnd s k rd pa (if hit then some new else none) (some hit)

/-- The response of context `k`'s far load or atomic, after its earlier far stores (R75). -/
def execFarLoadReturn (k : Nat) (s : State) : Result :=
  .next (match (ctxGet s k).state with
    | .wait (.far op) => if storesPending s k then s else farPerform s k op
    | _ => s)

/-! ## Far stores -/

/-- A buffered store performed at its target. -/
def storePerform (s : State) (f : FarStore) : State :=
  if csrPa ≤ f.pa then
    let o := f.pa - csrPa
    let s1 := csrWrite s false o (wordOf f.val.toNat)
    if f.size = 8 then csrWrite s1 false (o + 4) (wordOf (f.val.toNat / 4294967296)) else s1
  else farPut s f.pa f.size f.val.toNat

/-- The store that a context of engine `e` waits with for room in the buffer. -/
def fullWait (s : State) (e : Nat) : Option (Nat × FarStore) :=
  ((List.range 4).filterMap fun c =>
    match (ctxGet s (4 * e + c)).state with
    | .wait (.storeFull f) => some (4 * e + c, f)
    | _ => none).head?

/-- An entry of the buffer has freed: a waiting store takes it.
DESIGN CHOICE, log entry 14. -/
def storeResume (s : State) (e : Nat) : State :=
  match fullWait s e with
  | none => s
  | some (k, f) => endWait (engPut s e { engGet s e with buf := (engGet s e).buf ++ [f] }) k (ctxGet s k)

/-- The oldest buffered far store of context `k` is performed. -/
def execFarStorePerformed (k : Nat) (s : State) : Result :=
  .next (match (engGet s (k / 4)).buf.find? fun f => f.ctx == k with
    | none => s
    | some f =>
      let s1 := engPut s (k / 4) { engGet s (k / 4) with buf := (engGet s (k / 4)).buf.erase f }
      storeResume (storePerform s1 f) (k / 4))

/-! ## CPX -/

/-- A CPX to UNIT 2 (R351); none when the queue is full. -/
def ciphEnqueue (s : State) (c : UnitCmd) : Option State :=
  if 256 ≤ s.ciph.unit.q.length then none
  else
    let u := s.ciph.unit
    some (ciphSettle { s with ciph := { s.ciph with unit := { u with q := u.q ++ [c] } } })

/-- A CPX to UNIT 3 (R362); none when its queue is full. -/
def crucCpx (s : State) (c : UnitCmd) : Option State :=
  if 128 ≤ (s.cruc.q.filter fun r => r.queue == 0).length then none
  else some (crucEnqueue s 0 c.ctx none c.w0 c.w1 c.w2 c.w3)

/-- Every buffered far store of context `k` performed, oldest first: what a coprocessor
reads for a committed CPX comes after them (R95).
DEDUCED, log entry 16. -/
def storesDrain (s : State) (k : Nat) : State :=
  let mine := (engGet s (k / 4)).buf.filter fun f => f.ctx == k
  let s1 := engPut s (k / 4) { engGet s (k / 4) with buf := (engGet s (k / 4)).buf.filter fun f => f.ctx != k }
  mine.foldl (fun a f => storeResume (storePerform a f) (k / 4)) s1

/-- The command offered to its unit, and the counter of a full queue.
DEDUCED, log entries 16, 143. -/
def cpxOffer (s : State) (unit : Nat) (c : UnitCmd) : Option State × Nat :=
  match unit with
  | 0 => (ecaEnqueue s c, offEcaQfull)
  | 1 => (rsfEnqueue s c, offRsfQfull)
  | 2 => (ciphEnqueue s c, offCiphQfull)
  | _ => (crucCpx s c, offCrucQfull)

/-- DEDUCED, log entries 16, 143. -/
def execCpx (e : Nat) (unit ga : BitVec 2) (s : State) : Result :=
  .next (issue s e fun s k =>
    if ga = 3 then excIllegal s k
    else
      let c := ctxGet s k
      let w := fun i => gGet c (4 * ga.toNat + i)
      let cmd : UnitCmd := ⟨w 0, w 1, w 2, w 3, k, privileged s k⟩
      match cpxOffer (storesDrain s k) unit.toNat cmd with
      | (some s1, _) => endInstr s1 k (setC (ctxGet s1 k) true)
      | (none, o) =>
        let s1 := bump (storesDrain s k) o
        endInstr s1 k (setC (ctxGet s1 k) false))

end Sys2Proof.Machine
end

