-- ==== Sys2Proof/Machine/Reflector.lean ====
section
/-! DEFINITION. Reflector mode (R507–R513): what the Boot ROM does on MAC0 once it has found
no package.  The servo of its PTP slave and some figures it reports are free.
DESIGN CHOICE, log entries 28, 177. -/

namespace Sys2Proof.Machine

def reflPut (s : State) (r : ReflSt) : State := devPut s { s.dev with refl := some r }

/-- One second in ns of elapsed time. -/
def secNs : Nat := 1000000000

/-- A free number of reflector mode. -/
def reflFree (s : State) (i : Nat) : Nat := Config.reflNum (8 * s.free + i)

/-- The count of free values moved on. -/
def reflDraw (s : State) : State := { s with free := s.free + 1 }

/-! ## Statistics (R513) -/

/-- First byte of the statistics. -/
def reflBase : Nat := 0x19FF0000

/-- The first 64 bytes of the statistics. -/
def reflHead (s : State) (r : ReflSt) : List Byte :=
  leBytes 2 0x5246 ++ leBytes 1 r.dhcp ++ leBytes 1 (modeCode s.time.mode) ++ leBytes 4 r.ip
    ++ leBytes 8 ((elapsed s.time - r.since) / secNs)
    ++ leBytes 8 r.twamp ++ leBytes 8 r.rtpRx ++ leBytes 8 r.rtpTx ++ leBytes 8 r.rtpDrop
    ++ leBytes 2 (r.chans.filter fun c => c.2.isSome).length ++ zeros 14

/-- The codec code of R261 of a payload type: 0 is µ-law and 8 A-law. -/
def reflCodec (pt : Nat) : Nat := if pt = 0 then 2 else 1

/-- Packets lost, by the sequence numbers (RFC 3550). -/
def reflLost (c : ReflChan) : Nat := c.seqTop + 1 - c.seq0 - c.rx

/-- The entry of channel `n`, LATE and CONCEAL from its status and ERL from its EC record (R189, R275,
R513); a closed one keeps what stands there but for OPEN. -/
def reflEntry (s : State) (n : Nat) (c : ReflChan) : List Byte :=
  leBytes 4 c.ip ++ leBytes 2 c.port ++ leBytes 1 (reflCodec c.codec) ++ leBytes 1 1 ++ leBytes 8 c.rx ++ leBytes 8 c.tx
    ++ leBytes 4 (reflLost c) ++ leBytes 4 (statGet s n 0x48 4) ++ leBytes 4 (statGet s n 0x4C 4)
    ++ leBytes 4 (c.jitter / 16) ++ leBytes 4 c.rtt ++ memBytes s (ecAddr s n + 0xE40) 2 ++ zeros 18

/-- The statistics as they stand now, with the entry of channel `c` when it is open. -/
def reflStats (s : State) (c : Option Nat) : State :=
  match s.dev.refl with
  | none => s
  | some r =>
    let s1 := busWrite s reflBase (reflHead s r)
    match c with
    | none => s1
    | some n =>
      match smapGet none r.chans n with
      | none => busWrite s1 (reflBase + 0x40 + 64 * n + 7) [0#8]
      | some x => busWrite s1 (reflBase + 0x40 + 64 * n) (reflEntry s n x)

/-! ## Frames of MAC0 (R508) -/

/-- MAC0 enabled at a speed: without FEC, transmit and receive on, with the latencies of the speed (R45). -/
def reflMac (s : State) (slow : Bool) : State :=
  let s1 := csrPut (csrPut s offTimePortTxlat (if slow then 0x0604#32 else 0x0268#32))
    offTimePortRxlat (if slow then 0x07C8#32 else 0x034C#32)
  writeMacCtl (writeMacCtl s1 0 0x2000#32) 0 (wordOf (0xE0002000 + boolBit slow 19))

/-- A frame handed to MAC0. -/
def reflSend (s : State) (dst : List Byte) (type : Nat) (body : List Byte) : State :=
  pktSend s 0 0 [] (dst ++ macAddr s 0 ++ beBytes 2 type ++ body)

/-- An IPv4 packet without options (RFC 791). -/
def ipPacket (src dst proto : Nat) (body : List Byte) : List Byte :=
  let h := [0x45#8, 0x00#8] ++ beBytes 2 (20 + body.length) ++ zeros 2 ++ beBytes 2 0x4000 ++ [64#8] ++ beBytes 1 proto
  let a := beBytes 4 src ++ beBytes 4 dst
  h ++ beBytes 2 (inetSum (h ++ zeros 2 ++ a)) ++ a ++ body

/-- A UDP datagram with its checksum (RFC 768). -/
def udpPacket (src dst sport dport : Nat) (body : List Byte) : List Byte :=
  let h := beBytes 2 sport ++ beBytes 2 dport ++ beBytes 2 (body.length + 8)
  let c := udpSum (beBytes 4 src) (beBytes 4 dst) (h ++ zeros 2 ++ body)
  h ++ beBytes 2 (if c = 0 then 65535 else c) ++ body

/-- A UDP datagram sent from MAC0. -/
def reflUdp (s : State) (mac : List Byte) (src dst sport dport : Nat) (body : List Byte) : State :=
  reflSend s mac 0x0800 (ipPacket src dst 17 (udpPacket src dst sport dport body))

/-- The frame at the head of MAC0's FIFO, taken and counted. -/
def reflTake (s : State) : Option (RxFrame × State) :=
  match takeRx s 0 with
  | none => none
  | some (f, s1) => some (f, bump (countRx s1 0 f) offPktRxpkt)

/-- A UDP datagram for the device's own address, untagged (R508). -/
def reflHears (r : ReflSt) (f : RxFrame) : Option Udp :=
  if f.trunc then none
  else
    match parseFrame f.bytes with
    | .udp u => if ! u.tagged && ! u.v6 && beAt f.bytes 30 4 == r.ip then some u else none
    | .drop _ _ => none

/-! ## Entry, link and address (R507, R508) -/

/-- A context of a grove whose clock stops is stopped (R507). -/
def haltCtx (s : State) (k : Nat) : State :=
  let c := ctxGet s k
  if c.state = .stopped then s else ctxPut s k { c with state := .stopped }

/-- The engines of reflector mode (R507): groves 1 to 15 stop, and the Boot ROM runs on S0, S1 and the
engines of grove 0, with the standard templates installed.
DESIGN CHOICE, log entry 177. -/
def reflEngines (s : State) : State :=
  let s1 := (List.range 480).foldl (fun a i => haltCtx a (32 + i)) s
  let s2 := ([128, 129] ++ List.range 8).foldl (fun a e => if engPresent a e then romRuns a (4 * e) else a) s1
  let word := fun i => wordOf (reflFree s2 i)
  reflDraw (tmplPut (tmplPut s2 1 (some (word 0, word 1))) 2 (some (word 2, word 3)))

/-- DEDUCED, log entry 129. -/
def execReflectorEnter (s : State) : Result :=
  .next (if s.dev.bootRom && s.dev.noBoot && s.dev.refl.isNone then
    let s1 := rebuildClearing (csrSetFld s offDevHwlCell 27 16 0x180)
    let s2 := writeAlmout (csrSetFld s1 offDevBoot 31 28 4) (setFld (csrGet s1 offHvsAlmout) 2 0 4)
    let addr := leBytes 6 Config.stationAddr
    let s3 := csrPut (csrPut s2 offMacAddrHi (wordOf (leAt addr 4 2))) offMacAddrLo (wordOf (leAt addr 0 4))
    let s4 := setRun (writeTimeCtl s3 (csrGet s3 offTimeCtl ||| 1#32))
    let s5 := reflEngines (reflPut s4 (ReflSt.enter (elapsed s.time) (s.time.cyc + s.time.fab)))
    let s6 := [1, 2, 3, 4].foldl (fun a n => writeMacCtl a n (macReg a n offMacCtl)) s5
    reflStats (reflMac s6 false) none
  else s)

def execReflectorLinkTry (s : State) : Result :=
  .next (match s.dev.refl with
    | none => s
    | some r =>
      if (macGet s 0).link = false ∧ r.tryAt + 2 * secNs ≤ elapsed s.time then
        reflMac (reflPut s { r with slow := ! r.slow, tryAt := elapsed s.time }) (! r.slow)
      else s)

/-- A message of the DHCP client (RFC 2131), with its options after the type. -/
def dhcpMessage (s : State) (xid ciaddr type : Nat) (opts : List Byte) : List Byte :=
  [1#8, 1#8, 6#8, 0#8] ++ beBytes 4 xid ++ zeros 4 ++ beBytes 4 ciaddr ++ zeros 12 ++ padTo 16 (macAddr s 0) ++ zeros 192
    ++ beBytes 4 0x63825363 ++ [53#8, 1#8] ++ beBytes 1 type ++ opts ++ [255#8]

/-- A message broadcast from address 0. -/
def dhcpBroadcast (s : State) (src : Nat) (msg : List Byte) : State :=
  reflUdp s (List.replicate 6 0xFF#8) src 0xFFFFFFFF 68 67 msg

/-- A DHCPDISCOVER, with a transaction number of its own. -/
def dhcpDiscover (s : State) (r : ReflSt) : State :=
  let xid := reflFree s 0 % 4294967296
  let s1 := reflPut (reflDraw s) { r with
    sentAt := elapsed s.time
    tries := min 4 (r.tries + 1)
    client := { DhcpClient.reset with xid := xid } }
  dhcpBroadcast s1 0 (dhcpMessage s xid 0 1 [])

/-- A DHCPREQUEST for the address asked for. -/
def dhcpRequest (s : State) (r : ReflSt) (c : DhcpClient) (ip : Nat) : State :=
  dhcpBroadcast (reflPut s { r with sentAt := elapsed s.time, client := { c with sends := c.sends + 1 } }) 0
    (dhcpMessage s c.xid 0 3 ([50#8, 4#8] ++ beBytes 4 ip ++ [54#8, 4#8] ++ beBytes 4 c.server))

/-- A DHCPREQUEST that renews the lease: to the server until T2, then broadcast. -/
def dhcpRenew (s : State) (r : ReflSt) (toServer : Bool) : State :=
  let s1 := reflPut s { r with sentAt := elapsed s.time }
  let msg := dhcpMessage s r.client.xid r.ip 3 []
  if toServer then reflUdp s1 r.client.mac r.ip r.client.server 68 67 msg else dhcpBroadcast s1 r.ip msg

/-- A channel closed: its jitter queue is emptied. -/
def reflClose (s : State) (n : Nat) : State :=
  let s1 := (queueGet s n).items.foldl (fun a i => takeOut a n i) s
  match s1.dev.refl with
  | none => s1
  | some r => reflStats (reflPut s1 { r with chans := smapPut none r.chans n none }) (some n)

/-- A new address: a change closes every channel. -/
def reflAddress (s : State) (r : ReflSt) (ip dhcp : Nat) : State :=
  if ip = r.ip then reflPut s { r with dhcp := dhcp }
  else
    r.chans.foldl (fun a c => reflClose a c.1) (reflPut s { r with dhcp := dhcp, ip := ip })

/-- Time from the DISCOVER last sent to the next step of the client. -/
def dhcpWait (r : ReflSt) : Nat := if r.dhcp = 0 then (if r.tries = 0 then 0 else 2 ^ (r.tries + 1)) else 60

/-- An option of a DHCP message, from the first option on. -/
def dhcpOption (fuel code : Nat) (b : List Byte) : Option (List Byte) :=
  match fuel with
  | 0 => none
  | fuel + 1 =>
    if b = [] ∨ byteAt b 0 = 255 then none
    else if byteAt b 0 = 0 then dhcpOption fuel code (b.drop 1)
    else if byteAt b 0 = code then some (slice b 2 (byteAt b 1))
    else dhcpOption fuel code (b.drop (2 + byteAt b 1))

/-- The four bytes of an option as a number. -/
def dhcpNumber (code other : Nat) (b : List Byte) : Nat :=
  match dhcpOption b.length code b with
  | some x => if x.length = 4 then beAt x 0 4 else other
  | none => other

/-- The reply to the client that a frame holds (RFC 2131): the BOOTP message. -/
def dhcpReply (s : State) (r : ReflSt) (f : RxFrame) : Option (List Byte) :=
  if f.trunc then none
  else
    match parseFrame f.bytes with
    | .drop _ _ => none
    | .udp u =>
      let b := u.body
      if u.tagged = false ∧ u.v6 = false ∧ u.dport = 68 ∧ u.sport = 67 ∧ 241 ≤ b.length ∧ byteAt b 0 = 2
          ∧ beAt b 4 4 = r.client.xid ∧ slice b 28 6 = macAddr s 0 ∧ beAt b 236 4 = 0x63825363 then some b
      else none

/-- A lease taken: the address, and the times of its renewal (RFC 2131, 4.4.5). -/
def dhcpBound (s : State) (r : ReflSt) (mac b : List Byte) : State :=
  let o := b.drop 240
  let len := dhcpNumber 51 0xFFFFFFFF o
  let c := { r.client with
    asked := none
    mac := mac
    server := dhcpNumber 54 r.client.server o
    from_ := elapsed s.time
    len := len
    t1 := dhcpNumber 58 (len / 2) o
    t2 := dhcpNumber 59 (len * 7 / 8) o }
  reflAddress s { r with client := c, probe := none, tries := 0 } (beAt b 16 4) 1

/-- A reply heard: an OFFER is asked for, an ACK gives the lease, a NAK ends it. -/
def dhcpHear (s : State) (r : ReflSt) (mac b : List Byte) : State :=
  let waits := r.client.asked.isSome || r.dhcp == 1
  match dhcpOption b.length 53 (b.drop 240) with
  | some [2#8] =>
    if r.dhcp = 1 ∨ r.client.asked.isSome then s
    else
      let ip := beAt b 16 4
      dhcpRequest s r { r.client with asked := some ip, server := dhcpNumber 54 0 (b.drop 240), sends := 0 } ip
  | some [5#8] => if waits then dhcpBound s r mac b else s
  | some [6#8] =>
    if ! waits then s
    else
      let x := { r with client := DhcpClient.reset, tries := if r.dhcp = 2 then 4 else 0 }
      if r.dhcp = 1 then reflAddress s x 0 0 else reflPut s x
  | _ => s

/-- An ARP packet of a link-local address: a probe, whose sender address is 0, or an announcement. -/
def arpSend (s : State) (sender target : Nat) : State :=
  reflSend s (List.replicate 6 0xFF#8) 0x0806
    (beBytes 8 0x0001080006040001 ++ macAddr s 0 ++ beBytes 4 sender ++ zeros 6 ++ beBytes 4 target)

/-- A link-local address chosen afresh, to be probed (RFC 3927, 2.1). -/
def probeNew (s : State) (r : ReflSt) : ReflSt :=
  { r with probe := some ⟨0xA9FE0100 + reflFree s 0 % 65024, 0, elapsed s.time⟩ }

/-- The next ARP packet of a probe (RFC 3927): three probes 1 to 2 s apart, and 2 s after them the address
is taken and announced twice. -/
def probeStep (s : State) (r : ReflSt) (p : ArpProbe) : State :=
  let now := elapsed s.time
  let wait := if p.n < 2 then secNs + reflFree s 0 % secNs else 2 * secNs
  let next := some { p with n := p.n + 1, at_ := now + wait }
  if now < p.at_ then s
  else if p.n < 3 then arpSend (reflPut (reflDraw s) { r with probe := next }) 0 p.ip
  else if p.n = 3 then arpSend (reflAddress s { r with probe := next } p.ip 2) p.ip p.ip
  else arpSend (reflPut s { r with probe := none }) p.ip p.ip

/-- The timers of a lease: renewal from T1, rebinding from T2, and its end (RFC 2131, 4.4.5). -/
def leaseStep (s : State) (r : ReflSt) : State :=
  let c := r.client
  let now := elapsed s.time
  let phase := fun (a b : Nat) =>
    let sent := max r.sentAt (c.from_ + a * secNs)
    r.sentAt < c.from_ + a * secNs ∨ sent + max (60 * secNs) ((c.from_ + b * secNs - sent) / 2) ≤ now
  if c.len = 0xFFFFFFFF ∨ now < c.from_ + c.t1 * secNs then s
  else if c.from_ + c.len * secNs ≤ now then
    reflAddress s { r with client := DhcpClient.reset, tries := 0 } 0 0
  else if c.t2 ≤ (now - c.from_) / secNs then (if phase c.t2 c.len then dhcpRenew s r false else s)
  else if phase c.t1 c.t2 then dhcpRenew s r true else s

/-- The timers of the client: four DISCOVERs, then a link-local address, and DHCP again every 60 s (R508);
a REQUEST is sent four times. -/
def dhcpTimers (s : State) (r : ReflSt) : State :=
  let now := elapsed s.time
  match r.probe, r.client.asked with
  | some p, _ => probeStep s r p
  | none, some ip =>
    if now < r.sentAt + 2 ^ (r.client.sends + 1) * secNs then s
    else if r.client.sends < 4 then dhcpRequest s r r.client ip
    else reflPut s { r with client := DhcpClient.reset, tries := if r.dhcp = 2 then 4 else 0 }
  | none, none =>
    if r.dhcp = 1 then leaseStep s r
    else if now < r.sentAt + dhcpWait r * secNs then s
    else if r.dhcp = 0 ∧ r.tries = 4 then reflPut (reflDraw s) { probeNew s r with sentAt := now }
    else dhcpDiscover s r

/-- A step of the DHCP client: a reply at the head of MAC0's FIFO, or the passing of time.
DESIGN CHOICE, log entry 192. -/
def execReflectorDhcp (hear : Bool) (s : State) : Result :=
  .next (match s.dev.refl with
    | none => s
    | some r =>
      if hear then
        match reflTake s with
        | none => s
        | some (f, s1) =>
          match dhcpReply s r f with
          | none => s
          | some b => reflStats (dhcpHear s1 r (slice f.bytes 6 6) b) none
      else if (macGet s 0).link then reflStats (dhcpTimers s r) none
      else s)

/-! ## ARP, ICMP echo and TWAMP (R508, R510) -/

/-- Another station uses the link-local address that the device probes or has taken: a new one is probed
(RFC 3927, 2.2.1 and 2.5).
DESIGN CHOICE, log entry 192. -/
def arpConflict (s : State) (r : ReflSt) (f : List Byte) : Option State :=
  let other := beAt f 12 2 = 0x0806 ∧ 42 ≤ f.length ∧ slice f 22 6 ≠ macAddr s 0
  let sender := beAt f 28 4
  let wanted := fun (p : ArpProbe) => sender = p.ip ∨ (sender = 0 ∧ beAt f 38 4 = p.ip)
  match r.probe with
  | some p => if other ∧ p.n < 4 ∧ wanted p then some (reflPut (reflDraw s) (probeNew s r)) else none
  | none =>
    if other ∧ r.dhcp = 2 ∧ sender = r.ip then some (reflAddress (reflDraw s) { probeNew s r with tries := 4 } 0 0) else none

/-- The reply to an ARP request for the device's address.
DEDUCED, log entry 129. -/
def arpReply (s : State) (r : ReflSt) (f : List Byte) : Option State :=
  if beAt f 12 2 = 0x0806 ∧ beAt f 14 8 = 0x0001080006040001 ∧ beAt f 38 4 = r.ip ∧ r.ip ≠ 0 ∧ 42 ≤ f.length then
    some (reflSend s (slice f 22 6) 0x0806
      (beBytes 8 0x0001080006040002 ++ macAddr s 0 ++ beBytes 4 r.ip ++ slice f 22 10))
  else none

/-- The reply to an ICMP echo request. -/
def echoReply (s : State) (r : ReflSt) (f : List Byte) : Option State :=
  let ip := f.drop 14
  let total := beAt ip 2 2
  let icmp := (ip.take total).drop 20
  if beAt f 12 2 = 0x0800 ∧ byteAt ip 0 = 0x45 ∧ byteAt ip 9 = 1 ∧ inetSum (ip.take 20) = 0
      ∧ beAt ip 6 2 % 16384 = 0 ∧ total ≤ ip.length ∧ 8 ≤ icmp.length ∧ beAt ip 16 4 = r.ip
      ∧ beAt icmp 0 2 = 0x0800 ∧ inetSum icmp = 0 then
    let body := zeros 4 ++ icmp.drop 4
    some (reflSend s (slice f 6 6) 0x0800
      (ipPacket r.ip (beAt ip 12 4) 1 (putBytes body 2 (beBytes 2 (inetSum body)))))
  else none

/-- The reply to a TWAMP-light test packet (R510): the sender's sequence number is used
again, without session state, and the send timestamp comes as the frame crosses. -/
def twampReply (s : State) (f : RxFrame) (u : Udp) : List Byte :=
  let err := boolBit (s.time.mode == .locked) 15 + reflFree s 0 % 16384
  let head := slice u.body 0 4 ++ zeros 8 ++ beBytes 2 err ++ zeros 2 ++ ntpStamp f.ptp ++ slice u.body 0 4
    ++ slice u.body 4 8 ++ slice u.body 12 2 ++ zeros 2 ++ [f.bytes.getD 22 0]
  head ++ u.body.drop 41

/-! ## The PTP slave (R43, R509) -/

/-- A PTP timestamp of 10 bytes, in ns. -/
def ptpTime (b : List Byte) (o : Nat) : Int := (beAt b o 6 : Int) * 1000000000 + beAt b (o + 6) 4

/-- The correction field of a message, in ns: units of 2⁻¹⁶ ns, rounded down. -/
def ptpCorrection (b : List Byte) : Int := signed 64 (beAt b 8 8) / 65536

/-- The port identity of the slave: the EUI-64 made of MAC0's address, and port 1.
DESIGN CHOICE, log entry 177. -/
def ptpIdentity (s : State) : List Byte :=
  let a := macAddr s 0
  a.take 3 ++ [0xFF#8, 0xFE#8] ++ a.drop 3 ++ [0#8, 1#8]

/-- A Delay_Req to the master of domain `dom`: one-step, with originTimestamp zero (R43). -/
def delayReq (s : State) (dom seq : Nat) : List Byte :=
  [1#8, 2#8] ++ beBytes 2 44 ++ beBytes 1 dom ++ zeros 15 ++ ptpIdentity s ++ beBytes 2 seq ++ [1#8, 0x7F#8] ++ zeros 10

/-- A Sync complete, sent at `t1` and received at `t2`: the slave asks for the delay. -/
def ptpSynced (s : State) (r : ReflSt) (dom : Nat) (t1 t2 : Int) : State :=
  let seq := (r.ptp.req + 1) % 65536
  let s1 := reflPut s { r with ptp := { r.ptp with sync := none, pair := some (t1, t2), req := seq, sent := none } }
  reflSend s1 [0x01#8, 0x1B#8, 0x19#8, 0#8, 0#8, 0#8] 0x88F7 (delayReq s dom seq)

/-- TIME_STEP of `v` ns written, with STEP (R51). -/
def ptpStep (s : State) (v : Int) : State :=
  let w := (v % 18446744073709551616).toNat
  writeServo (csrPut (csrPut s offTimeStepLo (wordOf w)) offTimeStepHi (wordOf (w / 4294967296))) 0x100#32

/-- The servo at an offset from the master, in ns: LOCKING first; there it comes to LOCKED at an
instant of its own with a step, which NFN follows by slewing since RUN is 1 (R51, R57); in LOCKED
the phase follows.  The frequency it writes is free.
DESIGN CHOICE, log entry 177. -/
def ptpServo (s0 : State) (ofs : Int) : State :=
  let x := Config.ptpServo s0.free
  let s := writeFreq (reflDraw s0) (wordOf (x 0))
  match s.time.mode with
  | .freerun => modeCmd s 2
  | .holdover => modeCmd s 2
  | .locking => if x 1 = 0 then s else modeCmd (ptpStep s (-ofs)) 3
  | .locked => writePhaseAdj s (BitVec.ofInt 32 (clampInt (-2147483648) 2147483647 (-ofs)))

/-- The offset from the master out of the four times of R44. -/
def ptpOffset (t1 t2 t3 t4 : Int) : Int := ((t2 - t1) - (t4 - t3)) / 2

/-- Whether a data set comes before another. -/
def setBefore (a b : List Nat) : Bool :=
  match a, b with
  | x :: xs, y :: ys => decide (x < y) || (x == y && setBefore xs ys)
  | _, _ => false

/-- The data set of an Announce in the order in which G.8275.1 compares: clock class, accuracy, variance,
priority2, the grandmaster where its class is above 127, steps removed, and the sender.
PRESUMED, log entry 193. -/
def announceSet (b : List Byte) : List Nat :=
  [byteAt b 48, byteAt b 49, beAt b 50 2, byteAt b 52, if 127 < byteAt b 48 then beAt b 53 8 else 0,
   beAt b 61 2, beAt b 20 10]

/-- Another master, or none: the timebase holds over until one is acquired (R54). -/
def ptpMaster (s : State) (r : ReflSt) (src : List Byte) (set : List Nat) : State :=
  let p := { r.ptp with master := src, best := set, heard := elapsed s.time, sync := none, pair := none, sent := none }
  let s1 := reflPut s { r with ptp := p }
  if s.time.mode = .locked then modeCmd s1 4 else s1

/-- Time for which a master may send no Announce: three intervals of 1/8 s.
PRESUMED, log entry 193. -/
def announceNs : Nat := 375000000

/-- A master that has fallen silent. -/
def ptpSilent (s : State) (r : ReflSt) : Bool :=
  r.ptp.master != [] && decide (r.ptp.heard + announceNs < elapsed s.time)

/-- An Announce heard: the master's own, that of a better clock, or that of the first one. -/
def ptpAnnounce (s : State) (r : ReflSt) (src b : List Byte) : State :=
  let p := r.ptp
  if b.length < 64 ∨ 255 ≤ beAt b 61 2 then s
  else if src = p.master then reflPut s { r with ptp := { p with best := announceSet b, heard := elapsed s.time } }
  else if p.master = [] ∨ ptpSilent s r ∨ setBefore (announceSet b) p.best then ptpMaster s r src (announceSet b)
  else s

/-- A PTP message `b` of the default profile heard on MAC0 in frame `f`: Announce, Sync, Follow_Up
and Delay_Resp of domains 24 to 43 (R43).
DESIGN CHOICE, log entry 177. -/
def ptpHear (s : State) (r : ReflSt) (f : RxFrame) (b : List Byte) : State :=
  let src := slice b 20 10
  let seq := beAt b 30 2
  let dom := byteAt b 4
  let p := r.ptp
  if f.trunc ∨ b.length < 44 ∨ byteAt b 1 % 16 ≠ 2 ∨ dom < 24 ∨ 43 < dom then s
  else
    match byteAt b 0 % 16 with
    | 11 => ptpAnnounce s r src b
    | 0 =>
      if src ≠ p.master then s
      else if (byteAt b 6).testBit 1 then reflPut s { r with ptp := { p with sync := some (seq, f.ptp - ptpCorrection b) } }
      else ptpSynced s r dom (ptpTime b 34 + ptpCorrection b) f.ptp
    | 8 =>
      match p.sync with
      | none => s
      | some x =>
        if src = p.master ∧ seq = x.1 then ptpSynced s r dom (ptpTime b 34 + ptpCorrection b) x.2 else s
    | 9 =>
      match p.pair, p.sent with
      | some x, some t3 =>
        if src = p.master ∧ seq = p.req ∧ slice b 44 10 = ptpIdentity s then
          ptpServo (reflPut s { r with ptp := { p with pair := none, sent := none } })
            (ptpOffset x.1 x.2 t3 (ptpTime b 34 - ptpCorrection b))
        else s
      | _, _ => s
    | _ => s

/-- The frame at the head of MAC0's FIFO answered: PTP, TWAMP, ARP and ICMP echo; a frame for a
reflector port is left to `REFLECTOR_CHANNEL_OPEN`, one for the DHCP client to `REFLECTOR_DHCP`, and any
other is dropped.
DEDUCED, log entry 129. -/
def execTwampReflect (s : State) : Result :=
  .next (match s.dev.refl with
    | none => s
    | some r =>
      match reflTake s with
      | none => s
      | some (f, s1) =>
        if (dhcpReply s r f).isSome then s
        else if beAt f.bytes 12 2 = 0x88F7 then ptpHear s1 r f (f.bytes.drop 14)
        else
        match arpConflict s1 r f.bytes with
        | some s2 => reflStats s2 none
        | none =>
        match reflHears r f with
        | some u =>
          if u.dport = 862 then
            if u.body.length < 14 then s1
            else
              let s2 := reflUdp s1 (slice f.bytes 6 6) r.ip (beAt f.bytes 26 4) 862 u.sport (twampReply s f u)
              reflStats (reflPut (reflDraw s2) { r with twamp := r.twamp + 1 }) none
          else if 40000 ≤ u.dport ∧ u.dport ≤ 41000 then s
          else s1
        | none =>
          match arpReply s1 r f.bytes with
          | some s2 => s2
          | none => (echoReply s1 r f.bytes).getD s1)

/-! ## Channels (R511, R512) -/

/-- Bytes of RTP payload. -/
def rtpPayload (b : List Byte) : Nat :=
  let fixed := 12 + 4 * (byteAt b 0 % 16)
  let ext := if (byteAt b 0).testBit 4 then 4 + 4 * beAt b (fixed + 2) 2 else 0
  let pad := if (byteAt b 0).testBit 5 then byteAt b (b.length - 1) else 0
  b.length - fixed - ext - pad

/-- The codec and the blocks of a packet that a reflector channel takes. -/
def reflPacket (b : List Byte) : Option (Nat × Nat) :=
  let pt := byteAt b 1 % 128
  let n := rtpPayload b
  if byteAt b 0 / 64 = 2 ∧ rtpFits b ∧ (pt = 0 ∨ pt = 8) ∧ n % 40 = 0 ∧ 40 ≤ n ∧ n ≤ 320 then some (pt, n / 40) else none

/-- The RTP packet a channel sends, with its own SSRC and sequence numbers from 0: the speech coded again. -/
def reflRtp (c : ReflChan) : List Byte :=
  [0x80#8] ++ beBytes 1 c.codec ++ beBytes 2 c.tx ++ beBytes 4 (c.ts0 + 40 * c.blocks * c.tx)
    ++ beBytes 4 c.ssrc ++ c.fill

/-- The descriptor by which the standard templates play channel `n`: JINIT 4, JMAX 40, ADAPT, PLC,
drift correction, every tone detector, and an EC of 128 ms.
DESIGN CHOICE, log entry 177. -/
def reflDesc (n : Nat) (c : ReflChan) : Desc where
  ctl := 0x20#32
  media := wordOf (reflCodec c.codec * 0x11 + c.blocks * 0x1100 + 0x120000)
  ecrec := wordOf n
  keys := 0#32
  queues := wordOf n
  flows := 0#32
  rel := wordOf (0x7C0000 + n % 40)
  qlim := 64#32
  jit := 0x01042800#32
  proc := 4#32

/-- A command to the ECA on the record of channel `n`, of which no operand tells. -/
def reflEca (n code w2Hi w3 : Nat) : UnitCmd :=
  { w0 := cmdW0 code 0 n, w1 := 0xFFFFFFFF#32, w2 := wordOf (n + w2Hi * 0x10000), w3 := wordOf w3, ctx := 0, priv := true }

/-- A channel opened: its jitter queue, status and event queue, and the INIT of its canceller of 128 ms, in
BYPASS.
DESIGN CHOICE, log entry 177. -/
def reflOpen (s : State) (n : Nat) : State :=
  let s1 := queuePut s n { queueGet s n with en := true, limit := 64 }
  let s2 := memWrite (memWrite s1 (chanAddr s1 n + 0x40) (zeros 0x80)) (chanAddr s1 n + 0x30) (leBytes 4 0xFFFF)
  (ecaInit (mediaPut s2 n Media.reset) (reflEca n 2 0 0x181)).2.2

/-- A block through the canceller of channel `n`: the loop returns what is played, so the block is both the
reference and the return.
DESIGN CHOICE, log entry 177. -/
def reflCancel (s : State) (n number : Nat) (block : List Byte) : List Byte × State :=
  let a := chanAddr s n + 0x350
  let r := ecAddr s n
  let s1 := memPut (memWrite (memWrite s a block) (r + 0xE80) block) (r + 0xE74) 4 1
  let s2 := (ecaBlock s1 (reflEca n 1 (number % 65536) a)).2.2
  (memBytes s2 a 80, s2)

/-- The figures of RFC 3550 moved on by a packet: the sequence numbers and the interarrival jitter. -/
def reflFigures (s : State) (c : ReflChan) (b : List Byte) : ReflChan :=
  let d := signed 16 ((beAt b 2 2 + 65536 - c.seqTop % 65536) % 65536)
  let transit := ((nfnOf s : Int) - beAt b 4 4) % 4294967296
  let dev := match c.transit with
    | none => 0
    | some x => (signed 32 ((transit - x) % 4294967296).toNat).natAbs
  { c with
    rx := c.rx + 1
    seqTop := if 0 < d then c.seqTop + d.toNat else c.seqTop
    jitter := c.jitter + dev - (if c.transit.isSome then (c.jitter + 8) / 16 else 0)
    transit := some transit }

/-- An RTP packet at the head of MAC0's FIFO: queued for playout, where it opens a channel or is of
an open one (R511). -/
def reflAudio (s s1 : State) (r : ReflSt) (f : RxFrame) (u : Udp) (n : Nat) : State :=
  let mac := slice f.bytes 6 6
  let ip := beAt f.bytes 26 4
  let now := elapsed s.time
  let drop := reflStats (reflPut s1 { r with rtpDrop := r.rtpDrop + 1 }) none
  let take := fun (s2 : State) (c : ReflChan) =>
    let x := { reflFigures s2 c u.body with mac := mac, heard := now }
    let s3 := reflPut s2 { r with rtpRx := r.rtpRx + 1, chans := smapPut none r.chans n (some x) }
    reflStats ((pushBytes s3 n pktSrc f.ts 0 (pktPrefix 0 0 0 0 [] ++ u.body)).getD s3) (some n)
  match smapGet none r.chans n, reflPacket u.body with
  | none, some (pt, k) =>
    let seq := beAt u.body 2 2
    take (reflDraw (reflOpen s1 n))
      { mac := mac, ip := ip, port := u.sport, codec := pt, blocks := k, heard := now, told := now, rx := 0, tx := 0,
        ssrc := reflFree s 0 % 4294967296, ts0 := reflFree s 1 % 4294967296, fill := [], block := 0,
        play := Play.reset, src := beAt u.body 8 4, seq0 := seq, seqTop := seq, jitter := 0, transit := none,
        rtt := 0, rrtr := none }
  | some c, some (pt, k) => if c.ip = ip ∧ c.port = u.sport ∧ c.codec = pt ∧ c.blocks = k then take s1 c else drop
  | _, none => drop

/-- A period of channel `n` (R511): a block played out, through the canceller and the tone detectors, coded
again, and the packet sent when it is complete. -/
def reflPeriod (s : State) (r : ReflSt) (n : Nat) (c : ReflChan) : State :=
  let t : TaskEnv := ⟨0, n, reflDesc n c, layOf s n false⟩
  let x := playDir (mediaPut s n { mediaGet s n with rel := nfnOf s }) t true false c.play 1
  let e := reflCancel (putStatus x.s t x.p) n c.block (padTo 80 x.out)
  let s1 := runDetectors e.2 0 n t.d.rel e.1
  let c1 := { c with
    play := x.p
    block := c.block + 1
    fill := c.fill ++ (pcmOf e.1).map (g711Encode (c.codec == 0)) }
  if c1.fill.length < 40 * c.blocks then reflPut s1 { r with chans := smapPut none r.chans n (some c1) }
  else
    let s2 := reflUdp s1 c.mac r.ip c.ip (40000 + n) c.port (reflRtp c1)
    reflStats (reflPut s2 { r with
      rtpTx := r.rtpTx + 1
      chans := smapPut none r.chans n (some { c1 with fill := [], tx := c.tx + 1 }) }) (some n)

/-- The releases of the open channels at a tick, channel n at phase n mod 40, and a master fallen silent.
DESIGN CHOICE, log entry 177. -/
def reflReleases (s0 : State) : State :=
  match s0.dev.refl with
  | none => s0
  | some r0 =>
    let s := if ptpSilent s0 r0 then ptpMaster s0 r0 [] [] else s0
    r0.chans.foldl (fun a x =>
      match a.dev.refl, x.2 with
      | some r, some c => if x.1 % 40 = nfnOf a % 40 ∧ a.dev.run then reflPeriod a r x.1 c else a
      | _, _ => a) s

/-- Whether a packet is RTCP of an open channel whose port is one below (R512). -/
def reflRtcpIn (r : ReflSt) (u : Udp) : Bool :=
  decide (200 ≤ byteAt u.body 1) && decide (byteAt u.body 1 ≤ 207) && decide (40001 ≤ u.dport)
    && (smapGet none r.chans (u.dport - 40001)).isSome

/-- The middle 32 bits of an NTP timestamp of a PTP time in ns. -/
def ntpMid (ns : Int) : Nat := beAt (ntpStamp ns) 2 4

/-- The round trip that a report block on the device's own stream gives, in ms (RFC 3550, 6.4.1). -/
def reportRtt (c : ReflChan) (now : Int) (b : List Byte) : Option Nat :=
  if beAt b 0 4 = c.ssrc ∧ beAt b 16 4 ≠ 0 then
    let a := (ntpMid now + 2 * 4294967296 - beAt b 16 4 - beAt b 20 4) % 4294967296
    some (if 2147483648 ≤ a then 0 else a * 1000 / 65536)
  else none

/-- The first round trip that the report blocks of a packet give. -/
def firstRtt (c : ReflChan) (now : Int) (n : Nat) (b : List Byte) : Option Nat :=
  match n with
  | 0 => none
  | n + 1 => match reportRtt c now b with
    | some x => some x
    | none => firstRtt c now n (b.drop 24)

/-- A receiver reference time among the blocks of an extended report (RFC 3611, 4.4). -/
def referenceTime (fuel : Nat) (b : List Byte) : Option Nat :=
  match fuel with
  | 0 => none
  | fuel + 1 =>
    if b.length < 4 then none
    else if byteAt b 0 = 4 ∧ 12 ≤ b.length then some (beAt b 6 4)
    else referenceTime fuel (b.drop (4 + 4 * beAt b 2 2))

/-- The packets of a compound RTCP packet taken into a channel's figures (R512). -/
def rtcpWalk (fuel : Nat) (now : Int) (c : ReflChan) (b : List Byte) : ReflChan :=
  match fuel with
  | 0 => c
  | fuel + 1 =>
    if b.length < 8 ∨ byteAt b 0 / 64 ≠ 2 then c
    else
      let one := b.take (4 + 4 * beAt b 2 2)
      let reports := if byteAt b 1 = 200 then one.drop 28 else one.drop 8
      let c1 :=
        if byteAt b 1 = 200 ∨ byteAt b 1 = 201 then
          { c with rtt := (firstRtt c now (min (byteAt b 0 % 32) (reports.length / 24)) reports).getD c.rtt }
        else if byteAt b 1 = 207 then
          match referenceTime one.length (one.drop 8) with
          | some x => { c with rrtr := some (x, now) }
          | none => c
        else c
      rtcpWalk fuel now c1 (b.drop (4 + 4 * beAt b 2 2))

/-- RTCP of an open channel. -/
def reflReport (s : State) (r : ReflSt) (f : RxFrame) (u : Udp) (n : Nat) : State :=
  match smapGet none r.chans n with
  | none => s
  | some c =>
    reflStats (reflPut s { r with chans := smapPut none r.chans n (some (rtcpWalk u.body.length f.ptp c u.body)) }) (some n)

def execReflectorChannelOpen (s : State) : Result :=
  .next (match s.dev.refl with
    | none => s
    | some r =>
      match reflTake s with
      | none => s
      | some (f, s1) =>
        match reflHears r f with
        | none => s
        | some u =>
          if u.dport < 40000 ∨ 41000 < u.dport then s
          else if reflRtcpIn r u then reflReport s1 r f u (u.dport - 40001)
          else if u.dport = 41000 then s1
          else reflAudio s s1 r f u (u.dport - 40000))

def execReflectorChannelClose (c : Nat) (s : State) : Result :=
  .next (match s.dev.refl with
    | none => s
    | some r =>
      match smapGet none r.chans c with
      | none => s
      | some x =>
        if x.heard + 10 * secNs ≤ elapsed s.time then reflClose s c else s)

/-- A count as a fraction of another in units of 1/256, as reports give it. -/
def share256 (a b : Nat) : Nat := min 255 (256 * a / max 1 b)

/-- The VoIP Metrics block of a channel (RFC 3611, 4.7): loss, discard, round trip, end-system delay and the
jitter buffer's figures are the channel's own; those that R512 does not name are free.
DESIGN CHOICE, log entry 28. -/
def voipMetrics (s : State) (n : Nat) (c : ReflChan) : List Byte :=
  let all := c.seqTop + 1 - c.seq0
  let free := fun (k i : Nat) => padTo k ((Config.reflLine s.free).drop i)
  let depth := 5 * c.play.depth
  [7#8, 0#8] ++ beBytes 2 8 ++ beBytes 4 c.src ++ beBytes 1 (share256 (reflLost c) all)
    ++ beBytes 1 (share256 (statGet s n 0x48 4) all) ++ free 6 0 ++ beBytes 2 (min 65535 c.rtt)
    ++ beBytes 2 (depth + 5 * c.blocks) ++ free 10 6 ++ beBytes 2 depth ++ beBytes 2 200 ++ beBytes 2 200

/-- The compound packet of R512: a sender report, then an extended report with a DLRR and a
VoIP Metrics block (RFC 3550, RFC 3611). -/
def reflRtcp (s : State) (n : Nat) (c : ReflChan) : List Byte :=
  let ssrc := beBytes 4 c.ssrc
  let sr := [0x80#8, 200#8] ++ beBytes 2 6 ++ ssrc ++ ntpStamp (ptpNs s.time) ++ beBytes 4 (c.ts0 + 40 * c.blocks * c.tx)
    ++ beBytes 4 c.tx ++ beBytes 4 (c.tx * c.blocks * 40)
  let last := match c.rrtr with
    | none => zeros 8
    | some x => beBytes 4 x.1 ++ beBytes 4 ((ptpNs s.time - x.2) * 65536 / 1000000000).toNat
  let dlrr := [5#8, 0#8] ++ beBytes 2 3 ++ beBytes 4 c.src ++ last
  sr ++ [0x80#8, 207#8] ++ beBytes 2 14 ++ ssrc ++ dlrr ++ voipMetrics s n c

def execReflectorRtcp (c : Nat) (s : State) : Result :=
  .next (match s.dev.refl with
    | none => s
    | some r =>
      match smapGet none r.chans c with
      | none => s
      | some x =>
        if x.told + 5 * secNs ≤ elapsed s.time then
          let s1 := reflUdp s x.mac r.ip x.ip (40001 + c) (x.port + 1) (reflRtcp s c x)
          reflStats (reflPut (reflDraw s1)
            { r with chans := smapPut none r.chans c (some { x with told := elapsed s.time }) }) (some c)
        else s)

/-- A status line every 10 s on the craft console, while the craft port is configured. -/
def execReflectorStatusLine (s : State) : Result :=
  .next (match s.dev.refl with
    | none => s
    | some r =>
      if r.lineAt + 10 * secNs ≤ elapsed s.time then
        let s1 := reflStats (reflPut s { r with lineAt := elapsed s.time }) none
        if s1.usb.configured then
          reflDraw { s1 with usb := { s1.usb with console := s1.usb.console ++ Config.reflLine s1.free } }
        else s1
      else s)

end Sys2Proof.Machine
end

