-- ==== Sys2Proof/Machine/Clock.lean ====
section
/-! DEFINITION. The tick boundary and its consumers (R56, R60, R65, R162, R176, R314), idling,
and device reset (R498, R533). -/

namespace Sys2Proof.Machine

/-! ## What a tick does -/

/-- The second marker in every enabled event queue (R60, R301). -/
def secondMarkers (s : State) : State :=
  if nfnOf s % 8000 = 0 then
    let t := s.time
    let flags := modeCode t.mode + boolBit (ofsNow t == 0) 2 + boolBit t.fallback 3
    let rec_ := eventRecord s 0x02 1 0xFFFF flags
      (leBytes 8 (nfnOf s) ++ leBytes 8 (BitVec.ofInt 64 (ofsNs t)).toNat)
    let qs := (s.qmgr.queue.filter fun kq => kq.2.en && kq.2.event).map fun kq => kq.1
    clearingCheck (qs.foldl (fun a q => placeEvent a q 0x02 rec_) s)
  else s

/-- A cleared RUN falls at the tick boundary (R505).
DEDUCED, log entry 124. -/
def runFalls (s : State) : State :=
  if s.dev.clear then runDecision (devPut s { s.dev with run := false, clear := false }) 0 else s

/-- The deadlock detector at a tick boundary: a changed set B begins a new T (R176).
DEDUCED, log entry 37. -/
def judgeBlocked (s : State) : State :=
  let b := blockedSet s
  if s.disp.dlkDirty || b != s.disp.blocked then
    { s with disp := { s.disp with blocked := b, dlkDirty := false, dlk := false, dlkT := s.time.ticks } }
  else s

/-- Whether a channel's release is delivered in the unit's role (R455). -/
def roleReleases (s : State) (n : Nat) : Bool := ! mirrGates s || bitOf (chanStat s n) 9

/-- The release of channel `n` (R162). -/
def releaseChan (s : State) (n : Nat) (r : Rel) : State :=
  if r.en && r.phase == nfnOf s % 40 && roleReleases s n then
    let x := releaseOperand s .release n r.tmpl r.slot 0 r.tmpl
    if x.2 then bump x.1 offDispRels else x.1
  else s

/-- The releases of a tick, in rising channel order (R162).
DESIGN CHOICE, log entry 8. -/
def releases (s : State) : State :=
  if s.dev.run then s.disp.rel.foldl (fun a nr => releaseChan a nr.1 nr.2) s else s

/-- Held departures judged afresh after a jump of the NFN (R314).
DEDUCED, log entry 59. -/
def jumpCheck (s : State) : State :=
  let jumped := nfnOf s != (s.pkt.seen + 1) % 18446744073709551616
  let s1 := { s with pkt := { s.pkt with seen := nfnOf s } }
  if jumped then rejudgeAll s1 else s1

/-- The statistics of reflector mode, once a second (R513). -/
def reflSecond (s : State) : State :=
  match s.dev.refl with
  | none => s
  | some r =>
    if s.time.ticks % 8000 = 0 then r.chans.foldl (fun a c => reflStats a (some c.1)) (reflStats s none) else s

/-- DISP_BPCYC over so many fabric cycles. -/
def pressedCycles (s : State) (n : Nat) : State := if bpLevel s = 0 then s else cntAdd s offDispBpcyc n

/-- What waits and has no command of its own, tried again: the Boot ROM's wait for contexts to stop
(R115), then what is held under back-pressure: storage completions, and doorbells (R173, R425, R484).
DESIGN CHOICE, log entry 31. -/
def offerAgain (s : State) : State :=
  let s1 := bootAgain s
  doorbellRetry (nandRetry s1.nand.done.length s1)

/-- A tick boundary: what is held is offered in the cycles before it, then NFN moves by one and
the block does what it does at the boundary without a command of its own.
DESIGN CHOICE, log entries 6, 8. -/
def tick (s : State) : State :=
  let s1 := timeTick (offerAgain (pressedCycles s (boundaryAt s.time - s.time.fab)))
  let s2 := secondMarkers (runFalls s1)
  let s3 := releases (judgeBlocked s2)
  reflSecond (reflReleases (jumpCheck s3))

/-- A tick; time stands still while RESET_N is low, whose length comes with DEVICE_RESET (R533).
DESIGN CHOICE, log entry 138. -/
def execTick (s : State) : Result := .next (if s.dev.held then s else tick s)

/-- One fabric cycle without a command; a tick boundary comes only with TICK.
DESIGN CHOICE, log entries 6, 31. -/
def idle (s : State) : State :=
  if s.dev.held ∨ tickReached s.time (s.time.fab + 1) then s
  else offerAgain (timePut (pressedCycles s 1) { s.time with fab := s.time.fab + 1 })

/-! ## Device reset -/

/-- The meter across a device reset of `ns`: only what the main die kept of it is new (R380, R533).
DEDUCED, log entry 60. -/
def meterKept (s : State) (ns : Nat) : MeterSt :=
  let m := clockUp s.meter (elapsed s.time + ns)
  { m with at_ := 0, toldAt := 0, present := false, told := MeterTold.reset, lowTold := false, lostTold := 0 }

/-- An output's times as they read after a device reset, `d` ns later on a count that begins anew. -/
def outShift (d : Int) (o : OutSt) : OutSt :=
  { o with limitAt := o.limitAt.map (· - d), openAt := o.openAt.map (· - d), retryAt := o.retryAt.map (· - d) }

/-- The island across a device reset of `ns`, whose link is silent for as long, and longer where it was
already (R533, R541). -/
def islandKept (s : State) (ns : Nat) : HvsSt :=
  let d : Int := elapsed s.time + ns
  let from_ : Int := (if islandOn s then (elapsed s.time : Int) else s.hvs.frameAt) - d
  let h0 := s.hvs
  let h := if h0.power ∧ bitOf (csrGet s offHvsCtl) 31 ∧ from_ + 1000000000 ≤ 0 then lossCrit d h0 else h0
  { h with frameAt := from_, out := h.out.map fun x => (x.1, outShift d x.2) }

/-- The module as a device reset whose pulse lasted `ns` leaves it: the whole main die is new, but
not the meter, the contacts, the flash and the fuses.
DEDUCED, log entry 60. -/
def resetState (s : State) (ns : Nat) : State :=
  let f := flashReset s
  { State.reset with
    pending := s.pending
    variantH := s.variantH
    free := f.free
    time := { TimeSt.reset with c10Edge := s.time.c10Edge, c10Err := s.time.c10Err }
    cruc := { CrucSt.reset with parts := s.cruc.parts }
    meter := meterKept s ns
    nand := f.nand
    hvs := islandKept s ns
    usb := { UsbSt.reset with vbus := s.usb.vbus }
    dev := { DevSt.reset with otpKey := s.dev.otpKey, otpRevoked := s.dev.otpRevoked, otpMin := s.dev.otpMin } }

/-- A device reset whose pulse lasted `ns`, with the state-change event of a timebase that leaves
another state than FREERUN (R52, R66).
DEDUCED, log entry 46. -/
def deviceReset (s : State) (ns : Nat) : State :=
  let t := resetState s ns
  if s.time.mode = .freerun then t
  else raise0 t 0x02 2 0 (leBytes 1 (modeCode s.time.mode) ++ leBytes 1 2)

/-- A low pulse of `ns` on RESET_N (R533).
DESIGN CHOICE, log entry 138. -/
def execDeviceReset (ns : Nat) (s : State) : Result :=
  if ns < 1000 then .next s
  else if ns < 10000 then .fault .undefinedResetPulse
  else .next (deviceReset s ns)

/-- RESET_N rises with the straps as given (R497, R498).
DESIGN CHOICE, log entry 138; DEDUCED, log entry 147. -/
def execResetRelease (mode : BitVec 2) (pairId : Bool) (s : State) : Result :=
  .next (if s.dev.held then
    romStart { s with
      dev := { s.dev with held := false, mode := mode.toNat, pairId := pairId, bootRom := true }
      assay := { s.assay with busy := true } }
  else s)

end Sys2Proof.Machine
end

