-- ==== Sys2Proof/Machine/Dispatch.lean ====
section
/-! DEFINITION. What each command does: one arm for each row of the table. -/

namespace Sys2Proof.Machine

/-- The effect of a command on everything but the queue of commands that wait. -/
def exec (i : Instr) (s : State) : Host.Outcome State Fault Refusal :=
  match i with
  | .registerWrite host o v => Sys2Proof.Machine.execRegisterWrite host o v s
  | .rcRegisterRead a => Sys2Proof.Machine.execRcRegisterRead a s
  | .counterLoRead a => Sys2Proof.Machine.execCounterLoRead a s
  | .deviceReset ns => Sys2Proof.Machine.execDeviceReset ns s
  | .resetRelease mode pairId => Sys2Proof.Machine.execResetRelease mode pairId s
  | .tick => Sys2Proof.Machine.execTick s
  | .timeFreqWrite v => Sys2Proof.Machine.execTimeFreqWrite v s
  | .timePhaseAdjWrite v => Sys2Proof.Machine.execTimePhaseAdjWrite v s
  | .phaseClr => Sys2Proof.Machine.execPhaseClr s
  | .step => Sys2Proof.Machine.execStep s
  | .modeCmdFreerun => Sys2Proof.Machine.execModeCmdFreerun s
  | .modeCmdLocking => Sys2Proof.Machine.execModeCmdLocking s
  | .modeCmdLocked => Sys2Proof.Machine.execModeCmdLocked s
  | .modeCmdHoldover => Sys2Proof.Machine.execModeCmdHoldover s
  | .watchdogExpiry => Sys2Proof.Machine.execWatchdogExpiry s
  | .phaseSlewEnd => Sys2Proof.Machine.execPhaseSlewEnd s
  | .nfnAlignmentChange => Sys2Proof.Machine.execNfnAlignmentChange s
  | .fsrcWrite v => Sys2Proof.Machine.execFsrcWrite v s
  | .clk10Fallback => Sys2Proof.Machine.execClk10Fallback s
  | .clk10Restore => Sys2Proof.Machine.execClk10Restore s
  | .timeNfnLoRead => Sys2Proof.Machine.execTimeNfnLoRead s
  | .tsInCapture pin rising width => Sys2Proof.Machine.execTsInCapture pin rising width s
  | .ppsRise => Sys2Proof.Machine.execPpsRise s
  | .ppsFall => Sys2Proof.Machine.execPpsFall s
  | .add e rd rs rt => Sys2Proof.Machine.execAdd e rd rs rt s
  | .adds e rd rs rt => Sys2Proof.Machine.execAdds e rd rs rt s
  | .sub e rd rs rt => Sys2Proof.Machine.execSub e rd rs rt s
  | .subs e rd rs rt => Sys2Proof.Machine.execSubs e rd rs rt s
  | .cmp e rs rt => Sys2Proof.Machine.execCmp e rs rt s
  | .and e rd rs rt => Sys2Proof.Machine.execAnd e rd rs rt s
  | .or e rd rs rt => Sys2Proof.Machine.execOr e rd rs rt s
  | .xor e rd rs rt => Sys2Proof.Machine.execXor e rd rs rt s
  | .andn e rd rs rt => Sys2Proof.Machine.execAndn e rd rs rt s
  | .tst e rs rt => Sys2Proof.Machine.execTst e rs rt s
  | .shl e rd rs rt => Sys2Proof.Machine.execShl e rd rs rt s
  | .shr e rd rs rt => Sys2Proof.Machine.execShr e rd rs rt s
  | .sar e rd rs rt => Sys2Proof.Machine.execSar e rd rs rt s
  | .min e rd rs rt => Sys2Proof.Machine.execMin e rd rs rt s
  | .max e rd rs rt => Sys2Proof.Machine.execMax e rd rs rt s
  | .neg e rd rs => Sys2Proof.Machine.execNeg e rd rs s
  | .abs e rd rs => Sys2Proof.Machine.execAbs e rd rs s
  | .clz e rd rs => Sys2Proof.Machine.execClz e rd rs s
  | .mul e rd rs rt => Sys2Proof.Machine.execMul e rd rs rt s
  | .sexh e rd rs => Sys2Proof.Machine.execSexh e rd rs s
  | .addi e rd rs imm => Sys2Proof.Machine.execAddi e rd rs imm s
  | .andi e rd rs imm => Sys2Proof.Machine.execAndi e rd rs imm s
  | .ori e rd rs imm => Sys2Proof.Machine.execOri e rd rs imm s
  | .xori e rd rs imm => Sys2Proof.Machine.execXori e rd rs imm s
  | .cmpi e rs imm => Sys2Proof.Machine.execCmpi e rs imm s
  | .shli e rd rs sh => Sys2Proof.Machine.execShli e rd rs sh s
  | .shri e rd rs sh => Sys2Proof.Machine.execShri e rd rs sh s
  | .sari e rd rs sh => Sys2Proof.Machine.execSari e rd rs sh s
  | .movi e rd cl imm => Sys2Proof.Machine.execMovi e rd cl imm s
  | .movhi e rd cl imm => Sys2Proof.Machine.execMovhi e rd cl imm s
  | .mov e rd dcl rs scl => Sys2Proof.Machine.execMov e rd dcl rs scl s
  | .movh e rd as_ rnd => Sys2Proof.Machine.execMovh e rd as_ rnd s
  | .movw e rd as_ => Sys2Proof.Machine.execMovw e rd as_ s
  | .movx e rd as_ => Sys2Proof.Machine.execMovx e rd as_ s
  | .adda e ad as_ => Sys2Proof.Machine.execAdda e ad as_ s
  | .suba e ad as_ => Sys2Proof.Machine.execSuba e ad as_ s
  | .ash e ad as_ sh => Sys2Proof.Machine.execAsh e ad as_ sh s
  | .aneg e ad as_ => Sys2Proof.Machine.execAneg e ad as_ s
  | .mac e ad gs gt hs ht x y => Sys2Proof.Machine.execMac e ad gs gt hs ht x y s
  | .msu e ad gs gt hs ht x y => Sys2Proof.Machine.execMsu e ad gs gt hs ht x y s
  | .mpy e ad gs gt hs ht x y => Sys2Proof.Machine.execMpy e ad gs gt hs ht x y s
  | .aclr e ad x y => Sys2Proof.Machine.execAclr e ad x y s
  | .fet e x y => Sys2Proof.Machine.execFet e x y s
  | .ldh e rd pn md ofs => Sys2Proof.Machine.execLdh e rd pn md ofs s
  | .ldhu e rd pn md ofs => Sys2Proof.Machine.execLdhu e rd pn md ofs s
  | .ldw e rd cl pn md ofs => Sys2Proof.Machine.execLdw e rd cl pn md ofs s
  | .lda e rd pn md ofs => Sys2Proof.Machine.execLda e rd pn md ofs s
  | .sth e rs cl rnd pn md ofs => Sys2Proof.Machine.execSth e rs cl rnd pn md ofs s
  | .stw e rs cl pn md ofs => Sys2Proof.Machine.execStw e rs cl pn md ofs s
  | .sta e rs pn md ofs => Sys2Proof.Machine.execSta e rs pn md ofs s
  | .aadd e rd rs pn => Sys2Proof.Machine.execAadd e rd rs pn s
  | .acas e rd rs pn => Sys2Proof.Machine.execAcas e rd rs pn s
  | .b e cond an ofs => Sys2Proof.Machine.execB e cond an ofs s
  | .call e an ofs => Sys2Proof.Machine.execCall e an ofs s
  | .jr e cond an rs => Sys2Proof.Machine.execJr e cond an rs s
  | .ret e an => Sys2Proof.Machine.execRet e an s
  | .callr e an rs => Sys2Proof.Machine.execCallr e an rs s
  | .loopImmediate e count body => Sys2Proof.Machine.execLoopImmediate e count body s
  | .loopRegister e rs body => Sys2Proof.Machine.execLoopRegister e rs body s
  | .nop e => Sys2Proof.Machine.execNop e s
  | .fence e => Sys2Proof.Machine.execFence e s
  | .hold e => Sys2Proof.Machine.execHold e s
  | .unhold e => Sys2Proof.Machine.execUnhold e s
  | .yield e => Sys2Proof.Machine.execYield e s
  | .rte e => Sys2Proof.Machine.execRte e s
  | .trap e n => Sys2Proof.Machine.execTrap e n s
  | .take e mask => Sys2Proof.Machine.execTake e mask s
  | .done e => Sys2Proof.Machine.execDone e s
  | .doneDeliver e gt gv => Sys2Proof.Machine.execDoneDeliver e gt gv s
  | .signal e gt gv => Sys2Proof.Machine.execSignal e gt gv s
  | .waitevt e tmo => Sys2Proof.Machine.execWaitevt e tmo s
  | .cpx e unit ga => Sys2Proof.Machine.execCpx e unit ga s
  | .mfc e rg cl rn cx => Sys2Proof.Machine.execMfc e rg cl rn cx s
  | .mtc e rg cl rn cx => Sys2Proof.Machine.execMtc e rg cl rn cx s
  | .undefinedInstruction e w => Sys2Proof.Machine.execUndefinedInstruction e w s
  | .farLoadReturn k => Sys2Proof.Machine.execFarLoadReturn k s
  | .farStorePerformed k => Sys2Proof.Machine.execFarStorePerformed k s
  | .fenceComplete e c => Sys2Proof.Machine.execFenceComplete e c s
  | .contextSwitch e => Sys2Proof.Machine.execContextSwitch e s
  | .holdTimeout e => Sys2Proof.Machine.execHoldTimeout e s
  | .contextStart e c => Sys2Proof.Machine.execContextStart e c s
  | .contextStop e c => Sys2Proof.Machine.execContextStop e c s
  | .pcWrite e c v => Sys2Proof.Machine.execPcWrite e c v s
  | .loadUnitGo g v => Sys2Proof.Machine.execLoadUnitGo g v s
  | .loadUnitDone g => Sys2Proof.Machine.execLoadUnitDone g s
  | .tmplInstall => Sys2Proof.Machine.execTmplInstall s
  | .tmplRead => Sys2Proof.Machine.execTmplRead s
  | .tmplRemove => Sys2Proof.Machine.execTmplRemove s
  | .operandPlace k => Sys2Proof.Machine.execOperandPlace k s
  | .instanceList entry => Sys2Proof.Machine.execInstanceList entry s
  | .taskHand => Sys2Proof.Machine.execTaskHand s
  | .doneComplete k => Sys2Proof.Machine.execDoneComplete k s
  | .timerFire t => Sys2Proof.Machine.execTimerFire t s
  | .waitevtWake k => Sys2Proof.Machine.execWaitevtWake k s
  | .waitevtTimeout k => Sys2Proof.Machine.execWaitevtTimeout k s
  | .taskFree w => Sys2Proof.Machine.execTaskFree w s
  | .channelPurge n => Sys2Proof.Machine.execChannelPurge n s
  | .deadlockDetect => Sys2Proof.Machine.execDeadlockDetect s
  | .matchingStoreError entry => Sys2Proof.Machine.execMatchingStoreError entry s
  | .ecaBlock => Sys2Proof.Machine.execEcaBlock s
  | .ecaInit => Sys2Proof.Machine.execEcaInit s
  | .ecaSave => Sys2Proof.Machine.execEcaSave s
  | .ecaRestore => Sys2Proof.Machine.execEcaRestore s
  | .ecaReset => Sys2Proof.Machine.execEcaReset s
  | .ecaSetcfg => Sys2Proof.Machine.execEcaSetcfg s
  | .ecaCompletionDeliver j => Sys2Proof.Machine.execEcaCompletionDeliver j s
  | .rsfRun => Sys2Proof.Machine.execRsfRun s
  | .rsfInit => Sys2Proof.Machine.execRsfInit s
  | .rsfLoadbank => Sys2Proof.Machine.execRsfLoadbank s
  | .rsfSetdelay => Sys2Proof.Machine.execRsfSetdelay s
  | .rsfSetratio => Sys2Proof.Machine.execRsfSetratio s
  | .rsfSave => Sys2Proof.Machine.execRsfSave s
  | .rsfRestore => Sys2Proof.Machine.execRsfRestore s
  | .rsfCompletionDeliver j => Sys2Proof.Machine.execRsfCompletionDeliver j s
  | .channelEnableWrite n v => Sys2Proof.Machine.execChannelEnableWrite n v s
  | .consistencyCheck => Sys2Proof.Machine.execConsistencyCheck s
  | .channelCloseWrite n v => Sys2Proof.Machine.execChannelCloseWrite n v s
  | .hwlCellWrite v => Sys2Proof.Machine.execHwlCellWrite v s
  | .queuePop p => Sys2Proof.Machine.execQueuePop p s
  | .cellAlloc p => Sys2Proof.Machine.execCellAlloc p s
  | .cellFree p w => Sys2Proof.Machine.execCellFree p w s
  | .queuePush p w => Sys2Proof.Machine.execQueuePush p w s
  | .queueConfigWrite v => Sys2Proof.Machine.execQueueConfigWrite v s
  | .noticeDeliver q => Sys2Proof.Machine.execNoticeDeliver q s
  | .queueDescError q => Sys2Proof.Machine.execQueueDescError q s
  | .pktReceive n => Sys2Proof.Machine.execPktReceive n s
  | .pktTxTake => Sys2Proof.Machine.execPktTxTake s
  | .pktDeparture => Sys2Proof.Machine.execPktDeparture s
  | .cesPacketBuild p => Sys2Proof.Machine.execCesPacketBuild p s
  | .bundleDeparture b => Sys2Proof.Machine.execBundleDeparture b s
  | .flowWrite => Sys2Proof.Machine.execFlowWrite s
  | .flowRead => Sys2Proof.Machine.execFlowRead s
  | .flowInvalidate => Sys2Proof.Machine.execFlowInvalidate s
  | .templateWrite => Sys2Proof.Machine.execTemplateWrite s
  | .templateRead => Sys2Proof.Machine.execTemplateRead s
  | .flowTableError tmpl j => Sys2Proof.Machine.execFlowTableError tmpl j s
  | .macEnable n v => Sys2Proof.Machine.execMacEnable n v s
  | .macDisable n v => Sys2Proof.Machine.execMacDisable n v s
  | .linkUp n => Sys2Proof.Machine.execLinkUp n s
  | .linkDown n lost loc rem => Sys2Proof.Machine.execLinkDown n lost loc rem s
  | .macFrameReceive n kind sym corr unc f => Sys2Proof.Machine.execMacFrameReceive n kind sym corr unc f s
  | .pfcPauseExpire n p => Sys2Proof.Machine.execPfcPauseExpire n p s
  | .pfcHoldDiscard n => Sys2Proof.Machine.execPfcHoldDiscard n s
  | .pfcXoff n => Sys2Proof.Machine.execPfcXoff n s
  | .pfcRepeat n => Sys2Proof.Machine.execPfcRepeat n s
  | .pfcXon n => Sys2Proof.Machine.execPfcXon n s
  | .macFrameTransmit n part => Sys2Proof.Machine.execMacFrameTransmit n part s
  | .preemptVerify n => Sys2Proof.Machine.execPreemptVerify n s
  | .macCounterRead n c => Sys2Proof.Machine.execMacCounterRead n c s
  | .macUngate n => Sys2Proof.Machine.execMacUngate n s
  | .ciphProtect par => Sys2Proof.Machine.execCiphProtect par s
  | .ciphProtectRtcp par => Sys2Proof.Machine.execCiphProtectRtcp par s
  | .ciphUnprotect par => Sys2Proof.Machine.execCiphUnprotect par s
  | .ciphUnprotectRtcp par => Sys2Proof.Machine.execCiphUnprotectRtcp par s
  | .ciphImport => Sys2Proof.Machine.execCiphImport s
  | .ciphErase => Sys2Proof.Machine.execCiphErase s
  | .ciphRetire => Sys2Proof.Machine.execCiphRetire s
  | .ciphImpImport => Sys2Proof.Machine.execCiphImpImport s
  | .ciphImpErase => Sys2Proof.Machine.execCiphImpErase s
  | .ciphImpRetire => Sys2Proof.Machine.execCiphImpRetire s
  | .ciphRxUnprotect par => Sys2Proof.Machine.execCiphRxUnprotect par s
  | .kekDerive => Sys2Proof.Machine.execKekDerive s
  | .kekDeriveDone => Sys2Proof.Machine.execKekDeriveDone s
  | .ciphCompletionDeliver j => Sys2Proof.Machine.execCiphCompletionDeliver j s
  | .crucCompress => Sys2Proof.Machine.execCrucCompress s
  | .crucDecompress => Sys2Proof.Machine.execCrucDecompress s
  | .crucInit => Sys2Proof.Machine.execCrucInit s
  | .crucSave => Sys2Proof.Machine.execCrucSave s
  | .crucRestore => Sys2Proof.Machine.execCrucRestore s
  | .crucHostGo => Sys2Proof.Machine.execCrucHostGo s
  | .crucCompletionDeliver j => Sys2Proof.Machine.execCrucCompletionDeliver j s
  | .meterCmdGo => Sys2Proof.Machine.execMeterCmdGo s
  | .callStart => Sys2Proof.Machine.execCallStart s
  | .callEnd => Sys2Proof.Machine.execCallEnd s
  | .callAdopt => Sys2Proof.Machine.execCallAdopt s
  | .param => Sys2Proof.Machine.execParam s
  | .commit => Sys2Proof.Machine.execCommit s
  | .discard => Sys2Proof.Machine.execDiscard s
  | .release => Sys2Proof.Machine.execRelease s
  | .flush => Sys2Proof.Machine.execFlush s
  | .selftest failed => Sys2Proof.Machine.execSelftest failed s
  | .meterStatusRefresh => Sys2Proof.Machine.execMeterStatusRefresh s
  | .meterLinkSilent => Sys2Proof.Machine.execMeterLinkSilent s
  | .meterTick n skew => Sys2Proof.Machine.execMeterTick n skew s
  | .meterNoref => Sys2Proof.Machine.execMeterNoref s
  | .meterPartial n => Sys2Proof.Machine.execMeterPartial n s
  | .meterHandover => Sys2Proof.Machine.execMeterHandover s
  | .meterPowerFail => Sys2Proof.Machine.execMeterPowerFail s
  | .meterPowerReturn lost pairId failed => Sys2Proof.Machine.execMeterPowerReturn lost pairId failed s
  | .meterPeriodicSelftest failed => Sys2Proof.Machine.execMeterPeriodicSelftest failed s
  | .meterArm low => Sys2Proof.Machine.execMeterArm low s
  | .meterSeal low => Sys2Proof.Machine.execMeterSeal low s
  | .sealRegisterWrite o v => Sys2Proof.Machine.execSealRegisterWrite o v s
  | .meterTnsRead => Sys2Proof.Machine.execMeterTnsRead s
  | .nandCmdGo => Sys2Proof.Machine.execNandCmdGo s
  | .append j w => Sys2Proof.Machine.execAppend j w s
  | .read j w => Sys2Proof.Machine.execRead j w s
  | .trim j w => Sys2Proof.Machine.execTrim j w s
  | .erasepart j w => Sys2Proof.Machine.execErasepart j w s
  | .readrec j w => Sys2Proof.Machine.execReadrec j w s
  | .rawread j w => Sys2Proof.Machine.execRawread j w s
  | .patrol j => Sys2Proof.Machine.execPatrol j s
  | .sync j => Sys2Proof.Machine.execSync j s
  | .setpart j w => Sys2Proof.Machine.execSetpart j w s
  | .nandMount ts => Sys2Proof.Machine.execNandMount ts s
  | .nandHandover w => Sys2Proof.Machine.execNandHandover w s
  | .nandParamImage w => Sys2Proof.Machine.execNandParamImage w s
  | .nandCompact w => Sys2Proof.Machine.execNandCompact w s
  | .nandWlMove p w => Sys2Proof.Machine.execNandWlMove p w s
  | .nandRefresh g w => Sys2Proof.Machine.execNandRefresh g w s
  | .nandPatrolRead w => Sys2Proof.Machine.execNandPatrolRead w s
  | .startActive => Sys2Proof.Machine.execStartActive s
  | .startStandby => Sys2Proof.Machine.execStartStandby s
  | .startStandbyTimeout => Sys2Proof.Machine.execStartStandbyTimeout s
  | .promote force => Sys2Proof.Machine.execPromote force s
  | .demote => Sys2Proof.Machine.execDemote s
  | .rejoin => Sys2Proof.Machine.execRejoin s
  | .mirrSync => Sys2Proof.Machine.execMirrSync s
  | .demoteTimeout => Sys2Proof.Machine.execDemoteTimeout s
  | .mirrDisable v => Sys2Proof.Machine.execMirrDisable v s
  | .heartbeatSend => Sys2Proof.Machine.execHeartbeatSend s
  | .peerHbPulse w => Sys2Proof.Machine.execPeerHbPulse w s
  | .peerSlotJudge => Sys2Proof.Machine.execPeerSlotJudge s
  | .mirrRxHeartbeat => Sys2Proof.Machine.execMirrRxHeartbeat s
  | .mirrRxAck => Sys2Proof.Machine.execMirrRxAck s
  | .mirrRxRole => Sys2Proof.Machine.execMirrRxRole s
  | .mirrRxDesc => Sys2Proof.Machine.execMirrRxDesc s
  | .mirrRxDescres => Sys2Proof.Machine.execMirrRxDescres s
  | .mirrRxCall => Sys2Proof.Machine.execMirrRxCall s
  | .mirrRxSyncend => Sys2Proof.Machine.execMirrRxSyncend s
  | .mirrRxState => Sys2Proof.Machine.execMirrRxState s
  | .mirrRxEcrec => Sys2Proof.Machine.execMirrRxEcrec s
  | .mirrRxHorizon => Sys2Proof.Machine.execMirrRxHorizon s
  | .mirrRxFinger => Sys2Proof.Machine.execMirrRxFinger s
  | .mirrRxUser => Sys2Proof.Machine.execMirrRxUser s
  | .retxTimeout => Sys2Proof.Machine.execRetxTimeout s
  | .ackSend => Sys2Proof.Machine.execAckSend s
  | .stateSnapshot ns => Sys2Proof.Machine.execStateSnapshot ns s
  | .mirrEcrecSend r => Sys2Proof.Machine.execMirrEcrecSend r s
  | .fingerSend => Sys2Proof.Machine.execFingerSend s
  | .sleepWake => Sys2Proof.Machine.execSleepWake s
  | .sleepResync => Sys2Proof.Machine.execSleepResync s
  | .bar2Read o n => Sys2Proof.Machine.execBar2Read o n s
  | .bar2Write o bs => Sys2Proof.Machine.execBar2Write o bs s
  | .bar0PartialWrite => Sys2Proof.Machine.execBar0PartialWrite s
  | .ringDoorbell r v => Sys2Proof.Machine.execRingDoorbell r v s
  | .ringH2dMsg r d data err commit => Sys2Proof.Machine.execRingH2dMsg r d data err commit s
  | .ringH2dWrite r d data err commit => Sys2Proof.Machine.execRingH2dWrite r d data err commit s
  | .ringH2dRead r d err commit => Sys2Proof.Machine.execRingH2dRead r d err commit s
  | .ringD2hMsg r d err commit => Sys2Proof.Machine.execRingD2hMsg r d err commit s
  | .signalDoorbell k v => Sys2Proof.Machine.execSignalDoorbell k v s
  | .msixSend v => Sys2Proof.Machine.execMsixSend v s
  | .pcieHotReset => Sys2Proof.Machine.execPcieHotReset s
  | .pcieLinkDown => Sys2Proof.Machine.execPcieLinkDown s
  | .pcieFlr => Sys2Proof.Machine.execPcieFlr s
  | .pcieLinkChange speed width c => Sys2Proof.Machine.execPcieLinkChange speed width c s
  | .usbAttach vbus => Sys2Proof.Machine.execUsbAttach vbus s
  | .usbBusReset hs => Sys2Proof.Machine.execUsbBusReset hs s
  | .usbStandardRequest type req value len => Sys2Proof.Machine.execUsbStandardRequest type req value len s
  | .getInfo len => Sys2Proof.Machine.execGetInfo len s
  | .imgBegin target n len => Sys2Proof.Machine.execImgBegin target n len s
  | .imgEnd w => Sys2Proof.Machine.execImgEnd w s
  | .getStatus len => Sys2Proof.Machine.execGetStatus len s
  | .regWrite n o v => Sys2Proof.Machine.execRegWrite n o v s
  | .regWriteCommit => Sys2Proof.Machine.execRegWriteCommit s
  | .regRead index len => Sys2Proof.Machine.execRegRead index len s
  | .regAddr n o => Sys2Proof.Machine.execRegAddr n o s
  | .usbConsoleOut bs => Sys2Proof.Machine.execUsbConsoleOut bs s
  | .usbConsoleIn => Sys2Proof.Machine.execUsbConsoleIn s
  | .usbImageData bs => Sys2Proof.Machine.execUsbImageData bs s
  | .usbAlmgo => Sys2Proof.Machine.execUsbAlmgo s
  | .usbAlarmIn => Sys2Proof.Machine.execUsbAlarmIn s
  | .usbSuspend => Sys2Proof.Machine.execUsbSuspend s
  | .usbResume => Sys2Proof.Machine.execUsbResume s
  | .usbRemoteWake still => Sys2Proof.Machine.execUsbRemoteWake still s
  | .bootSelect w => Sys2Proof.Machine.execBootSelect w s
  | .bootGo => Sys2Proof.Machine.execBootGo s
  | .quickAssay engs banks => Sys2Proof.Machine.execQuickAssay engs banks s
  | .fullAssay engs banks => Sys2Proof.Machine.execFullAssay engs banks s
  | .runSet => Sys2Proof.Machine.execRunSet s
  | .runCheck => Sys2Proof.Machine.execRunCheck s
  | .runClear => Sys2Proof.Machine.execRunClear s
  | .otpProgram slot => Sys2Proof.Machine.execOtpProgram slot s
  | .otpRevoke slot => Sys2Proof.Machine.execOtpRevoke slot s
  | .otpRaiseMin => Sys2Proof.Machine.execOtpRaiseMin s
  | .cfgkeyApply v => Sys2Proof.Machine.execCfgkeyApply v s
  | .cfgRecomputeDone => Sys2Proof.Machine.execCfgRecomputeDone s
  | .cfgdigRead => Sys2Proof.Machine.execCfgdigRead s
  | .reflectorEnter => Sys2Proof.Machine.execReflectorEnter s
  | .reflectorLinkTry => Sys2Proof.Machine.execReflectorLinkTry s
  | .reflectorDhcp hear => Sys2Proof.Machine.execReflectorDhcp hear s
  | .twampReflect => Sys2Proof.Machine.execTwampReflect s
  | .reflectorChannelOpen => Sys2Proof.Machine.execReflectorChannelOpen s
  | .reflectorChannelClose c => Sys2Proof.Machine.execReflectorChannelClose c s
  | .reflectorRtcp c => Sys2Proof.Machine.execReflectorRtcp c s
  | .reflectorStatusLine => Sys2Proof.Machine.execReflectorStatusLine s
  | .engineTest fail => Sys2Proof.Machine.execEngineTest fail s
  | .groveSliceTest g slice => Sys2Proof.Machine.execGroveSliceTest g slice s
  | .bankMigrate at_ fail => Sys2Proof.Machine.execBankMigrate at_ fail s
  | .assayUnlock v => Sys2Proof.Machine.execAssayUnlock v s
  | .assayUnlockExpire => Sys2Proof.Machine.execAssayUnlockExpire s
  | .hvsFeedSample a b => Sys2Proof.Machine.execHvsFeedSample a b s
  | .hvsIslandFrame => Sys2Proof.Machine.execHvsIslandFrame s
  | .hvsLinkLost => Sys2Proof.Machine.execHvsLinkLost s
  | .hvsLinkRestored => Sys2Proof.Machine.execHvsLinkRestored s
  | .hvsLossCrit => Sys2Proof.Machine.execHvsLossCrit s
  | .hvsAlmoutWrite v => Sys2Proof.Machine.execHvsAlmoutWrite v s
  | .outputLimitShutdown n => Sys2Proof.Machine.execOutputLimitShutdown n s
  | .outputThermalShutdown n => Sys2Proof.Machine.execOutputThermalShutdown n s
  | .outputRetry n => Sys2Proof.Machine.execOutputRetry n s
  | .outputRecovered n => Sys2Proof.Machine.execOutputRecovered n s
  | .alarmInputChange k on ms => Sys2Proof.Machine.execAlarmInputChange k on ms s
  | .islandPower on => Sys2Proof.Machine.execIslandPower on s
  | .c10OkChange edge err => Sys2Proof.Machine.execC10OkChange edge err s
  | .pcsBlockLock n => Sys2Proof.Machine.execPcsBlockLock n s
  | .meterArmExpire => Sys2Proof.Machine.execMeterArmExpire s
  | .mirrUserSend => Sys2Proof.Machine.execMirrUserSend s
  | .pcieEndpointEnable => Sys2Proof.Machine.execPcieEndpointEnable s
  | .outputCurrentLimit n on => Sys2Proof.Machine.execOutputCurrentLimit n on s
  | .thermalLimitCleared n => Sys2Proof.Machine.execThermalLimitCleared n s

end Sys2Proof.Machine
end

