-- ==== Sys2Proof/Machine/Step.lean ====
section
/-! DEFINITION. One step of the block: the command at the front of the queue acts; with none
waiting, one cycle of the fabric clock passes. -/

namespace Sys2Proof.Machine

/-- One step: the front command acts on the state whose queue is the rest.  With no command
waiting the block idles for one cycle of the fabric clock (DESIGN CHOICE, log entry 31).
DESIGN CHOICE, log entries 4, 8. -/
def step (s : State) : Host.Outcome State Fault Refusal :=
  match s.pending with
  | [] => .next (idle s)
  | c :: cs => exec c { s with pending := cs }

/-- `s` with the command a word spells at the front of its queue; `s` where it spells none. -/
def State.withFetchWord (s : State) (nbits w : Nat) : State :=
  match decodeTableWord nbits w with
  | some c => { s with pending := c :: s.pending }
  | none => s

end Sys2Proof.Machine
end

