-- ==== Sys2Proof/Safety.lean ====
section
/-! DEFINITION. What a good state is, in the words the statements use: the canonical form
of memory and of the register file and counters, and a command whose effect is complete. -/

namespace Sys2Proof.Machine

/-- The canonical form of memory: addresses strictly rising, and no listed byte equal to 0,
which an unlisted address reads as (log entry 2). -/
def Memory.wf (m : List Host.Cell) : Bool := smapWf (fun _ => 0) m

/-- The canonical form of memory, of the register file (no register listed with its reset
value) and of the counters (none listed with 0): equal contents are equal data. -/
structure State.Canonical (s : State) : Prop where
  mem : Memory.wf s.mem = true
  csr : smapWf csrDefault s.csr = true
  cnt : smapWf (fun _ => 0) s.cnt = true

/-- The next instruction of engine `e` issues in context `k` (R117): `k` is RUNNING, its PC lies
in program memory, the word there can be read, no branch annuls the slot (R73, R107, R148), no kernel
of the Media ROM stands there (log entry 26), and no memory holds an error to correct (log entry 156). -/
structure Issues (s : State) (e k : Nat) : Prop where
  running : runningOf s e = some k
  inPm : (ctxGet s k).pc < pmSize e
  clean : isPoison s (fetchPa e (ctxGet s k).pc) = false
  live : ∀ p, (ctxGet s k).pend = some p → p.annul = false
  own : (ctxGet s k).pend = none → kernelAt s e (ctxGet s k).pc = none
  sound : s.soft = []

/-- Nothing is in flight in a context: no result, no delay slot, no loop. -/
structure Settled (c : Ctx) : Prop where
  infl : c.infl = []
  pend : c.pend = none
  depth : ldepth c = 0

/-- Nothing of `c` is still to be written: every wait begins so (R97). -/
def Drained (c : Ctx) : Prop := ∀ f ∈ c.infl, c.slot + 3 < f.due

/-- A result of latency `lat` that an instruction issued now in `c` leaves in flight (R86, R87). -/
def dueIn (c : Ctx) (lat : Nat) (r : RegId) (v : BitVec 40) (mac : Bool) : InFlight := ⟨c.slot + lat, r, v, mac⟩

/-- `t` differs from `s` in the engine contexts, the latest context of each engine and the counters
alone, and there in context `k` and the issue and switch counters of engine `k / 4` alone (R117, R99). -/
structure OnlyCtx (s t : State) (k : Nat) : Prop where
  rest : t = { s with core := t.core, cnt := t.cnt }
  ctx : ∀ j, j ≠ k → ctxGet t j = ctxGet s j
  buf : ∀ e, (engGet t e).buf = (engGet s e).buf
  load : t.core.load = s.core.load
  removed : t.core.removed = s.core.removed
  kern : t.core.kern = s.core.kern
  cnt : ∀ o, o ≠ engReg offGroveEngIss (k / 4) → o ≠ engReg offGroveEngSw (k / 4) → cntGet t o = cntGet s o

/-- Every register of a context but ST and those of `dst` reads as before, and its task and its
signal queue stand. -/
structure SameRegs (c d : Ctx) (dst : RegId → Prop) : Prop where
  g : ∀ n, ¬ dst (.g n) → gGet d n = gGet c n
  p : ∀ n, ¬ dst (.p n) → pGet d n = pGet c n
  m : ∀ n, ¬ dst (.m n) → mGet d n = mGet c n
  a : ∀ n, ¬ dst (.a n) → aGet d n = aGet c n
  sp : ∀ n, n ≠ 0 → ¬ dst (.sp n) → spGet d n = spGet c n
  task : d.task = c.task
  sigq : d.sigq = c.sigq

/-- `i`, issued in context `k`, completes: `rd` reads `v`, and with nothing in flight before, the
flags `f` stand in ST, every other bit of ST is kept and the PC is at the next word. -/
def GivesG (i : Instr) (s : State) (k rd : Nat) (v : Word) (f : FlagWrite) : Prop :=
  ∃ t, exec i s = .next t ∧ gGet (ctxGet t k) rd = v
    ∧ (Settled (ctxGet s k) → (ctxGet t k).st = putFlags (ctxGet s k).st f
        ∧ (ctxGet t k).pc = (ctxGet s k).pc + 4)

/-- `i`, issued in context `k`, completes; with nothing in flight before it writes no G register,
the flags `f` stand in ST, every other bit of ST is kept and the PC is at the next word. -/
def GivesFlags (i : Instr) (s : State) (k : Nat) (f : FlagWrite) : Prop :=
  ∃ t, exec i s = .next t
    ∧ (Settled (ctxGet s k) → (ctxGet t k).st = putFlags (ctxGet s k).st f
        ∧ (ctxGet t k).pc = (ctxGet s k).pc + 4 ∧ ∀ n, gGet (ctxGet t k) n = gGet (ctxGet s k) n)

/-- `i`, issued in context `k`, completes: register `r` reads `v`, and with nothing in flight before,
ST stands and the PC is at the next word. -/
def GivesReg (i : Instr) (s : State) (k : Nat) (r : RegId) (v : Word) : Prop :=
  ∃ t, exec i s = .next t ∧ regRead (ctxGet t k) r = v
    ∧ (Settled (ctxGet s k) → (ctxGet t k).st = (ctxGet s k).st ∧ (ctxGet t k).pc = (ctxGet s k).pc + 4)

/-- `i` completes in context `k` and leaves the results `l` in flight, the last last. -/
def LeavesInFlight (i : Instr) (s : State) (k : Nat) (l : List InFlight) : Prop :=
  ∃ t, exec i s = .next t ∧ ∃ before, (ctxGet t k).infl = before ++ l

/-- What an accumulator result `x` of latency 2 leaves in flight under R83: the value, saturated when
it does not fit 40 bits and ST.ASAT is 1, and then the setting of ST.AV. -/
def accLeaves (c : Ctx) (ad : Nat) (mac : Bool) (x : Int) : List InFlight :=
  if -549755813888 ≤ x ∧ x < 549755813888 then [dueIn c 2 (.a ad) (BitVec.ofInt 40 x) mac]
  else
    [dueIn c 2 (.a ad) (if stAsat c then (if x < 0 then 0x8000000000#40 else 0x7FFFFFFFFF#40)
      else BitVec.ofInt 40 x) mac, dueIn c 2 .stAV 0 false]

/-- A parallel fetch from XM (`mem` 1) or YM (`mem` 2) that the context may make (R74, R107). -/
def FetchOk (s : State) (k mem base : Nat) (f : Option Fetch) : Prop :=
  ∀ x, f = some x → ∀ a, a = (pGet (ctxGet s k) (base + x.p.toNat)).toNat →
    a % 2 = 0 ∧ mem * 0x10000 ≤ a ∧ a < (mem + 1) * 0x10000 ∧ isPoison s (localBase (k / 4) + a) = false

/-- The G register a parallel fetch leaves in flight (R86, R127). -/
def fetchLeaves (s : State) (k base : Nat) (f : Option Fetch) : List InFlight :=
  match f with
  | none => []
  | some x => [dueIn (ctxGet s k) 3 (.g x.rd.toNat) ((wordOfInt (signed 16
      (memNat s (localBase (k / 4) + (pGet (ctxGet s k) (base + x.p.toNat)).toNat) 2))).zeroExtend 40) false]

/-- A MAC-class instruction completes: `acc` and then the fetched registers are in flight, and each
fetch's pointer has moved on by its M register. -/
def GivesMac (i : Instr) (s : State) (k : Nat) (x y : Option Fetch) (acc : List InFlight) : Prop :=
  ∃ t, exec i s = .next t
    ∧ (∃ before, (ctxGet t k).infl = before ++ acc ++ fetchLeaves s k 0 x ++ fetchLeaves s k 4 y)
    ∧ (∀ f, x = some f → pGet (ctxGet t k) f.p.toNat
        = pGet (ctxGet s k) f.p.toNat + mGet (ctxGet s k) f.p.toNat)
    ∧ (∀ f, y = some f → pGet (ctxGet t k) (4 + f.p.toNat)
        = pGet (ctxGet s k) (4 + f.p.toNat) + mGet (ctxGet s k) (4 + f.p.toNat))
    ∧ t.mem = s.mem

/-- A load or store of `size` bytes that names a place: the mode's address is `a`, aligned, and lies
at `pa` of the model's address space (R31, R70, R129). -/
structure Names (s : State) (k : Nat) (pn : BitVec 3) (md : Bool) (ofs : BitVec 14) (size pa : Nat) (a : Word) : Prop where
  addr : a = if md then pGet (ctxGet s k) pn.toNat else pGet (ctxGet s k) pn.toNat + wordOfInt (ofs.toInt * size)
  mode : md = true → ofs = 0
  aligned : a.toNat % size = 0
  place : resolve s (k / 4) a.toNat = some pa

/-- A load or store with MD 1 moves its pointer on by its M register. -/
def PointerMoved (s t : State) (k : Nat) (pn : BitVec 3) (md : Bool) : Prop :=
  md = true → pGet (ctxGet t k) pn.toNat = pGet (ctxGet s k) pn.toNat + mGet (ctxGet s k) pn.toNat

/-- The clearing keeps more free cells than the low-clearing threshold, so a single cell taken
raises no low-clearing event (R316). -/
def Ample (s : State) : Prop := csrFld s offQmgrClrLowev 18 0 < freeCells s

/-- `t` keeps everything of `s` but the timebase, the craft port, the island, the queues with their
events, memory, the registers and the counters. -/
structure OthersKept (s t : State) : Prop where
  pending : t.pending = s.pending
  variantH : t.variantH = s.variantH
  core : t.core = s.core
  disp : t.disp = s.disp
  eca : t.eca = s.eca
  rsf : t.rsf = s.rsf
  chan : t.chan = s.chan
  pkt : t.pkt = s.pkt
  mac : t.mac = s.mac
  ciph : t.ciph = s.ciph
  cruc : t.cruc = s.cruc
  meter : t.meter = s.meter
  nand : t.nand = s.nand
  mirr : t.mirr = s.mirr
  host : t.host = s.host
  dev : t.dev = s.dev
  assay : t.assay = s.assay

/-- `t` follows `s` in a run: one command took its step. -/
def Steps (s t : State) : Prop := step s = .next t

end Sys2Proof.Machine
end

