-- ==== Sys2Proof/Certificates/Slice0/Obligations.lean ====
section
/-! DEFINITION. The statements for the provers: what commands do, where they complete, what
they leave alone, and the invariants every step keeps. -/

open Sys2Proof Sys2Proof.Machine

/-- A step runs the command at the front of the queue on the state whose queue is the rest.
The queue of commands is the model's own (log entry 4). -/
def Obligations.StepRunsFrontCommand : Prop :=
  ∀ (c : Instr) (cs : List Instr) (s : State),
    s.pending = c :: cs → step s = exec c { s with pending := cs }

/-- With no command waiting, a step is one fabric cycle short of a tick boundary: NFN, the ticks,
the queue and the variant stay, and elapsed time rises by one cycle unless the boundary is reached or the
device is held in reset (the model's choice, log entries 31 and 138). -/
def Obligations.IdleStepIsOneFabricCycle : Prop :=
  ∀ s : State, s.pending = [] → ∃ t, step s = .next t ∧ t.pending = [] ∧ t.variantH = s.variantH
    ∧ (tickReached s.time (s.time.fab + 1) = true ∨ s.dev.held = true → t = s)
    ∧ (tickReached s.time (s.time.fab + 1) = false → s.dev.held = false → t.time = { s.time with fab := s.time.fab + 1 })

/-- R533: a RESET_N pulse below 1 µs has no effect; from 10 µs on it is a device reset, after which
the queue, the variant and the fuses stand, RUN is 0, memory lists nothing, the timebase is in FREERUN at
tick 0, its state-change event is discarded and counted when it was in another state, and the device is
held until RESET_N rises; the flash keeps its blocks unless storage work is under way; RESET_N's rise
latches the straps and starts the boot ROM on the lowest-numbered supervisor (R498).
What a device reset leaves of meter, flash, fuses and island is read as log entries 60 and 190 say. -/
def Obligations.ResetPulseAndRelease : Prop :=
  (∀ (ns : Nat) (s : State), ns < 1000 → exec (.deviceReset ns) s = .next s)
  ∧ (∀ (ns : Nat) (s : State), 1000 ≤ ns → ns < 10000 → exec (.deviceReset ns) s = .fault .undefinedResetPulse)
  ∧ (∀ (ns : Nat) (s : State), 10000 ≤ ns → ∃ t, exec (.deviceReset ns) s = .next t
      ∧ t.pending = s.pending ∧ t.variantH = s.variantH ∧ t.mem = [] ∧ t.csr = []
      ∧ t.cnt = (if s.time.mode = .freerun then [] else [(offQmgrEvdisc, 1)]) ∧ t.time.mode = .freerun
      ∧ t.core = CoreSt.reset ∧ t.disp = DispSt.reset ∧ t.qmgr = QmgrSt.reset ∧ t.chan = ChanSt.reset
      ∧ t.ciph = CiphSt.reset ∧ t.mirr = MirrSt.reset ∧ t.dev.run = false ∧ t.dev.held = true ∧ t.time.nfn = 0
      ∧ t.dev.otpKey = s.dev.otpKey ∧ t.dev.otpRevoked = s.dev.otpRevoked
      ∧ ((s.nand.mounted = true → s.nand.q = [] ∧ s.nand.blk.all (fun x => ! refreshDue s x.1) = true) →
        t.nand.blk = s.nand.blk))
  ∧ (∀ (m : BitVec 2) (p : Bool) (s : State), s.dev.held = true →
      ∃ t, exec (.resetRelease m p) s = .next t ∧ t.dev.held = false ∧ t.dev.mode = m.toNat
        ∧ t.dev.pairId = p ∧ t.dev.bootRom = true ∧ t.assay.busy = true ∧ t.mem = s.mem ∧ t.csr = s.csr
        ∧ ∀ k, romCtx s = some k → (ctxGet t k).state = .running)

/-- R49, R50, R51: a write of TIME_FREQ takes the value and restarts the watchdog (outside HOLDOVER with
the stored average); TIME_PHASE_ADJ adds to the remainder held now; PHASE_CLR clears it; STEP under RUN
goes into NFN_OFS, and without RUN sets the NFN from PTP time and clears NFN_OFS.
That the NFN then counts modulo 2^64 when PTP time steps below 0 is the model's choice (log entry 164). -/
def Obligations.TimebaseDisciplineWrites : Prop :=
  (∀ (v : Word) (s : State), ¬ (s.time.mode = .holdover ∧ csrFld s offTimeCtl 17 17 = 0) →
      ∃ t, exec (.timeFreqWrite v) s = .next t ∧ csrGet t offTimeFreq = v
        ∧ t.time.wdStart = elapsed s.time ∧ t.time.mode = s.time.mode ∧ t.time.nfn = s.time.nfn)
  ∧ (∀ (v : Word) (s : State),
      -2147483648 * nsUnit ≤ remNow s.time + v.toInt * nsUnit →
      remNow s.time + v.toInt * nsUnit ≤ 2147483647 * nsUnit →
      ∃ t, exec (.timePhaseAdjWrite v) s = .next t ∧ t.time.rem = remNow s.time + v.toInt * nsUnit
        ∧ t.csr = s.csr ∧ t.time.nfn = s.time.nfn)
  ∧ (∀ (v : Word) (s : State),
      remNow s.time + v.toInt * nsUnit < -2147483648 * nsUnit ∨ 2147483647 * nsUnit < remNow s.time + v.toInt * nsUnit →
      ∃ t, exec (.timePhaseAdjWrite v) s = .next t ∧ bitOf (csrGet t offTimeState) 14 = true
        ∧ (t.time.rem = -2147483648 * nsUnit ∨ t.time.rem = 2147483647 * nsUnit))
  ∧ (∀ s : State, ∃ t, exec .phaseClr s = .next t ∧ t.time.rem = 0 ∧ t.time.nfn = s.time.nfn ∧ t.csr = s.csr)
  ∧ (∀ s : State, s.dev.run = true → ∃ t, exec .step s = .next t
      ∧ t.time.ofs = ofsNow s.time + stepUnits s ∧ t.time.nfn = s.time.nfn ∧ t.time.mode = s.time.mode)
  ∧ (∀ s : State, s.dev.run = false → ∃ t, exec .step s = .next t ∧ t.time.ofs = 0
      ∧ t.time.nfn = BitVec.ofInt 64
          ((nfnUnits (rebase s.time) + ofsNow s.time + stepUnits s) / tickUnits)
      ∧ t.csr = s.csr ∧ t.mem = s.mem)

/-- R52, R54: the transitions of the timebase, commanded and by the watchdog, and a command that the
table does not give, which changes no state and sets TIME_STATE.CMD_IGN.

R50, R55, R57: a phase slew that has reached zero ends; a change of NFN alignment is told once; the
frequency source changes at the next tick boundary, falls back while CLK10_IN is bad and comes back
after a second of C10_OK.
The clocks in which slews run are the model's reading (log entry 44). -/
def Obligations.TimebaseStatesAndSources : Prop :=
  ((∀ s : State, ∃ t, exec .modeCmdFreerun s = .next t ∧ t.time.mode = .freerun ∧ t.time.nfn = s.time.nfn)
  ∧ (∀ s : State, s.time.mode = .freerun ∨ s.time.mode = .holdover →
      ∃ t, exec .modeCmdLocking s = .next t ∧ t.time.mode = .locking ∧ t.time.wdStart = elapsed s.time)
  ∧ (∀ s : State, s.time.mode = .locking →
      ∃ t, exec .modeCmdLocked s = .next t ∧ t.time.mode = .locked ∧ t.time.everLocked = true)
  ∧ (∀ s : State, s.time.mode = .locked →
      ∃ t, exec .modeCmdHoldover s = .next t ∧ t.time.mode = .holdover
        ∧ t.time.avg = histMean s.time.hist (elapsed s.time))
  ∧ (∀ s : State, s.time.mode ≠ .locking → ∃ t, exec .modeCmdLocked s = .next t
      ∧ t.time = s.time ∧ bitOf (csrGet t offTimeState) 15 = true)
  ∧ (∀ s : State, s.time.mode ≠ .locked → ∃ t, exec .modeCmdHoldover s = .next t
      ∧ t.time = s.time ∧ bitOf (csrGet t offTimeState) 15 = true)
  ∧ (∀ s : State, wdExpired s = true → s.time.mode = .locked →
      ∃ t, exec .watchdogExpiry s = .next t ∧ t.time.mode = .holdover)
  ∧ (∀ s : State, wdExpired s = true → s.time.mode = .locking →
      ∃ t, exec .watchdogExpiry s = .next t ∧ t.time.mode = .freerun))
  ∧ ((∀ s : State, s.time.rem ≠ 0 → remNow s.time = 0 →
      ∃ t, exec .phaseSlewEnd s = .next t ∧ t.time.rem = 0 ∧ t.csr = s.csr)
  ∧ (∀ s : State, decide (ofsNow s.time = 0) ≠ s.time.alignedTold →
      ∃ t, exec .nfnAlignmentChange s = .next t ∧ t.time.alignedTold = decide (ofsNow s.time = 0)
        ∧ t.time.nfn = s.time.nfn)
  ∧ (∀ (v : Word) (s : State), csrFld s offTimeCtl 16 16 = 0 → fld v 16 16 = 1 → c10Ok s.time = true →
      ∃ t, exec (.fsrcWrite v) s = .next t ∧ t.time.srcNext = some 1 ∧ t.time.nfn = s.time.nfn)
  ∧ (∀ (v : Word) (s : State), csrFld s offTimeCtl 16 16 = 1 → fld v 16 16 = 0 →
      ∃ t, exec (.fsrcWrite v) s = .next t ∧ t.time.srcNext = some 0 ∧ t.time.nfn = s.time.nfn)
  ∧ (∀ s : State, csrFld s offTimeCtl 16 16 = 1 → c10Ok s.time = false → s.time.fallback = false →
      ∃ t, exec .clk10Fallback s = .next t ∧ t.time.fallback = true ∧ t.time.srcNext = some 0)
  ∧ (∀ s : State, s.time.fallback = true → c10Ok s.time = true → s.time.c10Since + 1000000000 ≤ elapsed s.time →
      ∃ t, exec .clk10Restore s = .next t ∧ t.time.fallback = false ∧ t.time.srcNext = some 1)
  ∧ (∀ (edge : Bool) (err : Int) (s : State), ∃ t, exec (.c10OkChange edge err) s = .next t
      ∧ t.time.c10Edge = edge ∧ t.time.c10Err = err ∧ t.time.nfn = s.time.nfn ∧ t.csr = s.csr ∧ t.mem = s.mem))

/-- R56, R58, R62, R64, R539: a tick boundary advances NFN by exactly one; a read of TIME_NFN_LO answers NFN 31:0
and latches the rest and the TS32; an edge that TIME_TSIN_CTLk selects, of a pulse not shorter than
FILT × 2 ns nor than 10 ns (R539), is captured when it lies at least 100 ns after the last captured edge of its
pin, and else is counted in TIME_TSIN_MISSk; a shorter pulse is ignored with both its edges (log entry 178); with EN 1 and no GATE acting, PPS_OUT rises in a
second it has not yet marked, and falls when its WIDTH in ticks has passed.
At which instants a second is marked is the model's reading (log entry 45). -/
def Obligations.TickSnapshotAndPulse : Prop :=
  (∀ s : State, s.dev.held = false → ∃ t, exec .tick s = .next t ∧ t.time.nfn = s.time.nfn + 1 ∧ t.time.ticks = s.time.ticks + 1)
  ∧ (∀ s : State, ∃ t, exec .timeNfnLoRead s = .next t
      ∧ t.busRead = leBytes 4 (s.time.nfn.toNat % 4294967296)
      ∧ csrGet t offTimeNfnHi = wordOf (s.time.nfn.toNat / 4294967296)
      ∧ csrGet t offTimeSnapTs32 = wordOf (ts32 s.time) ∧ t.time = s.time ∧ t.mem = s.mem)
  ∧ (∀ (pin : Nat) (rising : Bool) (width : Nat) (s : State), pin < 4 →
      bitOf (csrGet s (offTimeTsinCtl + 8 * pin)) 0 = true →
      bitOf (csrGet s (offTimeTsinCtl + 8 * pin)) (if rising then 1 else 2) = true →
      let filt := max 10 (fld (csrGet s (offTimeTsinCtl + 8 * pin)) 15 8 * 2)
      let ends := smapGet none s.time.tsShort pin = some (! rising)
      let miss := offTimeTsinMiss + 8 * pin
      (filt ≤ width → ¬ ends → (∀ l, smapGet none s.time.tsLast pin = some l → l + 100 ≤ elapsed s.time) →
        ∃ t, exec (.tsInCapture pin rising width) s = .next t
          ∧ smapGet none t.time.tsLast pin = some (elapsed s.time) ∧ t.time.nfn = s.time.nfn
          ∧ csrGet t miss = csrGet s miss)
      ∧ (∀ l, filt ≤ width → ¬ ends → smapGet none s.time.tsLast pin = some l → elapsed s.time < l + 100 →
        fld (csrGet s miss) 15 0 < 65535 →
        ∃ t, exec (.tsInCapture pin rising width) s = .next t ∧ t.time.tsLast = s.time.tsLast
          ∧ fld (csrGet t miss) 15 0 = fld (csrGet s miss) 15 0 + 1 ∧ t.qmgr = s.qmgr)
      ∧ (width < filt → ¬ ends → ∃ t, exec (.tsInCapture pin rising width) s = .next t
          ∧ smapGet none t.time.tsShort pin = some rising ∧ t.time.tsLast = s.time.tsLast
          ∧ t.csr = s.csr ∧ t.qmgr = s.qmgr)
      ∧ (ends → ∃ t, exec (.tsInCapture pin rising width) s = .next t
          ∧ smapGet none t.time.tsShort pin = none ∧ t.time.tsLast = s.time.tsLast
          ∧ t.csr = s.csr ∧ t.qmgr = s.qmgr))
  ∧ (∀ (n : Int) (s : State), ppsSecond s = some n → csrFld s offTimePpsCtl 0 0 = 1 → ppsGated s = false →
      s.time.pps = false → ppsMarked s.time n = false →
      ∃ t, exec .ppsRise s = .next t ∧ t.time.pps = true
        ∧ t.time.ppsFall = tickTime s.time + (min 7999 (max 1 (csrFld s offTimePpsCtl 28 16)) : Nat) * tickUnits
        ∧ t.csr = s.csr)
  ∧ (∀ s : State, ppsSecond s = none → exec .ppsRise s = .next s)
  ∧ (∀ s : State, s.time.pps = true → s.time.ppsFall ≤ tickTime s.time →
      ∃ t, exec .ppsFall s = .next t ∧ t.time.pps = false ∧ t.csr = s.csr ∧ t.mem = s.mem)

/-- R122: results, flags and completion of the register ALU group; the flags a table row does not
name are kept. -/
def Obligations.AluRegisterResults : Prop :=
  ∀ (s : State) (e k : Nat) (rd rs rt : BitVec 4), Issues s e k →
    let a := gGet (ctxGet s k) rs.toNat
    let b := gGet (ctxGet s k) rt.toNat
    let addC := decide (4294967296 ≤ a.toNat + b.toNat)
    let addV := decide (a.toInt + b.toInt < -2147483648 ∨ 2147483647 < a.toInt + b.toInt)
    let subC := decide (b.toNat ≤ a.toNat)
    let subV := decide (a.toInt - b.toInt < -2147483648 ∨ 2147483647 < a.toInt - b.toInt)
    let addS := if a.toInt + b.toInt < -2147483648 then 0x80000000#32
      else if 2147483647 < a.toInt + b.toInt then 0x7FFFFFFF#32 else a + b
    let subS := if a.toInt - b.toInt < -2147483648 then 0x80000000#32
      else if 2147483647 < a.toInt - b.toInt then 0x7FFFFFFF#32 else a - b
    let shl := if 32 ≤ b.toNat % 64 then 0 else a <<< (b.toNat % 64)
    let shr := if 32 ≤ b.toNat % 64 then 0 else a >>> (b.toNat % 64)
    let sar := a.sshiftRight (min (b.toNat % 64) 31)
    let low := if a.toInt ≤ b.toInt then a else b
    let high := if a.toInt ≤ b.toInt then b else a
    let abs := if a = 0x80000000#32 then 0x7FFFFFFF#32 else if a.toInt < 0 then -a else a
    GivesG (.add e rd rs rt) s k rd.toNat (a + b) (flagsZNCV (a + b) addC addV)
    ∧ GivesG (.adds e rd rs rt) s k rd.toNat addS (flagsZNCV addS addC addV)
    ∧ GivesG (.sub e rd rs rt) s k rd.toNat (a - b) (flagsZNCV (a - b) subC subV)
    ∧ GivesG (.subs e rd rs rt) s k rd.toNat subS (flagsZNCV subS subC subV)
    ∧ GivesG (.and e rd rs rt) s k rd.toNat (a &&& b) (flagsZN (a &&& b))
    ∧ GivesG (.or e rd rs rt) s k rd.toNat (a ||| b) (flagsZN (a ||| b))
    ∧ GivesG (.xor e rd rs rt) s k rd.toNat (a ^^^ b) (flagsZN (a ^^^ b))
    ∧ GivesG (.andn e rd rs rt) s k rd.toNat (a &&& ~~~ b) (flagsZN (a &&& ~~~ b))
    ∧ GivesG (.shl e rd rs rt) s k rd.toNat shl (flagsZN shl)
    ∧ GivesG (.shr e rd rs rt) s k rd.toNat shr (flagsZN shr)
    ∧ GivesG (.sar e rd rs rt) s k rd.toNat sar (flagsZN sar)
    ∧ GivesG (.min e rd rs rt) s k rd.toNat low (flagsZN low)
    ∧ GivesG (.max e rd rs rt) s k rd.toNat high (flagsZN high)
    ∧ GivesG (.neg e rd rs) s k rd.toNat (-a)
        (flagsZNCV (-a) (decide (a = 0)) (decide (a = 0x80000000#32)))
    ∧ GivesG (.abs e rd rs) s k rd.toNat abs ⟨some (abs == 0), some abs.msb, none, some (a == 0x80000000#32)⟩
    ∧ GivesG (.mul e rd rs rt) s k rd.toNat (BitVec.ofNat 32 (a.toNat * b.toNat)) (flagsZN (a * b))
    ∧ GivesG (.sexh e rd rs) s k rd.toNat (wordOfInt (signed 16 a.toNat)) (flagsZN (wordOfInt (signed 16 a.toNat)))
    ∧ (∃ n : Nat, n ≤ 32 ∧ a.toNat < 2 ^ (32 - n) ∧ (n < 32 → 2 ^ (31 - n) ≤ a.toNat)
        ∧ GivesG (.clz e rd rs) s k rd.toNat (wordOf n) (flagsZN (wordOf n)))
    ∧ GivesFlags (.cmp e rs rt) s k (flagsZNCV (a - b) subC subV)
    ∧ GivesFlags (.tst e rs rt) s k (flagsZN (a &&& b))

/-- R122, R123, R124: the immediate group, MOVI and MOVHI, and the 32-bit copies of MOV. -/
def Obligations.ImmediateAndMoveResults : Prop :=
  ∀ (s : State) (e k : Nat) (rd rs : BitVec 4) (imm : BitVec 16) (sh : BitVec 5), Issues s e k →
    let a := gGet (ctxGet s k) rs.toNat
    let si : Word := imm.signExtend 32
    let zi : Word := imm.zeroExtend 32
    let cmpF := flagsZNCV (a - si) (decide (si.toNat ≤ a.toNat))
      (decide (a.toInt - imm.toInt < -2147483648 ∨ 2147483647 < a.toInt - imm.toInt))
    GivesG (.addi e rd rs imm) s k rd.toNat (a + si) (flagsZNCV (a + si)
        (decide (4294967296 ≤ a.toNat + si.toNat))
        (decide (a.toInt + imm.toInt < -2147483648 ∨ 2147483647 < a.toInt + imm.toInt)))
    ∧ GivesG (.andi e rd rs imm) s k rd.toNat (a &&& zi) (flagsZN (a &&& zi))
    ∧ GivesG (.ori e rd rs imm) s k rd.toNat (a ||| zi) (flagsZN (a ||| zi))
    ∧ GivesG (.xori e rd rs imm) s k rd.toNat (a ^^^ zi) (flagsZN (a ^^^ zi))
    ∧ GivesG (.shli e rd rs sh) s k rd.toNat (a <<< sh.toNat) (flagsZN (a <<< sh.toNat))
    ∧ GivesG (.shri e rd rs sh) s k rd.toNat (a >>> sh.toNat) (flagsZN (a >>> sh.toNat))
    ∧ GivesG (.sari e rd rs sh) s k rd.toNat (a.sshiftRight sh.toNat) (flagsZN (a.sshiftRight sh.toNat))
    ∧ GivesFlags (.cmpi e rs imm) s k cmpF
    ∧ GivesG (.movi e rd 0 imm) s k rd.toNat zi noFlags
    ∧ GivesG (.movhi e rd 0 imm) s k rd.toNat
        ((gGet (ctxGet s k) rd.toNat &&& 0xFFFF#32) ||| (zi <<< 16)) noFlags
    ∧ GivesG (.mov e rd 0 rs 0) s k rd.toNat a noFlags
    ∧ (∀ (cl : BitVec 3) (d : RegId), gpmReg cl.toNat rd.toNat = some d →
        GivesReg (.movi e rd cl imm) s k d zi
        ∧ GivesReg (.movhi e rd cl imm) s k d ((regRead (ctxGet s k) d &&& 0xFFFF#32) ||| (zi <<< 16)))
    ∧ (∀ (dcl scl : BitVec 3) (d r : RegId), gpmReg dcl.toNat rd.toNat = some d →
        gpmReg scl.toNat rs.toNat = some r → GivesReg (.mov e rd dcl rs scl) s k d (regRead (ctxGet s k) r))

/-- R124, R125: MOV into and out of accumulators and special registers: MOV to A has latency 2, MOV
to ST keeps LDEPTH and CTX and, outside a privileged supervisor, PRIV; a MOV to LE takes bits 16:2. -/
def Obligations.SpecialMoves : Prop :=
  ∀ (s : State) (e k : Nat) (rd rs : BitVec 4), Issues s e k →
    let c := ctxGet s k
    let a := gGet c rs.toNat
    (rd.toNat < 4 → LeavesInFlight (.mov e rd 3 rs 0) s k [dueIn c 2 (.a rd.toNat) (a.signExtend 40) false])
    ∧ (rd.toNat < 4 → rs.toNat < 4 →
        LeavesInFlight (.mov e rd 3 rs 3) s k [dueIn c 2 (.a rd.toNat) (aGet c rs.toNat) false])
    ∧ (rs.toNat < 12 → GivesG (.mov e rd 0 rs 4) s k rd.toNat (spGet c rs.toNat) noFlags)
    ∧ (Settled c → ∃ t, exec (.mov e 0 4 rs 0) s = .next t
        ∧ (ctxGet t k).st &&& 0x7CCF#32 = a &&& 0x7CCF#32
        ∧ fld (ctxGet t k).st 23 20 = fld c.st 23 20
        ∧ (isSup (k / 4) = false ∨ stPriv c = false → stPriv (ctxGet t k) = stPriv c)
        ∧ (isSup (k / 4) = true → stPriv c = true → stPriv (ctxGet t k) = bitOf a 15))
    ∧ (Settled c → ∃ t, exec (.mov e 3 4 rs 0) s = .next t ∧ spGet (ctxGet t k) 3 = a &&& 0x1FFFC#32)
    ∧ (∀ n, (n = 1 ∨ n = 4 ∨ (7 ≤ n ∧ n < 12)) → Settled c →
        ∃ t, exec (.mov e (BitVec.ofNat 4 n) 4 rs 0) s = .next t ∧ spGet (ctxGet t k) n = a)

/-- R83, R84, R126: the accumulator group. -/
def Obligations.AccumulatorResults : Prop :=
  ∀ (s : State) (e k : Nat) (rd : BitVec 4) (ad as_ : BitVec 2) (rnd : Bool) (sh : BitVec 6), Issues s e k →
    let c := ctxGet s k
    let x := (aGet c as_.toNat).toInt
    let r := if rnd = false then x
      else if stRnd c = true ∧ x % 131072 = 0x8000 then x else x + 0x8000
    let sat := fun (y : Int) => if y < -2147483648 then (-2147483648 : Int) else if 2147483647 < y then 2147483647 else y
    let past := fun (y : Int) => y < -2147483648 ∨ 2147483647 < y
    GivesG (.movh e rd as_ rnd) s k rd.toNat (wordOfInt (sat r / 65536)) noFlags
    ∧ (past r → LeavesInFlight (.movh e rd as_ rnd) s k [dueIn c 2 .stSS 0 false])
    ∧ GivesG (.movw e rd as_) s k rd.toNat (wordOfInt (sat x)) noFlags
    ∧ (past x → LeavesInFlight (.movw e rd as_) s k [dueIn c 2 .stSS 0 false])
    ∧ GivesG (.movx e rd as_) s k rd.toNat (wordOfInt (x / 4294967296)) noFlags
    ∧ LeavesInFlight (.adda e ad as_) s k (accLeaves c ad.toNat false ((aGet c ad.toNat).toInt + x))
    ∧ LeavesInFlight (.suba e ad as_) s k (accLeaves c ad.toNat false ((aGet c ad.toNat).toInt - x))
    ∧ LeavesInFlight (.aneg e ad as_) s k (accLeaves c ad.toNat false (-x))
    ∧ (0 ≤ sh.toInt → LeavesInFlight (.ash e ad as_ sh) s k (accLeaves c ad.toNat false (x * 2 ^ sh.toInt.toNat)))
    ∧ (sh.toInt < 0 → LeavesInFlight (.ash e ad as_ sh) s k
        [dueIn c 2 (.a ad.toNat) (BitVec.ofInt 40 (x / 2 ^ (-sh.toInt).toNat)) false])

/-- R82, R83, R86, R127, R128: the MAC class with its parallel fetches; the accumulate input takes a
MAC-class result one slot early. -/
def Obligations.MacClassResults : Prop :=
  ∀ (s : State) (e k : Nat) (ad : BitVec 2) (gs gt : BitVec 4) (hs ht : Bool) (x y : Option Fetch),
    Issues s e k → FetchOk s k 1 0 x → FetchOk s k 2 4 y →
    let c := ctxGet s k
    let half := fun (w : Word) (h : Bool) => signed 16 (if h then w.toNat / 65536 else w.toNat)
    let xy := half (gGet c gs.toNat) hs * half (gGet c gt.toNat) ht
    let p := if stFrac c then 2 * xy else xy
    let acc := (aMacGet c ad.toNat).toInt
    GivesMac (.mac e ad gs gt hs ht x y) s k x y (accLeaves c ad.toNat true (acc + p))
    ∧ GivesMac (.msu e ad gs gt hs ht x y) s k x y (accLeaves c ad.toNat true (acc - p))
    ∧ GivesMac (.mpy e ad gs gt hs ht x y) s k x y [dueIn c 2 (.a ad.toNat) (BitVec.ofInt 40 p) true]
    ∧ GivesMac (.aclr e ad x y) s k x y [dueIn c 2 (.a ad.toNat) 0 true]
    ∧ GivesMac (.fet e x y) s k x y []
    ∧ (∀ l v, c.infl = l ++ [⟨c.slot + 1, .a ad.toNat, v, true⟩] → aMacGet c ad.toNat = v)
    ∧ ((∀ f ∈ c.infl, f.reg = .a ad.toNat → f.mac = false) → aMacGet c ad.toNat = aGet c ad.toNat)

/-- R70, R129: local loads: the value is in flight for three slots, a half is extended, LDA takes bits
39:0 of a 64-bit word, and a pointer with MD 1 moves on.

R70, R71, R84, R129: stores to XM and YM: the bytes written, least significant first, the pointer
moved on, and every other byte of memory as before. -/
def Obligations.LocalLoadsAndStores : Prop :=
  (∀ (s : State) (e k pa : Nat) (rd : BitVec 4) (pn : BitVec 3) (md : Bool) (ofs : BitVec 14) (a : Word),
    Issues s e k → isLocal pa = true →
    let c := ctxGet s k
    let gives := fun (i : Instr) (r : RegId) (v : BitVec 40) =>
      ∃ t, exec i s = .next t ∧ (∃ before, (ctxGet t k).infl = before ++ [dueIn c 3 r v false])
        ∧ PointerMoved s t k pn md ∧ t.mem = s.mem
    (Names s k pn md ofs 2 pa a → anyPoison s pa 2 = false →
      gives (.ldh e rd pn md ofs) (.g rd.toNat) ((wordOfInt (signed 16 (memNat s pa 2))).zeroExtend 40)
      ∧ gives (.ldhu e rd pn md ofs) (.g rd.toNat) (BitVec.ofNat 40 (memNat s pa 2)))
    ∧ (Names s k pn md ofs 4 pa a → anyPoison s pa 4 = false → ∀ (cl : BitVec 2) (r : RegId),
      gpmReg cl.toNat rd.toNat = some r → gives (.ldw e rd cl pn md ofs) r (BitVec.ofNat 40 (memNat s pa 4)))
    ∧ (Names s k pn md ofs 8 pa a → anyPoison s pa 8 = false → rd.toNat < 4 →
      gives (.lda e rd pn md ofs) (.a rd.toNat) (BitVec.ofNat 40 (memNat s pa 8))))
  ∧ (∀ (s : State) (e k pa : Nat) (rs : BitVec 4) (cl : BitVec 2) (rnd : Bool) (pn : BitVec 3) (md : Bool)
    (ofs : BitVec 14) (a : Word),
    Issues s e k → isLocal pa = true → localKind (k / 4) pa ≠ 0 →
    let c := ctxGet s k
    let stores := fun (i : Instr) (size v : Nat) =>
      ∃ t, exec i s = .next t ∧ memNat t pa size = v % 2 ^ (8 * size)
        ∧ (∀ b, b < pa ∨ pa + size ≤ b → memByte t b = memByte s b) ∧ PointerMoved s t k pn md
    (Names s k pn md ofs 2 pa a → isPoison s pa = false →
      stores (.sth e rs 0 false pn md ofs) 2 (gGet c rs.toNat).toNat
      ∧ (rs.toNat < 4 → stores (.sth e rs 3 rnd pn md ofs) 2 (acc16 rnd (stRnd c) (aGet c rs.toNat)).1.toNat))
    ∧ (Names s k pn md ofs 4 pa a →
      (∀ r, gpmReg cl.toNat rs.toNat = some r → stores (.stw e rs cl pn md ofs) 4 (regRead c r).toNat)
      ∧ (rs.toNat < 4 → stores (.stw e rs 3 pn md ofs) 4 (acc32 (aGet c rs.toNat)).1.toNat))
    ∧ (Names s k pn md ofs 8 pa a → rs.toNat < 4 →
      stores (.sta e rs pn md ofs) 8 ((aGet c rs.toNat).signExtend 64).toNat))

/-- R75, R76, R97, R131: a far load or an atomic suspends its context with nothing in flight; a far
store takes an entry of the engine's store buffer, or waits for one, and writes nothing yet. -/
def Obligations.FarAccessesIssue : Prop :=
  ∀ (s : State) (e k pa : Nat) (rd rs : BitVec 4) (pn : BitVec 3) (md : Bool) (ofs : BitVec 14) (a : Word),
    Issues s e k → isLocal pa = false →
    let c := ctxGet s k
    let waits := fun (i : Instr) (op : FarOp) =>
      ∃ t, exec i s = .next t ∧ (ctxGet t k).state = .wait (.far op) ∧ t.mem = s.mem ∧ t.csr = s.csr
        ∧ Drained (ctxGet t k)
    (Names s k pn md ofs 2 pa a →
      waits (.ldh e rd pn md ofs) (.load 2 true (.g rd.toNat) a pa (postOf c pn md))
      ∧ waits (.ldhu e rd pn md ofs) (.load 2 false (.g rd.toNat) a pa (postOf c pn md)))
    ∧ (Names s k pn md ofs 4 pa a →
      waits (.ldw e rd 0 pn md ofs) (.load 4 false (.g rd.toNat) a pa (postOf c pn md)))
    ∧ (Names s k pn md ofs 8 pa a → rd.toNat < 4 →
      waits (.lda e rd pn md ofs) (.load 8 false (.a rd.toNat) a pa (postOf c pn md)))
    ∧ (Names s k pn false 0 4 pa a → pa < csrPa →
      waits (.aadd e rd rs pn) (.aadd rd.toNat (gGet c rs.toNat) a pa)
      ∧ waits (.acas e rd rs pn) (.acas rd.toNat (gGet c rd.toNat) (gGet c rs.toNat) a pa))
    ∧ (Names s k pn md ofs 4 pa a → pa < csrPa →
      ((engGet s (k / 4)).buf.length < 16 → ∃ t, exec (.stw e rs 0 pn md ofs) s = .next t
        ∧ (engGet t (k / 4)).buf = (engGet s (k / 4)).buf ++ [⟨k, pa, 4, (gGet c rs.toNat).zeroExtend 64⟩]
        ∧ t.mem = s.mem ∧ t.csr = s.csr)
      ∧ (16 ≤ (engGet s (k / 4)).buf.length → ∃ t, exec (.stw e rs 0 pn md ofs) s = .next t
        ∧ (ctxGet t k).state = .wait (.storeFull ⟨k, pa, 4, (gGet c rs.toNat).zeroExtend 64⟩)
        ∧ t.mem = s.mem))

/-- R75, R76, R103, R131, R146: the end of a far load or an atomic in the memory of a voice grove: the
register written last of all, the word added to or swapped on a match, ST.Z as the match, and the
context READY, or STOPPED when a stop request waited.

R75: the oldest buffered far store of a context to the memory of a voice grove is performed: its
bytes are written, its entry is free, and no other byte changes. -/
def Obligations.FarAccessesReturn : Prop :=
  (∀ (s : State) (k pa : Nat) (a : Word), groveBase 0 ≤ pa → pa + 8 ≤ groveBase 17 →
    storesPending s k = false → Drained (ctxGet s k) →
    let c := ctxGet s k
    let next : CtxState := if c.stopReq then .stopped else .ready
    let old := wordOf (memNat s pa 4)
    (∀ size ext n post, c.state = .wait (.far (.load size ext (.g n) a pa post)) → anyPoison s pa size = false →
      ∃ t, exec (.farLoadReturn k) s = .next t ∧ (ctxGet t k).state = next
        ∧ gGet (ctxGet t k) n = (loadValue size ext (memNat s pa size)).truncate 32 ∧ t.mem = s.mem)
    ∧ (∀ rd v, c.state = .wait (.far (.aadd rd v a pa)) → anyPoison s pa 4 = false →
      ∃ t, exec (.farLoadReturn k) s = .next t ∧ (ctxGet t k).state = next ∧ gGet (ctxGet t k) rd = old
        ∧ memNat t pa 4 = (old + v).toNat ∧ (∀ b, b < pa ∨ pa + 4 ≤ b → memByte t b = memByte s b))
    ∧ (∀ rd cmp new, c.state = .wait (.far (.acas rd cmp new a pa)) → anyPoison s pa 4 = false →
      ∃ t, exec (.farLoadReturn k) s = .next t ∧ (ctxGet t k).state = next ∧ gGet (ctxGet t k) rd = old
        ∧ memNat t pa 4 = (if old = cmp then new else old).toNat
        ∧ (∀ b, b < pa ∨ pa + 4 ≤ b → memByte t b = memByte s b)
        ∧ bitOf (ctxGet t k).st 0 = decide (old = cmp)))
  ∧ (∀ (s : State) (k : Nat) (f : FarStore) (r : List FarStore),
    (engGet s (k / 4)).buf = f :: r → f.ctx = k → f.size = 4 ∨ f.size = 8 → f.pa % f.size = 0 →
    groveBase 0 ≤ f.pa → f.pa + 8 ≤ groveBase 17 → anyPoison s f.pa f.size = false →
    fullWait s (k / 4) = none → s.soft = [] →
    ∃ t, exec (.farStorePerformed k) s = .next t ∧ (engGet t (k / 4)).buf = r
      ∧ memNat t f.pa f.size = f.val.toNat % 2 ^ (8 * f.size)
      ∧ (∀ b, b < f.pa ∨ f.pa + f.size ≤ b → memByte t b = memByte s b)
      ∧ (∀ j, ctxGet t j = ctxGet s j) ∧ t.csr = s.csr)

/-- R132; R91, R133 in part: the branch conditions, and branches with their two delay slots: the target taken on the condition, the link
of CALL and CALLR, and the delay slots annulled only by an untaken branch with AN. -/
def Obligations.BranchResults : Prop :=
  ∀ (s : State) (e k : Nat) (cond rs : BitVec 4) (an : Bool) (ofs : BitVec 20), Issues s e k →
    branchBarred (ctxGet s k) = false → Settled (ctxGet s k) →
    let c := ctxGet s k
    let rel := (wordOfInt ((c.pc : Int) + 4 * ofs.toInt)).toNat
    let t := (gGet c rs.toNat).toNat
    let goes := fun (i : Instr) (p : Pend) (st : State) => exec i s = .next st
      ∧ (ctxGet st k).pend = some p ∧ (ctxGet st k).pc = c.pc + 4 ∧ st.mem = s.mem
    (condHolds cond.toNat c.st = some true → ∃ st, goes (.b e cond an ofs) ⟨2, rel, true, false⟩ st)
    ∧ (condHolds cond.toNat c.st = some false → ∃ st, goes (.b e cond an ofs) ⟨2, c.pc + 12, false, an⟩ st)
    ∧ (∃ st, goes (.call e an ofs) ⟨2, rel, true, false⟩ st ∧ gGet (ctxGet st k) 15 = wordOf (c.pc + 12))
    ∧ (condHolds cond.toNat c.st = some true → t % 4 = 0 →
        ∃ st, goes (.jr e cond an rs) ⟨2, t, true, false⟩ st)
    ∧ (condHolds cond.toNat c.st = some false → t % 4 = 0 → ∃ st, goes (.jr e cond an rs) ⟨2, c.pc + 12, false, an⟩ st)
    ∧ ((gGet c 15).toNat % 4 = 0 → ∃ st, goes (.ret e an) ⟨2, (gGet c 15).toNat, true, false⟩ st)
    ∧ (t % 4 = 0 → ∃ st, goes (.callr e an rs) ⟨2, t, true, false⟩ st
        ∧ gGet (ctxGet st k) 15 = wordOf (c.pc + 12))
    ∧ (∀ st : Word, let z := bitOf st 0; let n := bitOf st 1; let c := bitOf st 2; let v := bitOf st 3
      (List.range 16).map (fun i => condHolds i st) = [some true, some z, some (!z), some c, some (!c), some n,
        some (!n), some v, some (!v), some (c && !z), some (!c || z), some (n == v), some (n != v),
        some (!z && n == v), some (z || n != v), none])

/-- R93, R134: LOOP opens a level with LC the count, LS at LOOP + 12 and LE at LOOP + 12 + 4 × BODY; a
count of zero branches past LE and opens none; at LE with LC above 1 the body restarts and LC falls
by one.

R93: an instruction at LE of the innermost level with LC above 1 goes back to LS with LC one less;
with LC at 1 the level closes and the next word follows. -/
def Obligations.LoopResultsAndEnd : Prop :=
  (∀ (s : State) (e k : Nat) (count : BitVec 16) (body : BitVec 9) (rs : BitVec 4) (far : BitVec 15),
    Issues s e k → branchBarred (ctxGet s k) = false → (ctxGet s k).infl = [] → ldepth (ctxGet s k) < 2 →
    let c := ctxGet s k
    let l := ldepth c
    let opens := fun (i : Instr) (n : Word) (b : Nat) => c.pc + 12 + 4 * b < 0x20000 → c.pc % 4 = 0 →
      ∃ t, exec i s = .next t ∧ ldepth (ctxGet t k) = l + 1 ∧ spGet (ctxGet t k) (1 + 3 * l) = n
        ∧ spGet (ctxGet t k) (2 + 3 * l) = wordOf (c.pc + 12)
        ∧ spGet (ctxGet t k) (3 + 3 * l) = wordOf (c.pc + 12 + 4 * b) ∧ (ctxGet t k).pc = c.pc + 4
    let skips := fun (i : Instr) (b : Nat) => ∃ t, exec i s = .next t ∧ ldepth (ctxGet t k) = l
        ∧ (ctxGet t k).pend = some ⟨2, c.pc + 16 + 4 * b, true, false⟩ ∧ (ctxGet t k).pc = c.pc + 4
    (count ≠ 0 → opens (.loopImmediate e count body) (count.zeroExtend 32) body.toNat)
    ∧ (count = 0 → skips (.loopImmediate e count body) body.toNat)
    ∧ (gGet c rs.toNat ≠ 0 → opens (.loopRegister e rs far) (gGet c rs.toNat) far.toNat)
    ∧ (gGet c rs.toNat = 0 → skips (.loopRegister e rs far) far.toNat))
  ∧ (∀ (s : State) (e k : Nat), Issues s e k → (ctxGet s k).infl = [] → (ctxGet s k).pend = none →
    ldepth (ctxGet s k) = 1 → (spGet (ctxGet s k) 3).toNat = (ctxGet s k).pc →
    let c := ctxGet s k
    ∃ t, exec (.nop e) s = .next t
      ∧ (1 < (spGet c 1).toNat → (ctxGet t k).pc = (spGet c 2).toNat ∧ spGet (ctxGet t k) 1 = spGet c 1 - 1
          ∧ ldepth (ctxGet t k) = 1)
      ∧ ((spGet c 1).toNat ≤ 1 → (ctxGet t k).pc = c.pc + 4 ∧ ldepth (ctxGet t k) = 0))

/-- R75, R98, R100, R136: the system group: NOP, FENCE, HOLD, UNHOLD and YIELD, which passes control to
a READY context of equal or higher priority. -/
def Obligations.SystemGroup : Prop :=
  ∀ (s : State) (e k : Nat), Issues s e k → Settled (ctxGet s k) →
    let c := ctxGet s k
    (∃ t, exec (.nop e) s = .next t ∧ (ctxGet t k).pc = c.pc + 4 ∧ (ctxGet t k).st = c.st ∧ OnlyCtx s t k)
    ∧ (∃ t, exec (.fence e) s = .next t ∧ (ctxGet t k).state = .wait .fence ∧ OnlyCtx s t k)
    ∧ (∃ t, exec (.hold e) s = .next t ∧ stHold (ctxGet t k) = true ∧ (ctxGet t k).pc = c.pc + 4)
    ∧ (∃ t, exec (.unhold e) s = .next t ∧ stHold (ctxGet t k) = false ∧ (ctxGet t k).holdCnt = 0
        ∧ (ctxGet t k).pc = c.pc + 4)
    ∧ (∀ j, nextReady s e (k % 4) = some j → j ≠ k → prioOf s k ≤ prioOf s j →
        ∃ t, exec (.yield e) s = .next t ∧ (ctxGet t k).state = .ready ∧ (ctxGet t k).pc = c.pc + 4
          ∧ (ctxGet t j).state = .running)
    ∧ ((∀ j, nextReady s e (k % 4) = some j → prioOf s j < prioOf s k) →
        ∃ t, exec (.yield e) s = .next t ∧ (ctxGet t k).state = .running ∧ (ctxGet t k).pc = c.pc + 4)

/-- R103, R104: with EXCV_EN 1 and ST.EXL 0, TRAP, the undefined encoding, an atomic at a misaligned
address and a jump, taken or not, through a register that holds one are vectored: EPC, ECAUSE,
EADDR, ETGT and ESTAT are written, ST.EXL is 1, ST.HOLD 0 and the PC is at the vector; a supervisor
becomes privileged.

R106: an exception with EXCV_EN 0, or within a handler, leaves the context in FAULT with its PC at
the exception's EPC.
It speaks of TRAP and the undefined encoding only; EPC of a TRAP is the model's reading (log entry
12). -/
def Obligations.ExceptionEntry : Prop :=
  (∀ (s : State) (e k : Nat) (n : BitVec 16) (w : Word), Issues s e k → Settled (ctxGet s k) → k / 4 = e →
    bitOf (csrGet s (engReg offGroveEngCtl e)) 8 = true → stExl (ctxGet s k) = false →
    branchBarred (ctxGet s k) = false →
    let c := ctxGet s k
    let vec := csrFld s (engReg offGroveEngExcv e) 16 2 * 4
    let enters := fun (i : Instr) (code : Nat) (eaddr : Word) (epc : Nat) =>
      ∃ t, exec i s = .next t ∧ (ctxGet t k).pc = vec ∧ spGet (ctxGet t k) 7 = wordOf epc
        ∧ spGet (ctxGet t k) 8 = wordOf epc ∧ spGet (ctxGet t k) 10 = wordOf code ∧ spGet (ctxGet t k) 11 = eaddr ∧ spGet (ctxGet t k) 9 = c.st
        ∧ stExl (ctxGet t k) = true ∧ stHold (ctxGet t k) = false
        ∧ (stPriv (ctxGet t k) = (stPriv c || isSup e)) ∧ t.mem = s.mem ∧ t.csr = s.csr
    enters (.trap e n) 6 (n.zeroExtend 32) (c.pc + 4)
    ∧ (definedWord w = false → enters (.undefinedInstruction e w) 1 0 c.pc)
    ∧ (∀ pn rd, (pGet c pn.toNat).toNat % 4 ≠ 0 → enters (.aadd e rd rd pn) 2 (pGet c pn.toNat) c.pc)
    ∧ (∀ (cond rs : BitVec 4) (an : Bool), (condHolds cond.toNat c.st).isSome → (gGet c rs.toNat).toNat % 4 ≠ 0 →
        enters (.jr e cond an rs) 2 (gGet c rs.toNat) c.pc))
  ∧ (∀ (s : State) (e k : Nat) (n : BitVec 16) (w : Word), Issues s e k → k / 4 = e →
    (bitOf (csrGet s (engReg offGroveEngCtl e)) 8 = false ∨ stExl (flush (ctxGet s k)) = true) →
    branchBarred (ctxGet s k) = false →
    (∃ t, exec (.trap e n) s = .next t ∧ (ctxGet t k).state = .fault ∧ (ctxGet t k).pc = (ctxGet s k).pc + 4)
    ∧ (definedWord w = false → ∃ t, exec (.undefinedInstruction e w) s = .next t
        ∧ (ctxGet t k).state = .fault ∧ (ctxGet t k).pc = (ctxGet s k).pc))

/-- R105, R135: RTE goes back to EPC, restores ST but CTX from ESTAT, PRIV only when privileged, and
resumes the delay slots ECAUSE counts.
That bits 1:0 of EPC and ETGT are dropped is the model's reading (log entry 157). -/
def Obligations.ReturnFromException : Prop :=
  ∀ (s : State) (e k : Nat), Issues s e k → Settled (ctxGet s k) → stExl (ctxGet s k) = true →
    branchBarred (ctxGet s k) = false →
    let c := ctxGet s k
    ∃ t, exec (.rte e) s = .next t ∧ (ctxGet t k).pc = (spGet c 7).toNat / 4 * 4
      ∧ fld (ctxGet t k).st 14 0 &&& 0x7CCF = fld (spGet c 9) 14 0 &&& 0x7CCF
      ∧ fld (ctxGet t k).st 23 22 = fld (spGet c 9) 23 22 ∧ fld (ctxGet t k).st 21 20 = fld c.st 21 20
      ∧ stPriv (ctxGet t k) = (if stPriv c then bitOf (spGet c 9) 15 else false)
      ∧ (ctxGet t k).pend = (if fld (spGet c 10) 9 8 = 0 then none
          else some ⟨fld (spGet c 10) 9 8, (spGet c 8).toNat / 4 * 4, true, false⟩)
      ∧ t.mem = s.mem ∧ t.csr = s.csr

/-- R137, R138, R140, R141: TAKE, DONE, SIGNAL and WAITEVT as they issue: a service end waits for the
context's far stores, a full target holds the sender, a held entry comes back at once, and with no stop
request TAKE and, without an entry, WAITEVT wait.

R138, R140, R141, R156, R172, R173: the ends of the waits of SIGNAL, DONE, TAKE and WAITEVT: an operand
joins the oldest OPEN instance of its key, else opens one at level NORMAL, and waits on; a stop request
that came during TAKE's service end stops the context without a task (log entry 161). -/
def Obligations.DispatcherInstructions : Prop :=
  (∀ (s : State) (e k : Nat) (mask : BitVec 8) (gt gv : BitVec 4) (tmo : BitVec 12), Issues s e k →
    let c := ctxGet s k
    let w := gGet c gt.toNat
    let v := gGet c gv.toNat
    let j := targetCtx w
    let sender := wordOf (k / 32 + k / 4 % 8 * 32 + k % 4 * 256)
    let st := fun (t : State) => (ctxGet t k).state
    (mask ≠ 0 → c.task = none ∨ storesPending s k = false → c.stopReq = false →
      ∃ t, exec (.take e mask) s = .next t
        ∧ st t = .wait (.take mask.toNat s.disp.takeSeq) ∧ (ctxGet t k).task = none
        ∧ t.disp.takeSeq = s.disp.takeSeq + 1)
    ∧ (mask ≠ 0 → c.task ≠ none → storesPending s k = true → ∃ t, exec (.take e mask) s = .next t
        ∧ st t = .wait (.takeEnd mask.toNat) ∧ (ctxGet t k).task = c.task)
    ∧ (storesPending s k = false → ∃ t, exec (.done e) s = .next t ∧ (ctxGet t k).task = none
        ∧ st t = .running)
    ∧ (storesPending s k = true → ∃ t, exec (.done e) s = .next t ∧ st t = .wait (.done none)
        ∧ (ctxGet t k).task = c.task)
    ∧ (storesPending s k = false → isKind1 w = true → undeliverable s w = none → j ≠ k →
      ((ctxGet s j).sigq.length < 16 →
        (∃ t, exec (.signal e gt gv) s = .next t ∧ (ctxGet t j).sigq = (ctxGet s j).sigq ++ [(sender, v)]
          ∧ st t = .running)
        ∧ (∃ t, exec (.doneDeliver e gt gv) s = .next t
          ∧ (ctxGet t j).sigq = (ctxGet s j).sigq ++ [(sender, v)] ∧ (ctxGet t k).task = none
          ∧ st t = .running))
      ∧ (16 ≤ (ctxGet s j).sigq.length →
        (∃ t, exec (.signal e gt gv) s = .next t ∧ st t = .wait (.signal w v))
        ∧ (∃ t, exec (.doneDeliver e gt gv) s = .next t ∧ st t = .wait (.done (some (w, v)))
          ∧ (ctxGet t k).task = c.task)))
    ∧ (∀ g0 g1 r, c.sigq = (g0, g1) :: r → ∃ t, exec (.waitevt e tmo) s = .next t
        ∧ gGet (ctxGet t k) 0 = g0 ∧ gGet (ctxGet t k) 1 = g1 ∧ (∃ more, (ctxGet t k).sigq = r ++ more)
        ∧ st t = .running)
    ∧ (c.sigq = [] → c.stopReq = false → ∃ t, exec (.waitevt e tmo) s = .next t
        ∧ st t = .wait (.waitEvt (if tmo = 0 then none else some (s.time.nfn.toNat + tmo.toNat)))))
  ∧ (∀ (s : State) (k : Nat),
    let c := ctxGet s k
    let next : CtxState := if c.stopReq then .stopped else .ready
    let sender := wordOf (k / 32 + k / 4 % 8 * 32 + k % 4 * 256)
    let st := fun (t : State) => (ctxGet t k).state
    (∀ w v, c.state = .wait (.signal w v) ∨ c.state = .wait (.done (some (w, v))) → storesPending s k = false →
      undeliverable s w = none →
      let ch := fld w 15 0
      let tm := fld w 23 16
      let i := fld w 25 24
      (isKind1 w = true → targetCtx w ≠ k → (ctxGet s (targetCtx w)).sigq.length < 16 →
        ∃ t, exec (.operandPlace k) s = .next t ∧ st t = next
          ∧ (ctxGet t (targetCtx w)).sigq = (ctxGet s (targetCtx w)).sigq ++ [(sender, v)])
      ∧ (isKind1 w = false →
        (∀ x, joinInst s ch tm i = some x → ∃ t, exec (.operandPlace k) s = .next t ∧ st t = next
          ∧ ∃ y ∈ t.disp.insts, y.entry = x.entry ∧ y.val = (slotPut (tMode (tmplA s tm) i) i v x).val)
        ∧ (joinInst s ch tm i = none → bpLevel s = 0 → ∃ t, exec (.operandPlace k) s = .next t ∧ st t = next
          ∧ ∃ y ∈ t.disp.insts, y.chan = ch ∧ y.tmpl = tm
            ∧ y.val = (List.replicate 4 none).set i (some v))
        ∧ (joinInst s ch tm i = none → bpLevel s ≠ 0 → exec (.operandPlace k) s = .next s)))
    ∧ (c.state = .wait (.done none) → storesPending s k = false →
      ∃ t, exec (.doneComplete k) s = .next t ∧ st t = next ∧ (ctxGet t k).task = none)
    ∧ (∀ mask, c.state = .wait (.takeEnd mask) → storesPending s k = false →
      (c.stopReq = false → ∃ t, exec (.doneComplete k) s = .next t ∧ st t = .wait (.take mask s.disp.takeSeq)
        ∧ (ctxGet t k).task = none)
      ∧ (c.stopReq = true → ∃ t, exec (.doneComplete k) s = .next t ∧ st t = .stopped
        ∧ (ctxGet t k).task = none ∧ gGet (ctxGet t k) 0 = 0xFFFFFFFF#32))
    ∧ (∀ lim g0 g1 r, c.state = .wait (.waitEvt lim) → c.sigq = (g0, g1) :: r →
      ∃ t, exec (.waitevtWake k) s = .next t ∧ st t = next ∧ gGet (ctxGet t k) 0 = g0
        ∧ gGet (ctxGet t k) 1 = g1 ∧ (∃ more, (ctxGet t k).sigq = r ++ more))
    ∧ (∀ lim, c.state = .wait (.waitEvt (some lim)) → c.sigq = [] → lim ≤ s.time.nfn.toNat →
      ∃ t, exec (.waitevtTimeout k) s = .next t ∧ st t = next ∧ gGet (ctxGet t k) 0 = 0xFFFFFFFF#32
        ∧ gGet (ctxGet t k) 1 = 0))

/-- R138, R166, R167: a HELD instance goes on its list in order and within the list's limit, and the
chosen task is handed to the longest waiting context: G0 to G7 describe it and its entry is free.

R162, R164, R169, R176, R178: a timer with a KIND 1 target fires into its signal queue, DISP_FREE
ends the service of a stopped context, DISP_PURGE frees a channel's instances, an uncorrectable entry
is freed and counted, and the deadlock detector reports once after eight ticks. -/
def Obligations.TasksAndServices : Prop :=
  ((∀ (s : State) (n : Nat) (x : Inst), s.disp.insts.find? (fun y => y.entry == n) = some x →
    mayList s x = true →
    (∀ y ∈ s.disp.insts, y.entry = n ∨ tList (tmplA s y.tmpl) ≠ tList (tmplA s x.tmpl) ∨ mayList s y = false
      ∨ x.readySeq < y.readySeq) →
    ∃ t, exec (.instanceList n) s = .next t ∧ { x with state := .listed } ∈ t.disp.insts
      ∧ t.disp.insts.length = s.disp.insts.length ∧ t.core = s.core ∧ t.mem = s.mem)
  ∧ (∀ (s : State) (k : Nat) (x : Inst), nextHand s = some (k, x) →
    let a := tmplA s x.tmpl
    let late := pastDeadline s (tClass a) x.readyNfn
    ∃ t, exec .taskHand s = .next t
      ∧ (ctxGet t k).state = (if (ctxGet s k).stopReq then .stopped else .ready)
      ∧ gGet (ctxGet t k) 0 = wordOf (x.entry + x.tmpl * 65536 + fld a 3 0 * 16777216 + fld a 18 16 * 268435456
          + (if late then 2147483648 else 0))
      ∧ gGet (ctxGet t k) 1 = wordOf x.chan
      ∧ gGet (ctxGet t k) 2 = wordOf x.readyNfn.toNat
      ∧ gGet (ctxGet t k) 3 = wordOf (x.readyNfn.toNat / 4294967296)
      ∧ (∀ i, i < 4 → gGet (ctxGet t k) (4 + i) = (x.val.getD i none).getD 0)
      ∧ (ctxGet t k).task = some ⟨x.chan, x.tmpl, x.entry, tList a, tClass a, tAtom a, x.readyNfn⟩
      ∧ (∀ y ∈ t.disp.insts, y.entry ≠ x.entry) ∧ (∀ j, j ≠ k → ctxGet t j = ctxGet s j)))
  ∧ ((∀ (s : State) (n : Nat), timerDue s n = true →
    let w := csrGet s (offDispTmrTgt + 0x10 * n)
    undeliverable s w = none → isKind1 w = true → (ctxGet s (targetCtx w)).sigq.length < 16 →
    timerHeld s n = false →
    ∃ t, exec (.timerFire n) s = .next t ∧ (ctxGet t (targetCtx w)).sigq
      = (ctxGet s (targetCtx w)).sigq ++ [(wordOf (0x8103 + n * 65536), wordOf s.time.nfn.toNat)])
  ∧ (∀ (s : State) (w : Word), fld w 4 0 ≤ 16 → engPresent s (freeCtx w / 4) = true →
    let c := ctxGet s (freeCtx w)
    let ends := fun (code : Nat) (t : State) =>
      exec (.taskFree w) s = .next t ∧ csrGet t offDispFreeStat = wordOf (0x80000000 + code)
    (c.state = .stopped ∨ c.state = .fault → c.task ≠ none →
      ∃ t, ends 0 t ∧ (ctxGet t (freeCtx w)).task = none)
    ∧ (c.state = .stopped ∨ c.state = .fault → c.task = none → ∃ t, ends 2 t ∧ t.core = s.core)
    ∧ (c.state ≠ .stopped → c.state ≠ .fault → ∃ t, ends 1 t ∧ t.core = s.core))
  ∧ (∀ (s : State) (n : Nat), n < 16384 → (relGet s n).en = false →
    ∃ t, exec (.channelPurge n) s = .next t ∧ (∀ x ∈ t.disp.insts, x.chan ≠ n)
      ∧ csrGet t offDispPurgeStat
          = wordOf (0x80000000 + (s.disp.insts.filter fun x => x.chan == n).length))
  ∧ (∀ (s : State) (n : Nat), n < 65536 →
    ∃ t, exec (.matchingStoreError n) s = .next t ∧ (∀ x ∈ t.disp.insts, x.entry ≠ n)
      ∧ cntGet t offDispMserr = cntGet s offDispMserr + 1 ∧ bitOf (csrGet t offDevFsum) 3 = true)
  ∧ (∀ s : State, csrFld s offDispCtl 31 31 = 1 → s.disp.blocked ≠ [] → s.disp.dlkDirty = false →
    s.disp.dlk = false → s.disp.dlkT + 8 ≤ s.time.ticks →
    ∃ t, exec .deadlockDetect s = .next t ∧ t.disp.dlk = true ∧ t.disp.insts = s.disp.insts ∧ t.core = s.core))

/-- R152: the three template commands: an install of a well-formed template that no other use holds,
the read of an installed one, its removal, and the codes of the refusals. -/
def Obligations.TemplateCommands : Prop :=
  ∀ s : State,
    let t := csrFld s offDispTmplSel 7 0
    let a := csrGet s offDispTmplA
    let b := csrGet s offDispTmplB
    let ends := fun (i : Instr) (code : Nat) (u : State) =>
      exec i s = .next u ∧ csrGet u offDispTmplStat = wordOf (0x80000000 + code)
    (t ≠ 255 → fld a 7 4 ≠ 0 → fld a 7 4 &&& fld a 3 0 = fld a 7 4 →
      (∀ i, i < 4 → (fld a 3 0).testBit i = true → (fld a 7 4).testBit i = false → 2 ≤ tMode a i) →
      tmplGet s t = none → (∃ g, g < 17 ∧ bitOf b g = true ∧ grovePresent s g = true) →
      ∃ u, ends .tmplInstall 0 u ∧ tmplGet u t = some (a, b) ∧ u.core = s.core ∧ u.mem = s.mem)
    ∧ (t ≠ 255 → ∀ x, tmplGet s t = some x → ∃ u, ends .tmplRead 0 u ∧ csrGet u offDispTmplA = x.1
        ∧ csrGet u offDispTmplB = x.2 ∧ u.disp = s.disp)
    ∧ (t ≠ 255 → tmplGet s t ≠ none → tmplInUse s t = false →
        ∃ u, ends .tmplRemove 0 u ∧ tmplGet u t = none ∧ ∀ n, n ≠ t → tmplGet u n = tmplGet s n)
    ∧ (t = 255 → ∃ u v w, ends .tmplInstall 1 u ∧ ends .tmplRead 1 v ∧ ends .tmplRemove 1 w
        ∧ u.disp = s.disp ∧ v.disp = s.disp ∧ w.disp = s.disp)
    ∧ (t ≠ 255 → tmplGet s t = none → ∃ v w, ends .tmplRead 6 v ∧ ends .tmplRemove 6 w ∧ w.disp = s.disp)
    ∧ (t ≠ 255 → fld a 7 4 = 0 → ∃ u, ends .tmplInstall 2 u ∧ u.disp = s.disp)

/-- R75, R98–R101, R108: how contexts start, stop and change: the READY context of the highest priority
runs, HOLD holds a stop off and is limited, a PC is written only while stopped, and FENCE ends with the
context's far stores.

R108, R109: GROVE_LD_CTL.GO with parameters that no check refuses starts the transfer and sets BUSY;
its end moves the bytes from heartwood into a local memory and clears BUSY. -/
def Obligations.ContextControlAndLoads : Prop :=
  (∀ (s : State) (e c : Nat), c < 4 →
    let k := 4 * e + c
    let x := ctxGet s k
    (runningOf s e = none → ∀ j, nextReady s e (engGet s e).left = some j →
      ∃ t, exec (.contextSwitch e) s = .next t ∧ (ctxGet t j).state = .running ∧ t.mem = s.mem ∧ t.csr = s.csr)
    ∧ (runningOf s e = some k → stHold x = false → x.stopReq = false →
      ∀ j, nextReady s e (k % 4) = some j → prioOf s k < prioOf s j → j ≠ k →
      ∃ t, exec (.contextSwitch e) s = .next t ∧ (ctxGet t k).state = .ready ∧ (ctxGet t j).state = .running)
    ∧ (runningOf s e = some k → stHold x = true → holdLimit s e < x.holdCnt → Settled x →
      ∃ t, exec (.holdTimeout e) s = .next t ∧ stHold (ctxGet t k) = false
        ∧ (bitOf (csrGet s (engReg offGroveEngCtl e)) 8 = true → stExl x = false →
            spGet (ctxGet t k) 10 = 5 ∧ spGet (ctxGet t k) 7 = wordOf x.pc))
    ∧ (engPresent s e = true → clockGated s e = false → x.state = .stopped ∨ x.state = .fault →
      ∃ t, exec (.contextStart e c) s = .next t ∧ (ctxGet t k).state = .ready ∧ (ctxGet t k).pc = pcShown e x.pc
        ∧ ∀ j, j ≠ k → ctxGet t j = ctxGet s j)
    ∧ (x.state = .ready ∨ (x.state = .running ∧ stHold x = false) →
      ∃ t, exec (.contextStop e c) s = .next t ∧ (ctxGet t k).state = .stopped ∧ (ctxGet t k).pc = x.pc)
    ∧ (x.state = .running → stHold x = true →
      ∃ t, exec (.contextStop e c) s = .next t ∧ (ctxGet t k).state = .running ∧ (ctxGet t k).stopReq = true)
    ∧ (∀ v, engPresent s e = true → x.state = .stopped ∨ x.state = .fault → ∃ t, exec (.pcWrite e c v) s = .next t
        ∧ (ctxGet t k).pc = v.toNat / 4 * 4 % pmSize e ∧ (ctxGet t k).state = x.state ∧ t.mem = s.mem)
    ∧ (x.state = .wait .fence → storesPending s k = false →
      ∃ t, exec (.fenceComplete e c) s = .next t
        ∧ (ctxGet t k).state = (if x.stopReq then .stopped else .ready)))
  ∧ (∀ (s : State) (g : Nat), g < 17 → grovePresent s g = true →
    (∀ (v : Word) (x : LoadXfer), smapGet none s.core.load g = none →
      x = ⟨csrGet s (groveReg offGroveLdSrc g), csrGet s (groveReg offGroveLdDst g),
        csrFld s (groveReg offGroveLdLen g) 19 0, bitOf v 9, bitOf v 8, 8 * g + fld v 2 0⟩ →
      x.len ≠ 0 → ldCode s g x = 0 →
      ∃ t, exec (.loadUnitGo g v) s = .next t ∧ smapGet none t.core.load g = some x
        ∧ bitOf (csrGet t (groveReg offGroveLdStat g)) 0 = true ∧ t.mem = s.mem)
    ∧ (∀ (src dst : Word) (len e d a : Nat), smapGet none s.core.load g = some ⟨src, dst, len, false, false, e⟩ →
      src.toNat = a → hwBase ≤ a → a + len ≤ hwEnd → dst.toNat = d → 0x10000 ≤ d → d + len ≤ 0x30000 →
      d % 4 = 0 → len % 4 = 0 → 0 < len → engPresent s e = true → ldBad s a len = none →
      ∃ t, exec (.loadUnitDone g) s = .next t ∧ smapGet none t.core.load g = none
        ∧ csrGet t (groveReg offGroveLdStat g) = 2
        ∧ memBytes t (localBase e + d) len = memBytes s a len ∧ ∀ k, ctxGet t k = ctxGet s k))

/-- R142, R144: CPX takes an entry of its unit's queue, behind which none of unknown code stands, and sets C, or clears C on a full queue; MFC and
MTC move one register of a stopped context of the engine in privileged state, and clear C otherwise. -/
def Obligations.CoprocessorAndPrivilegedMoves : Prop :=
  ∀ (s : State) (e k : Nat) (rg rn : BitVec 4) (ga cx : BitVec 2), Issues s e k → Settled (ctxGet s k) →
    let c := ctxGet s k
    let w := fun i => gGet c (4 * ga.toNat + i)
    let j := 4 * e + cx.toNat
    let cmd : UnitCmd := ⟨w 0, w 1, w 2, w 3, k, isSup (k / 4) && stPriv c⟩
    let ends := fun (i : Instr) (carry : Bool) (t : State) => exec i s = .next t
      ∧ bitOf (ctxGet t k).st 2 = carry ∧ (ctxGet t k).pc = c.pc + 4
    (ga ≠ 3 → (engGet s (k / 4)).buf = [] →
      (s.eca.unit.q.length < 512 → (∀ x, s.eca.unit.q.head? = some x → ecaKnown x = true) → 1 ≤ fld (w 0) 7 0 → fld (w 0) 7 0 ≤ 6 →
        ∃ t, ends (.cpx e 0 ga) true t ∧ t.eca.unit.q = s.eca.unit.q ++ [cmd])
      ∧ (s.rsf.unit.q.length < 256 → (∀ x, s.rsf.unit.q.head? = some x → rsfKnown x = true) → 1 ≤ fld (w 0) 7 0 → fld (w 0) 7 0 ≤ 7 →
        ∃ t, ends (.cpx e 1 ga) true t ∧ t.rsf.unit.q = s.rsf.unit.q ++ [cmd])
      ∧ (s.ciph.unit.q.length < 256 → (∀ x, s.ciph.unit.q.head? = some x → ciphKnown x = true) → 1 ≤ fld (w 0) 7 0 → fld (w 0) 7 0 ≤ 7 →
        ∃ t, ends (.cpx e 2 ga) true t ∧ t.ciph.unit.q = s.ciph.unit.q ++ [cmd])
      ∧ (512 ≤ s.eca.unit.q.length → ∃ t, ends (.cpx e 0 ga) false t ∧ t.eca = s.eca)
      ∧ (256 ≤ s.ciph.unit.q.length → ∃ t, ends (.cpx e 2 ga) false t ∧ t.ciph = s.ciph))
    ∧ (isSup (k / 4) = true → stPriv c = true → ∀ (cl : BitVec 3) (r : RegId),
      gpmReg cl.toNat rn.toNat = some r →
      (mfcAllowed s k j = true →
        (∃ t, ends (.mfc e rg cl rn cx) true t ∧ gGet (ctxGet t k) rg.toNat = regRead (ctxGet s j) r)
        ∧ (∃ t, ends (.mtc e rg cl rn cx) true t ∧ regRead (ctxGet t j) r = gGet c rg.toNat))
      ∧ (mfcAllowed s k j = false →
        (∃ t, ends (.mfc e rg cl rn cx) false t ∧ gGet (ctxGet t k) rg.toNat = 0)
        ∧ (∃ t, ends (.mtc e rg cl rn cx) false t ∧ ∀ n, n ≠ k → ctxGet t n = ctxGet s n)))
    ∧ (isSup (k / 4) = false ∨ stPriv c = false → stExl c = false →
      bitOf (csrGet s (engReg offGroveEngCtl (k / 4))) 8 = true → ∀ (cl : BitVec 3) (r : RegId),
      gpmReg cl.toNat rn.toNat = some r →
      (∃ t, exec (.mfc e rg cl rn cx) s = .next t ∧ spGet (ctxGet t k) 10 = 1 ∧ spGet (ctxGet t k) 7 = wordOf c.pc)
      ∧ (∃ t, exec (.mtc e rg cl rn cx) s = .next t ∧ spGet (ctxGet t k) 10 = 1))

/-- R193, R208–R211: the ECA, which holds no completion, runs the command at the head of its queue on an
idle cluster, where no unknown command stands behind it: BLOCK on an
initialised record of the command's channel, or code 0x0A for a block number out of range, INIT,
SAVE, RESTORE, RESET and SETCFG; each leaves its completion to be delivered.
Order of refusal codes: log entry 101. Free quantities of a block: log entry 24.

R210: an ECA command on a record past the region, of another channel or not initialised changes no
memory and completes with codes 0x02, 0x04 and 0x03. -/
def Obligations.EcaCommands : Prop :=
  (∀ (s : State) (c : UnitCmd) (r : List UnitCmd) (k : Nat) (h : EcRef),
    ecaFree s = some k → s.eca.unit.q = c :: r → (∀ x, r.head? = some x → ecaKnown x = true) →
    ecaFieldsOk c = true →
    let ends := fun (i : Instr) (code info : Nat) (t : State) => exec i s = .next t
      ∧ t.eca.unit.q = r ∧ t.eca.busy = s.eca.busy ++ [k]
      ∧ t.eca.unit.done = s.eca.unit.done
          ++ [⟨c.w1, wordOf (code + 0x400 + info * 65536), ecaKey s c⟩]
    let e := ecOf (ecHeadBytes s h) (ecTailBytes s h)
    let a := c.w3.toNat
    let n := 2 * ecBlockLen h.mode
    let found := ecaFind s c = (0, h)
    (cmdCode c = 1 → found → a % 8 = 0 → inHeartwood a n = true →
      (a + n ≤ ecAddr s 0 ∨ ecAddr s (ecCount s) ≤ a) →
      (∀ d, ecBlock (ecRegs s (cmdFlags c)) e (fld c.w2 31 16) (samplesOf (memBytes s a n)) s.free = some d →
        ∃ t, ends .ecaBlock 0 d.info t ∧ cntGet t offEcaBlk = cntGet s offEcaBlk + 1)
      ∧ (ecBlock (ecRegs s (cmdFlags c)) e (fld c.w2 31 16) (samplesOf (memBytes s a n)) s.free = none →
        ∃ t, ends .ecaBlock 10 0 t ∧ t.mem = s.mem))
    ∧ (cmdCode c = 2 → fld c.w2 15 0 < ecCount s → fld c.w3 2 0 = 1 → fld c.w2 31 16 = 0 → ecCfgOk c.w3 = true →
      ∃ t, ends .ecaInit 0 0 t
        ∧ t.mem = (memWrite s (ecAddr s (fld c.w2 15 0)) (ecFresh (fld c.w2 15 0) 0x4543 (fld c.w0 31 16) c.w3 0 true)).mem)
    ∧ (cmdCode c = 3 → found → ecAreaOk s h a = true → h.mode = 1 →
      ∃ t, ends .ecaSave 0 0 t ∧ memBytes t a 0x1000 = memBytes s (ecAddr s h.r) 0x1000
        ∧ (∀ b, b < a ∨ a + 0x1000 ≤ b → memByte t b = memByte s b))
    ∧ (cmdCode c = 4 → found → ecAreaOk s h a = true → anyPoison s a 0x1000 = false → h.mode = 1 →
      let head := memBytes s a 0x1000
      let st := wordOf (leAt head 0xE2C 4)
      leAt head 0xE00 2 = 0x4543 → fld (wordOf (leAt head 0xE04 4)) 2 0 = 1 → leAt head 0xE08 2 = 0 →
      leAt head 0xE02 2 = fld c.w0 31 16 → fld st 1 0 ≠ 3 → fld st 31 8 = 0 →
      winsOk 1 [leAt head 0xE10 2, leAt head 0xE18 2, leAt head 0xE20 2] = true →
      ∃ t, ends .ecaRestore 0 0 t ∧ t.mem = (memWrite s (ecAddr s h.r)
        (putAll head [(0xE2C, leBytes 4 (setBit st 7 true).toNat), (0xE74, zeros 4)])).mem)
    ∧ (cmdCode c = 5 → found → ∃ t, ends .ecaReset 0 0 t
        ∧ t.mem = (ecPut s h { e with wins := e.wins.map fun _ => noWin, bins := e.bins.map fun _ => 0, conv := 0,
                                      convCnt := 0, tones := { e.tones with since := 0 } }).mem)
    ∧ (cmdCode c = 6 → found → ecCfgOk c.w3 = true → fld c.w3 2 0 = h.mode → e.tone ≠ 2 →
      ∃ t, ends .ecaSetcfg 0 0 t
        ∧ t.mem = (ecPut s h { e with cfg := c.w3, tone := if bitOf c.w3 6 then e.tone else 0 }).mem))
  ∧ (∀ (s : State) (c : UnitCmd) (r : List UnitCmd) (k : Nat) (h : EcRef),
    ecaFree s = some k → s.eca.unit.q = c :: r → (∀ x, r.head? = some x → ecaKnown x = true) →
    ecaFieldsOk c = true →
    ∀ code, (code = 2 ∨ code = 3 ∨ code = 4) → ecaFind s c = (code, h) →
    ∀ i, (cmdCode c, i) ∈ [(1, Instr.ecaBlock), (3, .ecaSave), (4, .ecaRestore), (5, .ecaReset), (6, .ecaSetcfg)] →
    ∃ t, exec i s = .next t ∧ t.eca.unit.q = r ∧ t.mem = s.mem ∧ (s.soft = [] → t.csr = s.csr)
      ∧ t.eca.unit.done = s.eca.unit.done ++ [⟨c.w1, wordOf (code + 0x400), ecaKey s c⟩])

/-- R221, R240–R244: the RSF, which holds no completion, runs the command at the head of its queue on an
idle pipe, where no unknown command stands behind it: INIT, RUN, LOADBANK, SETDELAY, SETRATIO, SAVE and RESTORE on a state block of the command's channel, each with
its completion; RUN ends with code 0x08 where its output goes to a record that does not take it.

R143, R173: a completion whose target is a context with room in its signal queue is delivered as
one entry that names the unit, and leaves its unit, where no unknown command then begins. -/
def Obligations.RsfCommandsAndCompletions : Prop :=
  (∀ (s : State) (c : UnitCmd) (r : List UnitCmd) (k : Nat),
    rsfFree s = some k → s.rsf.unit.q = c :: r → (∀ x, r.head? = some x → rsfKnown x = true) →
    rsfFieldsOk c = true → blockAddrOk s c.w2.toNat = true →
    let a := c.w2.toNat
    let w := c.w3.toNat
    let x := chainOf (memBytes s a 1024)
    let good := firstBad s a 1024 = none ∧ x.magic = 0x5253 ∧ x.owner = fld c.w0 31 16
    let ends := fun (i : Instr) (t : State) => exec i s = .next t
      ∧ t.rsf.unit.q = r ∧ t.rsf.unit.done = s.rsf.unit.done ++ [⟨c.w1, 0x500#32, a⟩]
      ∧ t.rsf.busy = s.rsf.busy ++ [k]
    let leaves := fun (i : Instr) (y : Chain) => ∃ t, ends i t ∧ t.mem = (memWrite s a (chainBytes y)).mem
    let hdr := memBytes s w 16
    let nin := leAt hdr 0 2
    (cmdCode c = 1 → good → w % 16 = 0 → nin ≤ 480 → byteAt hdr 2 < 16 → byteAt hdr 3 < outN x.cfg →
      inHeartwood w (16 + 2 * nin) = true →
      (if (byteAt hdr 2).testBit 2 then bankEmpty (bankOf x (1 - x.active)) = false else byteAt hdr 3 = 0) →
      let e := ecRefOf s (fld x.dest 15 0)
      let takes := fld x.dest 15 0 < ecCount s ∧ ecMagic s (fld x.dest 15 0) = 0x4543 ∧ e.owner = x.owner
        ∧ (outN x.cfg = 40 ∧ (e.mode = 1 ∨ e.mode = 2) ∨ outN x.cfg = 80 ∧ e.mode = 4)
      let runs := fun (code : Nat) => ∃ t, exec .rsfRun s = .next t ∧ t.rsf.unit.q = r
        ∧ cntGet t offRsfRun = cntGet s offRsfRun + 1
        ∧ ∃ ops info, t.rsf.unit.done
            = s.rsf.unit.done ++ ops ++ [⟨c.w1, wordOf (code + 0x500 + info * 65536), a⟩]
      (destRec x.cfg = false → runs 0) ∧ (destRec x.cfg = true →
        meets (regionOf s offDevHwlEc) (regionOf s offDevHwlCell) = false → (takes → runs 0) ∧ (¬ takes → runs 8)))
    ∧ (cmdCode c = 2 → rsfImage w 1024 1024 = true → anyPoison s w 1024 = false →
      chainOk (chainOf (memBytes s w 1024)) = true →
      leaves .rsfInit (chainInit s (fld c.w0 31 16) (chainOf (memBytes s w 1024))))
    ∧ (cmdCode c = 3 → good → rsfImage w 8 184 = true → anyPoison s w 184 = false → x.xfkind ≠ 1 →
      bankOk x.cfg (memBytes s w 184) = true → leaves .rsfLoadbank (if x.active = 0
        then { x with bankB := memBytes s w 184 } else { x with bankA := memBytes s w 184 }))
    ∧ (cmdCode c = 4 → good → w ≤ 39 → leaves .rsfSetdelay { x with
        delayNew := w, flags := x.flags % 4 + 4 + (if (cmdFlags c).testBit 0 then 8 else 0) })
    ∧ (cmdCode c = 5 → good → leaves .rsfSetratio { x with
        trim := clampInt (-(trimLimit s)) (trimLimit s) c.w3.toInt, anchor := false })
    ∧ (cmdCode c = 6 → good → rsfImage w 1024 1024 = true → ∃ t, ends .rsfSave t
        ∧ memBytes t w 1024 = memBytes s a 1024
        ∧ (∀ b, b < w ∨ w + 1024 ≤ b → memByte t b = memByte s b))
    ∧ (cmdCode c = 7 → rsfImage w 1024 1024 = true → anyPoison s w 1024 = false →
      let y := chainOf (memBytes s w 1024)
      let z := chainStep s { y with nomstep := nomStep y.cfg, wprev := 0, anchor := false } true
      y.magic = 0x5253 → y.owner = fld c.w0 31 16 → chainOk y = true → ∃ t, ends .rsfRestore t
        ∧ t.mem = (memWrite s a (putAll (memBytes s w 1024) (restorePuts z))).mem))
  ∧ (∀ (s : State) (x : Completion) (r : List Completion),
    let j := targetCtx x.target
    let arrives := fun (i : Instr) (unit : Nat) (t : State) => exec i s = .next t
      ∧ (ctxGet t j).sigq = (ctxGet s j).sigq ++ [(wordOf (0x8000 + unit), x.value)] ∧ t.mem = s.mem
    x.target ≠ 0xFFFFFFFF#32 → isKind1 x.target = true → undeliverable s x.target = none →
    (ctxGet s j).sigq.length < 16 →
    (s.eca.unit.done = x :: r → (∀ y, s.eca.unit.q.head? = some y → ecaKnown y = true) → ∃ t, arrives (.ecaCompletionDeliver 0) 4 t ∧ t.eca.unit.done = r
        ∧ t.eca.busy = s.eca.busy.tail)
    ∧ (s.rsf.unit.done = x :: r → (∀ y, s.rsf.unit.q.head? = some y → rsfKnown y = true) → ∃ t, arrives (.rsfCompletionDeliver 0) 5 t ∧ t.rsf.unit.done = r
        ∧ t.rsf.busy = s.rsf.busy.tail)
    ∧ (s.ciph.unit.done = x :: r → (∀ y, s.ciph.unit.q.head? = some y → ciphKnown y = true) → ∃ t, arrives (.ciphCompletionDeliver 0) 13 t ∧ t.ciph.unit.done = r)
    ∧ (∀ y q, s.cruc.done = y :: q → (∀ x ∈ s.cruc.q, crucKnown x = true) → y.queue ≠ 2 → crucInOrder s y = true → y.target = x.target → y.value = x.value →
        ∃ t, arrives (.crucCompletionDeliver 0) 14 t ∧ t.cruc.done = q))

/-- R344, R347, R351, R353, R356: packet requests of the cipher engine on a slot that serves them: the
transform's completion, its packet counted, the send index one higher, a parity error that puts the slot
in FAULT, and the refusals of an empty slot and of one in FAULT.  The engine holds no completion, and no
unknown command stands behind the request.

R344, R352: the packet engine's own request: an accepted packet goes to its channel's queue and
counts; one that a slot refuses is discarded.
Order of refusal codes: log entry 67. -/
def Obligations.CipherPackets : Prop :=
  (∀ (s : State) (c : UnitCmd) (r : List UnitCmd), ciphHeld s = false → s.ciph.unit.q = c :: r →
    (∀ x, r.head? = some x → ciphKnown x = true) →
    fld c.w0 15 8 = 0 → fld c.w2 31 30 = 0 →
    let k := fld c.w3 15 0
    let v := keySlotGet s k
    let pkt := (itemBytes s (itemOf c.w2)).drop 16
    let ends := fun (i : Instr) (code info : Nat) (t : State) => exec i s = .next t
      ∧ t.ciph.unit.q = r
      ∧ t.ciph.unit.done = s.ciph.unit.done ++ [⟨c.w1, wordOf (code + 0xD00 + info * 65536), k⟩]
    let serves := fun (send : Bool) (grow : Nat) => k ≤ 32767 ∧ k ∉ s.ciph.parity ∧ slotCode s k (fld c.w0 31 16) send = 0
      ∧ itemCode s c.w2 = 0 ∧ hasRoom s (itemOf c.w2) grow = true ∧ 16 ≤ (itemBytes s (itemOf c.w2)).length
    (cmdCode c = 1 → serves true 16 → (protect v pkt).code = 0 →
      ∃ t, ends (.ciphProtect false) 0 (v.idx % 65536) t ∧ cntGet t offCiphProt = cntGet s offCiphProt + 1
        ∧ (keySlotGet t k).idx = v.idx + 1)
    ∧ (cmdCode c = 2 → serves true 20 → (protectRtcp v pkt).code = 0 →
      ∃ t, ends (.ciphProtectRtcp false) 0 0 t ∧ cntGet t offCiphProt = cntGet s offCiphProt + 1
        ∧ (keySlotGet t k).cidx = v.cidx + 1)
    ∧ (cmdCode c = 3 → serves false 0 → (unprotect v pkt).code = 0 →
      ∃ t, ends (.ciphUnprotect false) 0 0 t ∧ cntGet t offCiphUnprot = cntGet s offCiphUnprot + 1
        ∧ (v.idx ≤ (keySlotGet t k).idx ∨ v.fresh = true))
    ∧ (cmdCode c = 4 → serves false 0 → (unprotectRtcp v pkt).code = 0 →
      ∃ t, ends (.ciphUnprotectRtcp false) 0 0 t ∧ cntGet t offCiphUnprot = cntGet s offCiphUnprot + 1
        ∧ v.cidx ≤ (keySlotGet t k).cidx)
    ∧ (cmdCode c = 1 → k ≤ 32767 → v.state ≠ .fault → ∃ t, ends (.ciphProtect true) 0x52 0 t
        ∧ (keySlotGet t k).state = .fault)
    ∧ (cmdCode c = 1 → k ≤ 32767 → v.state = .fault → ∀ par, ∃ t, ends (.ciphProtect par) 0x42 0 t
        ∧ keySlotGet t k = v ∧ t.mem = s.mem)
    ∧ (cmdCode c = 3 → k ≤ 32767 → k ∉ s.ciph.parity → v.state = .empty → ∃ t, ends (.ciphUnprotect false) 0x41 0 t
        ∧ keySlotGet t k = v ∧ t.mem = s.mem))
  ∧ (∀ (s : State) (r : RxSecure) (rest : List RxSecure) (b : Binding) (k : Nat),
    s.pkt.secure = r :: rest → bindGet s r.chan = some b → b.keys.headD 32768 = k → k ≤ 32767 → k ∉ s.ciph.parity →
    slotCode s k r.chan false = 0 →
    let x := unprotect (keySlotGet s k) ((itemBytes s r.item).drop 16)
    16 ≤ (itemBytes s r.item).length →
    (x.code = 0 → ∃ t, exec (.ciphRxUnprotect false) s = .next t ∧ t.pkt.secure = rest
      ∧ cntGet t offCiphUnprot = cntGet s offCiphUnprot + 1)
    ∧ (x.code ≠ 0 → ∃ t, exec (.ciphRxUnprotect false) s = .next t ∧ t.pkt.secure = rest
      ∧ cntGet t offCiphUnprot = cntGet s offCiphUnprot))

/-- R347, R348, R349, R350, R351, R356, R358, R360: key slots: IMPORT, ERASE and RETIRE from a privileged
CPX and through CIPH_IMP, code 0x53 for an unprivileged one, a RETIRE that finds a parity error (log entry
69), and the derivation of the KEK.  The engine holds no
completion, no unknown command stands behind a CPX, and an imported send index is below the warning limit.
The device's private key is free: log entry 19. -/
def Obligations.KeySlotCommands : Prop :=
  ∀ (s : State),
    let refused := fun (i : Instr) (c : UnitCmd) (r : List UnitCmd) => ∃ t, exec i s = .next t
      ∧ t.ciph.unit.q = r ∧ t.ciph.unit.done = s.ciph.unit.done ++ [⟨c.w1, 0xD53#32, fld c.w3 15 0⟩]
      ∧ t.ciph.slot = s.ciph.slot
    let ends := fun (i : Instr) (c : UnitCmd) (r : List UnitCmd) (v : KeySlot) => ∃ t, exec i s = .next t
      ∧ t.ciph.unit.q = r ∧ t.ciph.unit.done = s.ciph.unit.done ++ [⟨c.w1, 0xD00#32, fld c.w3 15 0⟩]
      ∧ keySlotGet t (fld c.w3 15 0) = v
      ∧ (∀ n, n ≠ fld c.w3 15 0 → keySlotGet t n = keySlotGet s n) ∧ t.mem = s.mem
    let free := fun (k : Nat) => k ≤ 32767 ∧ slotBound s k = none
    let loads := fun (a len : Nat) (p : List Byte) => (len = 56 ∨ len = 72) ∧ a % 8 = 0
      ∧ inHeartwood a len = true ∧ anyPoison s a len = false ∧ blobOk p = true
      ∧ (slotOf p).idx < 2 ^ 48 - 2 ^ 20
      ∧ ∃ kek, s.ciph.kek = some kek ∧ keyUnwrap kek (memBytes s a len) = some p
    let host := fun (i : Instr) (v : KeySlot) => ∃ t, exec i s = .next t
      ∧ csrGet t offCiphImpStat = 0x80000000#32 ∧ keySlotGet t (impSlot s) = v ∧ t.mem = s.mem
    let first := fun (c : UnitCmd) (r : List UnitCmd) => ciphHeld s = false ∧ s.ciph.unit.q = c :: r
      ∧ ∀ x, r.head? = some x → ciphKnown x = true
    (∀ c r, first c r → fld c.w0 15 8 = 0 → c.priv = true →
      (∀ p, cmdCode c = 5 → fld c.w3 31 24 = 0 → free (fld c.w3 15 0) → loads c.w2.toNat (fld c.w3 23 16) p →
        ends .ciphImport c r (slotOf p))
      ∧ (cmdCode c = 6 → fld c.w3 31 16 = 0 → c.w2 = 0 → free (fld c.w3 15 0) →
        ends .ciphErase c r KeySlot.reset)
      ∧ (cmdCode c = 7 → fld c.w3 31 16 = 0 → c.w2 = 0 → fld c.w3 15 0 ≤ 32767 →
        (keySlotGet s (fld c.w3 15 0)).state = .loaded →
        (fld c.w3 15 0 ∉ s.ciph.parity →
          ends .ciphRetire c r { keySlotGet s (fld c.w3 15 0) with state := .retired })
        ∧ (fld c.w3 15 0 ∈ s.ciph.parity → ∃ t, exec .ciphRetire s = .next t
          ∧ t.ciph.unit.done = s.ciph.unit.done ++ [⟨c.w1, 0xD52#32, fld c.w3 15 0⟩]
          ∧ keySlotGet t (fld c.w3 15 0) = { keySlotGet s (fld c.w3 15 0) with state := .fault })))
    ∧ (∀ c r, first c r → c.priv = false →
      (cmdCode c = 5 → refused .ciphImport c r) ∧ (cmdCode c = 6 → refused .ciphErase c r)
      ∧ (cmdCode c = 7 → refused .ciphRetire c r))
    ∧ (∀ p, free (impSlot s) → loads (csrGet s offCiphImpAddr).toNat (csrFld s offCiphImpLen 6 0) p →
        host .ciphImpImport (slotOf p))
    ∧ (free (impSlot s) → host .ciphImpErase KeySlot.reset)
    ∧ (impSlot s ≤ 32767 → impSlot s ∉ s.ciph.parity → (keySlotGet s (impSlot s)).state = .loaded →
        host .ciphImpRetire { keySlotGet s (impSlot s) with state := .retired })
    ∧ (∃ t, exec .kekDerive s = .next t ∧ t.ciph.deriving_ = true ∧ t.csr = s.csr ∧ t.mem = s.mem)
    ∧ (s.ciph.deriving_ = true → onCurve (kekPub s) = true → ∃ t, exec .kekDeriveDone s = .next t
        ∧ t.ciph.deriving_ = false ∧ t.ciph.kek.isSome = true
        ∧ csrGet t offCiphKekgen = csrGet s offCiphKekgen + 1 ∧ csrGet t offCiphKekstat = 0x80000000#32)
    ∧ (s.ciph.deriving_ = true → onCurve (kekPub s) = false → ∃ t, exec .kekDeriveDone s = .next t
        ∧ t.ciph.kek = s.ciph.kek ∧ csrGet t offCiphKekstat = 0x80000001#32)

/-- R362, R364, R367, R373, R378: the crucible, which holds no completion and no unknown request, performs
its next request, one of CPX or the host: INIT writes a fresh context,
SAVE and RESTORE copy one, COMPRESS and DECOMPRESS leave their results in the descriptor, each with its
completion: COMPRESS ends with code 0x00 where its output fits and is smaller than its input or NSOK is given
(R371), DECOMPRESS where its input holds no data error (R374) or passes as it is.
The streams of V.44 are free: log entry 20.
What a request that fails leaves in its destination is free: log entry 20.

R378: CRUC_HCMD.GO puts the four words of CRUC_HREQ, a known request, into the host's queue, unless its
last request is still pending. -/
def Obligations.CrucibleRequests : Prop :=
  (∀ (s : State) (r : CrucReq), crucHeld s = false → crucNext s = some r → r.queue ≠ 1 →
    (∀ x ∈ s.cruc.q, crucKnown x = true) → flagsOk r = true →
    let a := r.w3.toNat
    let d := r.w2.toNat
    let ends := fun (i : Instr) (code info : Nat) (t : State) => exec i s = .next t
      ∧ t.cruc.q = s.cruc.q.erase r ∧ t.cruc.done
          = s.cruc.done ++ [⟨r.w1, wordOf (code + 0xE00 + info * 65536), r.queue, r.seq⟩]
      ∧ cntGet t offCrucReq = cntGet s offCrucReq + 1
    let c := initCtx r
    let size := ctxSize c.kind c.wbits
    let ca := ctxOf (memBytes s a 64)
    let cd := ctxOf (memBytes s d 64)
    let sizeA := ctxSize ca.kind ca.wbits
    let sizeD := ctxSize cd.kind cd.wbits
    let x := dataOf s r
    let good := a % 4096 = 0 ∧ areaOk s true a 8192 = true ∧ x.d % 8 = 0 ∧ areaOk s false x.d 32 = true
      ∧ firstPoison s a 64 = none ∧ firstPoison s x.d 32 = none ∧ ca.magic = 0x4352 ∧ ctxParamsOk ca = true
      ∧ kindServes (reqCode r) ca.kind = true ∧ areasBad s x a sizeA = false ∧ reqChan r = ca.owner
      ∧ firstPoison s a sizeA = none ∧ firstPoison s x.src x.len = none
      ∧ (ca.sflags.testBit 0 = false ∨ reqFlag r 10 = true)
    let reset := reqFlag r 10
    let ck := if reset then ctxFresh ca else ca
    let text := memBytes s x.src x.len
    let gives := fun (i : Instr) (used : Nat) (out : List Byte) (crc : BitVec 32) => ∃ t info, ends i 0 info t
      ∧ memBytes t x.dst out.length = out ∧ memNat t (x.d + 16) 4 = used ∧ memNat t (x.d + 20) 4 = out.length
      ∧ memNat t (x.d + 24) 4 = crc.toNat
    let smaller := fun (out : List Byte) (owed : Nat) =>
      (x.len = 0 ∨ reqFlag r 11 = true ∨ out.length + owed < x.len) ∧ out.length ≤ x.cap
    (reqCode r = 3 → a % 4096 = 0 → ctxParamsOk c = true → areaOk s true a size = true →
      (if c.kind ≤ 2 then fld r.w2 31 11 = 0 else fld r.w2 31 28 = 0) →
      ∃ t, ends .crucInit 0 0 t ∧ memBytes t a size = ctxBytes c ++ zeros (size - 64)
        ∧ (∀ b, b < a ∨ a + size ≤ b → memByte t b = memByte s b))
    ∧ (reqCode r = 4 → a % 4096 = 0 → areaOk s true a 8192 = true → d % 4096 = 0 →
      firstPoison s a 64 = none → ca.magic = 0x4352 → ctxParamsOk ca = true → areaOk s true a sizeA = true →
      areaOk s false d sizeA = true → disjoint a sizeA d sizeA = true → reqChan r = ca.owner →
      firstPoison s a sizeA = none →
      ∃ t, ends .crucSave 0 (transpInfo ca) t ∧ memBytes t d sizeA = memBytes s a sizeA
        ∧ (∀ b, b < d ∨ d + sizeA ≤ b → memByte t b = memByte s b))
    ∧ (reqCode r = 5 → a % 4096 = 0 → d % 4096 = 0 → areaOk s false d 8192 = true →
      firstPoison s d 64 = none → cd.magic = 0x4352 → ctxParamsOk cd = true → cd.wfill ≤ ctxWindow cd →
      reqChan r = cd.owner → areaOk s true a sizeD = true → areaOk s false d sizeD = true →
      disjoint a sizeD d sizeD = true → firstPoison s d sizeD = none →
      ∃ t, ends .crucRestore 0 (transpInfo cd) t ∧ memBytes t a sizeD = memBytes s d sizeD
        ∧ (∀ b, b < a ∨ a + sizeD ≤ b → memByte t b = memByte s b))
    ∧ (reqCode r = 1 → good → ∃ t code info, ends .crucCompress code info t
        ∧ (code = 0 ∨ code = 5 ∨ code = 6)
        ∧ memNat t (x.d + 28) 4 = (wordOf (code + 0xE00 + info * 65536)).toNat)
    ∧ (reqCode r = 2 → good → ∃ t code info, ends .crucDecompress code info t ∧ (code = 0 ∨ code = 7)
        ∧ memNat t (x.d + 28) 4 = (wordOf (code + 0xE00 + info * 65536)).toNat)
    ∧ (reqCode r = 1 → good → firstPoison s x.dst x.cap = none →
      (ca.kind = 1 → let e := defRun s a ck (if reset then [] else ctxEngine s a) text (reqFlag r 8) (reqFlag r 9);
        smaller e.out e.owed → gives .crucCompress x.len e.out (crc32More ck.crc text))
      ∧ (ca.kind ≠ 1 → let e := dictEncode s a ck reset text (reqFlag r 8 || reqFlag r 9);
        smaller e.out e.owed → gives .crucCompress x.len e.out (crc32More ck.crc text)))
    ∧ (reqCode r = 2 → good → x.len = 0 → gives .crucDecompress 0 [] ck.crc)
    ∧ (reqCode r = 2 → good → firstPoison s x.dst x.cap = none → x.len ≠ 0 →
      (ca.kind = 2 →
        let d0 := infLoad (if reset then [] else ctxEngine s a) (ctxHist s a ck ck.totout ck.wfill)
          (2 ^ ck.wbits) x.cap text
        ∀ d, infRun (infFuel d0) (decide (x.cap ≠ 0)) d0 = .inl d →
          ∃ used, gives .crucDecompress used d.out.reverse (crc32More ck.crc d.out.reverse))
      ∧ (ca.kind ≠ 2 → reqFlag r 12 = true → gives .crucDecompress (min x.cap x.len) (memBytes s x.src (min x.cap x.len))
          (crc32More ck.crc (memBytes s x.src (min x.cap x.len))))
      ∧ (ca.kind ≠ 2 → reqFlag r 12 = false → ∀ e used more, dictDecode s a ck reset text x.cap = .inl (e, used, more) →
          gives .crucDecompress used e.out (crc32More ck.crc e.out))))
  ∧ (∀ s : State, let w := fun i => csrGet s (offCrucHreq + 4 * i)
    (hostPend s = false → (∀ x ∈ s.cruc.q, crucKnown x = true) → 1 ≤ fld (w 0) 7 0 → fld (w 0) 7 0 ≤ 5 → ∃ t, exec .crucHostGo s = .next t
      ∧ t.cruc.q = s.cruc.q ++ [⟨w 0, w 1, w 2, w 3, 2, s.cruc.seq, 0, none⟩] ∧ t.mem = s.mem ∧ t.csr = s.csr)
    ∧ (hostPend s = true → exec .crucHostGo s = .next s))

/-- R256, R263, R269: a write that turns CTL.EN on makes a check of the channel wait and shows it in STAT;
one that turns EN off, with no check of the channel waiting, begins the close of an enabled channel: its
release entry stops and STAT.CLOSING is set. -/
def Obligations.ChannelEnableAndClose : Prop :=
  ∀ (s : State) (n : Nat) (v : Word), n < min 16384 (chanCount s) →
    isPoison s (chanAddr s n) = false → isPoison s (chanAddr s n + 0x20) = false →
    (bitOf (descWord s n 0) 0 = false → ∃ t, exec (.channelEnableWrite n v) s = .next t
      ∧ descWord t n 0 = setBit v 0 true ∧ bitOf (chanStat t n) 10 = true
      ∧ (n, s.time.cyc + s.time.fab) ∈ t.chan.checks ∧ t.chan.bind = s.chan.bind)
    ∧ (bitOf (descWord s n 0) 0 = true → checkWaits s n = false → bindGet s n ≠ none →
      ∃ t, exec (.channelCloseWrite n v) s = .next t ∧ descWord t n 0 = setBit v 0 false
      ∧ (relGet t n).en = false ∧ bitOf (chanStat t n) 11 = true ∧ t.chan.bind = s.chan.bind)

/-- R263–R266, R287: the oldest waiting check is decided: a descriptor that meets every condition binds
its channel, its queues and its release entry, CTL.EN still 1 and not cleared since; the first condition
that fails refuses it.
The order of checks written without time between is the model's reading (log entry 74). -/
def Obligations.ConsistencyCheckDecides : Prop :=
  ∀ (s : State) (n at_ : Nat) (r : List (Nat × Nat)), s.chan.checks = (n, at_) :: r →
    let s1 := { s with chan := { s.chan with checks := r } }
    let d := descOf s1 n
    (checkCode s1 n d = 0 → bitOf d.ctl 0 = true → n ∉ s.chan.cleared → ∃ t, exec .consistencyCheck s = .next t
      ∧ csrGet t offDispChkLast = wordOf (0x80000000 + n)
      ∧ cntGet t offDispChkAcc = cntGet s offDispChkAcc + 1
      ∧ (∃ b, bindGet t n = some b ∧ b.qTrunk = fld d.queues 15 0 ∧ b.qAccess = fld d.queues 31 16
          ∧ b.ec = dEcRecords d ∧ b.ecu = (chanCost d.media d.rel).1)
      ∧ (queueGet t (fld d.queues 15 0)).bound = true ∧ (queueGet t (fld d.queues 31 16)).bound = true
      ∧ relGet t n = ⟨true, fld d.rel 5 0, fld d.rel 15 8, fld d.rel 17 16⟩)
    ∧ (checkCode s1 n d ≠ 0 → ∃ t, exec .consistencyCheck s = .next t
      ∧ csrGet t offDispChkLast = wordOf (0x80000000 + checkCode s1 n d * 65536 + n)
      ∧ cntGet t offDispChkRef = cntGet s offDispChkRef + 1 ∧ t.chan.bind = s.chan.bind)

/-- R293–R297: queues: a pop takes the oldest item and answers it, a pop of an empty queue repeats the
last one, a push appends, a push to a full queue drops the oldest, a push of an item that the walk
refuses reports its code and changes nothing else, and a configuration of an unbound queue sets EN and LIMIT
and one that disables it empties it. The portal is the host's or that of a context of a present engine (R2).

R290, R291, R296, R297, R316: the clearing and notices: an allocation answers a cell that was free, or
the refusal bit when only reserved cells are left, a free item's cells come back, a write of DEV_HWL_CELL with
RUN 0 frees every cell, a notice of NTYPE 1 becomes a signal of its target and one of NTYPE 2 a pending vector,
and an uncorrectable descriptor disables its queue.
Which free cell is taken is free: log entry 3. -/
def Obligations.QueuesAndClearing : Prop :=
  (∀ (s : State) (p : Option Nat) (w : Word), Ample s → portalHere s p = true →
    let q := csrFld s (portalOff p) 15 0
    let k := queueGet s q
    let it := smapGet 0 s.qmgr.staged (portalOff p)
    let d := fld w 15 0
    let dk := queueGet s d
    (∀ i r, k.items = i :: r → ∃ t, exec (.queuePop p) s = .next t ∧ (queueGet t q).items = r
      ∧ t.busRead = leBytes 4 (wordOf (i.head + i.n * 262144 + if k.lostFlag then 1073741824 else 0)).toNat
      ∧ cntGet t offQmgrPop = cntGet s offQmgrPop + 1 ∧ t.mem = s.mem)
    ∧ (k.items = [] → ∃ t, exec (.queuePop p) s = .next t ∧ (queueGet t q).under = true
      ∧ t.busRead = leBytes 4 (setBit k.last 31 true).toNat ∧ t.mem = s.mem)
    ∧ (itemCode s it = 0 → dk.en = true → 0 < dk.limit → dk.items.length < dk.limit →
      ∃ t, exec (.queuePush p w) s = .next t ∧ (queueGet t d).items = dk.items ++ [itemOf it]
        ∧ csrGet t (portalOff p + 0x18) = 0 ∧ cntGet t offQmgrPush = cntGet s offQmgrPush + 1)
    ∧ (itemCode s it = 0 → dk.en = true → 0 < dk.limit → dk.limit ≤ dk.items.length →
      ∃ t, exec (.queuePush p w) s = .next t ∧ (queueGet t d).items = dk.items.tail ++ [itemOf it]
        ∧ (queueGet t d).lostFlag = true ∧ cntGet t offQmgrOvwr = cntGet s offQmgrOvwr + 1)
    ∧ (itemCode s it ≠ 0 → ∃ t, exec (.queuePush p w) s = .next t
        ∧ csrGet t (portalOff p + 0x18) = wordOf (itemCode s it) ∧ t.qmgr = s.qmgr ∧ t.mem = s.mem)
    ∧ (let c := csrFld s offQmgrQsel 15 0
      (queueGet s c).bound = false → (bitOf w 31 = true → (queueGet s c).items.length ≤ fld w 11 0 →
        ∃ t, exec (.queueConfigWrite w) s = .next t ∧ (queueGet t c).en = true
          ∧ (queueGet t c).limit = fld w 11 0 ∧ (queueGet t c).items = (queueGet s c).items)
      ∧ (bitOf w 31 = false → ∃ t, exec (.queueConfigWrite w) s = .next t ∧ (queueGet t c).en = false
          ∧ (queueGet t c).items = [])))
  ∧ (∀ (s : State) (p : Option Nat) (w : Word) (q : Nat), portalHere s p = true →
    (csrFld s offQmgrClrRes 18 0 < freeCells s → csrFld s offQmgrClrLowev 18 0 < freeCells s →
      (∀ c ∈ s.qmgr.used, c < cellCount s) → ∃ c t, exec (.cellAlloc p) s = .next t
      ∧ t.busRead = leBytes 4 (wordOf c).toNat ∧ c < cellCount s ∧ c ∉ s.qmgr.used ∧ c ∈ t.qmgr.used)
    ∧ (freeCells s ≤ csrFld s offQmgrClrRes 18 0 → ∃ t, exec (.cellAlloc p) s = .next t
      ∧ t.busRead = leBytes 4 0x80000000 ∧ t.qmgr = s.qmgr ∧ cntGet t offQmgrAllocf = cntGet s offQmgrAllocf + 1)
    ∧ (itemCode s w = 0 → Ample s → ∃ t, exec (.cellFree p w) s = .next t
      ∧ csrGet t (portalOff p + 0x18) = 0 ∧ (∀ c ∈ itemCells s (itemOf w), c ∉ t.qmgr.used)
      ∧ t.qmgr.queue = s.qmgr.queue ∧ t.mem = s.mem)
    ∧ (s.dev.run = false → s.dev.check = false →
      Ample { csrPut s offDevHwlCell (w &&& 0xFFF0FFF#32) with qmgr := { s.qmgr with used := [] } } →
      ∃ t, exec (.hwlCellWrite w) s = .next t
      ∧ csrGet t offDevHwlCell = w &&& 0xFFF0FFF#32 ∧ t.qmgr.used = [] ∧ t.mem = s.mem)
    ∧ (∀ x, (queueGet s q).notice = some x → (queueGet s q).ntype = 1 →
      let note := (queueGet s q).note
      isKind1 note = true → undeliverable s note = none → (ctxGet s (targetCtx note)).sigq.length < 16 →
      ∃ t, exec (.noticeDeliver q) s = .next t ∧ (queueGet t q).notice = none
        ∧ (ctxGet t (targetCtx note)).sigq
            = (ctxGet s (targetCtx note)).sigq ++ [(wordOf (x.src + 0x8000 + q * 65536), 0)])
    ∧ (∀ x, (queueGet s q).notice = some x → (queueGet s q).ntype = 2 →
      ∃ t, exec (.noticeDeliver q) s = .next t ∧ (queueGet t q).notice = none
        ∧ fld (queueGet s q).note 5 0 ∈ t.host.pend)
    ∧ (q < 65536 → ∃ t, exec (.queueDescError q) s = .next t ∧ (queueGet t q).en = false
      ∧ (queueGet t q).err = true ∧ (queueGet t q).items = [] ∧ bitOf (csrGet t offDevFsum) 6 = true))

/-- R305–R308: a received UDP datagram that a TYPE 6 entry keys goes as one item to that entry's
queue; one that no entry keys, with misses not kept, is counted as a drop of reason 4. Fewer than 512
packets wait at the cipher engine (R352). -/
def Obligations.PacketReceive : Prop :=
  ∀ (s s1 : State) (n : Nat) (f : RxFrame) (u : Udp), n < 4 → takeRx s n = some (f, s1) →
    frameCells f ≤ freeCells s → f.trunc = false → toPtpq s n f = false → s.pkt.secure.length < 512 → parseFrame f.bytes = .udp u →
    Ample s →
    let key : FlowKey := ⟨n, u.tagged, u.vid, u.v6, u.dport⟩
    let s2 := bump (countRx s1 n f) offPktRxpkt
    (∀ i, findFlow s key = some i → flowType (flowBytes s i) = 6 → srcOk s (flowBytes s i) u = true →
      let q := queueGet s2 (flowChan (flowBytes s i))
      q.en = true → q.items.length < q.limit →
      csrFld s offQmgrClrLowev 18 0 + 128 < freeCells s → u.body.length ≤ 1500 →
      ∃ t, exec (.pktReceive n) s = .next t ∧ cntGet t offPktRxpkt = cntGet s offPktRxpkt + 1
        ∧ (macGet t n).rx = (macGet s n).rx.tail
        ∧ ∃ it, (queueGet t (flowChan (flowBytes s i))).items = q.items ++ [it])
    ∧ (findFlow s key = none → bitOf (csrGet s offPktCtl) 8 = false →
      exec (.pktReceive n) s = .next (bump s2 (offPktDrop + 8 * 4)))

/-- R309–R315: departures. Of the input queues the next that holds an item gives its oldest: an item
shorter than the prefix is dropped under reason 15, and a raw frame (KIND 3) for a port of 0–3 with a
DEP still to come, at most 32,000 ticks away, is held; an item is taken only while fewer than 65,536 are
pending. A held raw frame, or a held frame, leaves at the first tick boundary that reaches its DEP and counts
in TXPKT. The CESoPSN packet of a departure that is due takes its pseudowire's next sequence
number, frees the contributions of that departure, and counts in TXPKT when its tick is reached, or is held
until it is. At the tick of its bundle's PHASE a single waiting member frame leaves in one datagram with the next BSEQ; with no member
frame waiting nothing leaves and BSEQ stands.
The RTP header of a CESoPSN packet is free: log entry 18; the readings of log entries 50, 51, 52, 53 and
59 apply. -/
def Obligations.PacketDepartures : Prop :=
  (∀ (s : State) (k : Nat) (i : Item) (r : List Item), pendItems s < 65536 →
    nextInput s s.pkt.txAt = some k →
    let q := csrFld s (offPktTxq + 4 * k) 15 0
    (queueGet s q).items = i :: r → (itemBytes s i).length < 16 → Ample s →
    ∃ t, exec .pktTxTake s = .next t ∧ (queueGet t q).items = r ∧ t.pkt.txAt = (k + 1) % 8
      ∧ t.pkt.held = s.pkt.held ∧ (∀ c ∈ itemCells s i, c ∉ t.qmgr.used)
      ∧ cntGet t (offPktDrop + 8 * 15) = cntGet s (offPktDrop + 8 * 15) + 1)
  ∧ (∀ (s : State) (k : Nat) (i : Item) (r : List Item), pendItems s < 65536 →
    nextInput s s.pkt.txAt = some k →
    let q := csrFld s (offPktTxq + 4 * k) 15 0
    let bs := itemBytes s i
    let dep := extend32 (nfnOf s) (leAt bs 4 4)
    (queueGet s q).items = i :: r → 16 ≤ bs.length → byteAt bs 2 = 3 → byteAt bs 8 < 4 →
    (byteAt bs 3).testBit 0 = true → (nfnOf s : Int) < dep → dep ≤ (nfnOf s : Int) + 32000 →
    ∃ t, exec .pktTxTake s = .next t ∧ (queueGet t q).items = r ∧ t.pkt.txAt = (k + 1) % 8
      ∧ t.pkt.held = s.pkt.held ++ [⟨dep, .item i⟩] ∧ t.mem = s.mem)
  ∧ (∀ (s : State), 65536 ≤ pendItems s → exec .pktTxTake s = .next s)
  ∧ (∀ (s : State) (h : HeldItem) (r : List HeldItem),
    takeDue (min s.pkt.seen (nfnOf s) : Nat) s.pkt.held = some (h, r) →
    (∃ p f, h.what = .frame p f) ∨ (∃ i, h.what = .item i ∧ byteAt (itemBytes s i) 2 = 3
      ∧ byteAt (itemBytes s i) 8 < 4) →
    ∃ t, exec .pktDeparture s = .next t ∧ t.pkt.held = r
      ∧ cntGet t offPktTxpkt = cntGet s offPktTxpkt + 1)
  ∧ (∀ (s : State), takeDue (min s.pkt.seen (nfnOf s) : Nat) s.pkt.held = none → exec .pktDeparture s = .next s)
  ∧ (∀ (s : State) (p d : Nat), flowType (flowBytes s p) = 2 → cesDue s p (flowBytes s p) = some d →
    tmplUsable (tmplBytes s (fTmpl (flowBytes s p))) = true →
    ∃ t, exec (.cesPacketBuild p) s = .next t
      ∧ smapGet 0 t.pkt.cesSeq p = (smapGet 0 s.pkt.cesSeq p + 1) % 65536
      ∧ d ∈ smapGet [] t.pkt.cesSent p ∧ (∀ c ∈ t.pkt.ces, ¬ (c.flow = p ∧ c.dep = d))
      ∧ (d ≤ nfnOf s → t.pkt.held = s.pkt.held ∧ cntGet t offPktTxpkt = cntGet s offPktTxpkt + 1)
      ∧ (nfnOf s < d → ∃ f, t.pkt.held = s.pkt.held ++ [⟨d, .frame (fPort (flowBytes s p)) f⟩]))
  ∧ (∀ (s : State) (b : Nat), flowType (flowBytes s b) = 4 → nfnOf s % 40 = byteAt (flowBytes s b) 14 →
    smapGet 0 s.pkt.bunSent b ≠ nfnOf s + 1 →
    let mine := s.pkt.bundle.filter fun x => x.flow == b && decide (x.dep ≤ nfnOf s)
    let seq := fun u : State => smapGet 0 u.pkt.bunSeq b
    (mine = [] → ∃ t, exec (.bundleDeparture b) s = .next t ∧ smapGet 0 t.pkt.bunSent b = nfnOf s + 1
      ∧ t.pkt.bundle = s.pkt.bundle ∧ seq t = seq s ∧ t.mac = s.mac)
    ∧ (∀ x, mine = [x] → (memberData s x).length ≤ 1400 →
      tmplUsable (tmplBytes s (fTmpl (flowBytes s b))) = true →
      ∃ t, exec (.bundleDeparture b) s = .next t ∧ smapGet 0 t.pkt.bunSent b = nfnOf s + 1
        ∧ (∀ y ∈ t.pkt.bundle, ¬ (y.flow = b ∧ y.dep ≤ nfnOf s)) ∧ seq t = (seq s + 1) % 65536
        ∧ cntGet t offPktTxpkt = cntGet s offPktTxpkt + 1))

/-- R303, R304, R316, R318: the windows on the flow and template tables, entry `i` of PKT_FSEL and `j` of
PKT_TSEL. A flow write stores the staged entry, or changes no table and reports 1 for a bad form, 2 for a key
that another entry has, 3 for an entry that serves an enabled channel, 4 for timeslots or tags beyond the
table; an invalidate clears the entry or reports 3; a template write stores the staged template, or reports 1
for one that is not usable or beyond 12,287, 2 for one that serves an enabled channel; the reads show the
entry in the data registers. An uncorrectable entry or template reads as zeros from then on, and its event's
class is noted in DEV_FSUM.
That a template write to which both codes apply reports 1 is the model's reading: log entry 162. -/
def Obligations.FlowAndTemplateTables : Prop :=
  ∀ (s : State),
    let i := flowSel s
    let j := hdrSel s
    let f := stagedFlow s
    let ends := fun (c : Instr) (o code : Nat) (t : State) =>
      exec c s = .next t ∧ csrGet t o = wordOf (0x80000000 + code) ∧ t.mem = s.mem
    let refuses := fun (c : Instr) (o code : Nat) => ∃ t, ends c o code t ∧ t.pkt = s.pkt
    (f ≠ zeros 16 → flowBadForm f = false → flowDup s i f = false → flowBound s i = false →
      flowBeyond i f = false → ∃ t, ends .flowWrite offPktFstat 0 t ∧ flowBytes t i = f
        ∧ ∀ n, n ≠ i → flowBytes t n = flowBytes s n)
    ∧ (f ≠ zeros 16 → flowBadForm f = true → refuses .flowWrite offPktFstat 1)
    ∧ (f ≠ zeros 16 → flowBadForm f = false → flowDup s i f = true → refuses .flowWrite offPktFstat 2)
    ∧ (f ≠ zeros 16 → flowBadForm f = false → flowDup s i f = false → flowBound s i = true →
      refuses .flowWrite offPktFstat 3)
    ∧ (f ≠ zeros 16 → flowBadForm f = false → flowDup s i f = false → flowBound s i = false →
      flowBeyond i f = true → refuses .flowWrite offPktFstat 4)
    ∧ (flowBound s i = true → refuses .flowInvalidate offPktFstat 3)
    ∧ (flowBound s i = false → ∃ t, ends .flowInvalidate offPktFstat 0 t ∧ flowBytes t i = zeros 16
        ∧ ∀ n, n ≠ i → flowBytes t n = flowBytes s n)
    ∧ (∃ t, ends .flowRead offPktFstat 0 t ∧ t.pkt = s.pkt
        ∧ ∀ n, n < 4 → csrGet t (offPktFdata + 4 * n) = wordOf (leAt (flowBytes s i) (4 * n) 4))
    ∧ (j < 12288 → tmplUsable (stagedTmpl s) = true → tmplBound s j = false →
      ∃ t, ends .templateWrite offPktTstat 0 t ∧ tmplBytes t j = stagedTmpl s
        ∧ ∀ n, n ≠ j → tmplBytes t n = tmplBytes s n)
    ∧ (12288 ≤ j ∨ tmplUsable (stagedTmpl s) = false → refuses .templateWrite offPktTstat 1)
    ∧ (j < 12288 → tmplUsable (stagedTmpl s) = true → tmplBound s j = true →
      refuses .templateWrite offPktTstat 2)
    ∧ (12288 ≤ j → refuses .templateRead offPktTstat 1)
    ∧ (j < 12288 → ∃ t, ends .templateRead offPktTstat 0 t ∧ t.pkt = s.pkt
        ∧ ∀ n, n < 16 → csrGet t (offPktTdata + 4 * n) = wordOf (leAt (tmplBytes s j) (4 * n) 4))
    ∧ (∀ n, n < 65536 → ∃ t, exec (.flowTableError false n) s = .next t ∧ flowBytes t n = zeros 16
        ∧ (∀ m, m ≠ n → flowBytes t m = flowBytes s m) ∧ bitOf (csrGet t offDevFsum) 7 = true)
    ∧ (∀ n, n < 12288 → ∃ t, exec (.flowTableError true n) s = .next t ∧ tmplBytes t n = zeros 64
        ∧ (∀ m, m ≠ n → tmplBytes t m = tmplBytes s m) ∧ bitOf (csrGet t offDevFsum) 7 = true)

/-- R321, R334, R336, R508: a MAC's EN, its link, and its gate: EN set turns a port on, except MAC1 to MAC4 in
reflector mode; EN cleared takes the link down and empties the
line, block lock for 1 ms without faults brings the link up, a loss of lock takes it down, an ungated
port opens at a frame boundary, verification begins with one verify frame, which in near-end loop is answered
at once, and fails after the third.

R332, R336, R340: PFC: a pause ends at its time, a frame held too long is discarded, XOFF is
handed over at the threshold, repeated and ended by XON, none of them through a gated port or one that is down. -/
def Obligations.MacLinkAndPauses : Prop :=
  (∀ (s : State) (n : Nat) (v : Word), n < 5 →
    let m := macGet s n
    let ctl := fun (t : State) => csrGet t (offMacCtl + n * 0x10000)
    (∃ t, exec (.macEnable n v) s = .next t ∧ bitOf (ctl t) 31 = (s.dev.refl.isNone || n == 0) ∧ (macGet t n).rx = m.rx)
    ∧ (macEn s n = true → ∃ t, exec (.macDisable n v) s = .next t ∧ bitOf (ctl t) 31 = false
      ∧ (macGet t n).link = false ∧ (macGet t n).lock = false ∧ (macGet t n).cur = none
      ∧ (macGet t n).asm = none ∧ (macGet t n).rx = m.rx)
    ∧ (macEn s n = true → m.lock = false → ∃ t, exec (.pcsBlockLock n) s = .next t
      ∧ (macGet t n).lock = true ∧ (macGet t n).lockSince = elapsed s.time ∧ t.csr = s.csr)
    ∧ (macEn s n = true → m.link = false → m.lock = true → m.localFault = false → m.remoteFault = false →
      m.lockSince + 1000000 ≤ elapsed s.time →
      ∃ t, exec (.linkUp n) s = .next t ∧ (macGet t n).link = true)
    ∧ (macEn s n = true → m.link = true → ∃ t, exec (.linkDown n true false false) s = .next t
      ∧ (macGet t n).link = false ∧ (macGet t n).lock = false)
    ∧ (m.ungate = true → m.cur = none → ∃ t, exec (.macUngate n) s = .next t
      ∧ (macGet t n).gated = false ∧ (macGet t n).tx = m.tx ∧ t.csr = s.csr)
    ∧ (preEn s n = true → m.link = true → m.verify = .initial → macLoop s n ≠ 1 →
      ∃ t, exec (.preemptVerify n) s = .next t ∧ (macGet t n).verify = .verifying ∧ (macGet t n).vSent = 1)
    ∧ (preEn s n = true → m.link = true → m.verify = .initial → macLoop s n = 1 → macRxEn s n = true →
      ∃ t, exec (.preemptVerify n) s = .next t ∧ (macGet t n).verify = .succeeded
        ∧ (macGet t n).responds = m.responds + 1)
    ∧ (preEn s n = true → m.link = true → m.verify = .verifying → 3 ≤ m.vSent →
      m.vAt + vtimeNs s n ≤ elapsed s.time → ∃ t, exec (.preemptVerify n) s = .next t
      ∧ (macGet t n).verify = .failed))
  ∧ (∀ (s : State) (n : Nat), n < 5 →
    let m := macGet s n
    let sends := fun (i : Instr) (time : Nat) (x : Bool) => ∃ t, exec i s = .next t ∧ (macGet t n).xoff = x
      ∧ (macGet t n).pfcAt = elapsed s.time ∧ (if m.gated ∨ macDown s n then (macGet t n).tx = m.tx
          else (macGet t n).tx = m.tx ++ [⟨pfcFrame s n time, 8, true, elapsed s.time, []⟩])
    (∀ p, smapGet 0 m.pause p ≠ 0 → smapGet 0 m.pause p ≤ elapsed s.time * 100 →
      ∃ t, exec (.pfcPauseExpire n p) s = .next t ∧ smapGet 0 (macGet t n).pause p = 0
        ∧ (macGet t n).tx = m.tx ∧ t.csr = s.csr)
    ∧ (∀ f, m.tx.find? (fun f => isPaused m f && decide (f.since + holdNs s n ≤ elapsed s.time)) = some f →
      ∃ t, exec (.pfcHoldDiscard n) s = .next t ∧ (macGet t n).tx = m.tx.erase f)
    ∧ (bitOf (macReg s n offMacPfc) 30 = true → m.xoff = false → wantXoff s n = true →
      sends (.pfcXoff n) (quanta s n) true)
    ∧ (m.xoff = true → m.pfcAt * 200 + quanta s n * (if mac10g s n then 5120 else 2048) ≤ elapsed s.time * 200 →
      sends (.pfcRepeat n) (quanta s n) true)
    ∧ (m.xoff = true → rxFill m ≤ xonAt s n → clearingLow s = false → wantXoff s n = false →
      sends (.pfcXon n) 0 false))

/-- R326–R329, R338: a good frame enters the port's FIFO without its FCS; a wrong FCS, a runt and a
filtered address are counted and leave the FIFO as it was; reading a counter's low word answers it,
latches the rest and clears it. The port is not in near-end loop, where it does not hear the line (R325).

R315, R322, R331, R336: the frame to send next, a TWAMP reply with its stamp in it (R510), leaves padded
to 60 octets and with its FCS, its cells
are free and it is counted; on a port that is down it is discarded under counter 20. -/
def Obligations.MacFrames : Prop :=
  (∀ (s : State) (n : Nat) (f : List Byte), n < 4 → macEn s n = true → macRxEn s n = true →
    (macGet s n).lock = true → macLoop s n ≠ 1 →
    let m := macGet s n
    let o := fun (c : Nat) => offMacCntLo + n * 0x10000 + 8 * c
    let body := f.take (f.length - 4)
    let fcs := leBytes 4 (crc32 body).toNat = f.drop (f.length - 4)
    let counts := fun (c : Nat) => ∃ t, exec (.macFrameReceive n .whole 0 0 0 f) s = .next t
      ∧ (cntGet t (o c)).toNat = min 0xFFFFFFFFFF ((cntGet s (o c)).toNat + 1) ∧ (macGet t n).rx = m.rx
    (64 ≤ f.length → f.length ≤ maxLen s n → fcs → beAt f 12 2 ≠ 0x8808 → addrFilter s n f = true →
      rxRoom m body.length = true → ∃ t x, exec (.macFrameReceive n .whole 0 0 0 f) s = .next t
        ∧ (macGet t n).rx = m.rx ++ [x] ∧ x.bytes = body ∧ x.trunc = false ∧ t.mem = s.mem)
    ∧ (64 ≤ f.length → f.length ≤ maxLen s n → ¬ fcs → counts 2)
    ∧ (f.length < 64 → counts 3)
    ∧ (64 ≤ f.length → f.length ≤ maxLen s n → fcs → beAt f 12 2 ≠ 0x8808 → addrFilter s n f = false → counts 5)
    ∧ (∀ c, c < 25 → ∃ t, exec (.macCounterRead n c) s = .next t
        ∧ t.busRead = leBytes 4 ((cntGet s (o c)).toNat % 4294967296) ∧ cntGet t (o c) = 0
        ∧ csrGet t (o c + 4) = wordOf ((cntGet s (o c)).toNat / 4294967296) ∧ t.mem = s.mem))
  ∧ (∀ (s : State) (n : Nat) (f : TxFrame), n < 5 → (macGet s n).cur = none → nextTx s n = some f →
    let b := (stampTwamp s n f).bytes
    let p := b ++ zeros (60 - b.length)
    let o := fun (c : Nat) => offMacCntLo + n * 0x10000 + 8 * c
    (txRefused s n f = none → macLoop s n ≠ 1 → ∃ t, exec (.macFrameTransmit n 0) s = .next t
      ∧ (macGet t n).wire = p ++ leBytes 4 (crc32 p).toNat ∧ (macGet t n).tx = (macGet s n).tx.erase f
      ∧ (macGet t n).cur = none ∧ (cntGet t (o 13)).toNat = min 0xFFFFFFFFFF ((cntGet s (o 13)).toNat + 1))
    ∧ (macEn s n = false ∨ (macGet s n).link = false → ∃ t, exec (.macFrameTransmit n 0) s = .next t
      ∧ (macGet t n).wire = (macGet s n).wire ∧ (macGet t n).tx = (macGet s n).tx.erase f
      ∧ (cntGet t (o 20)).toNat = min 0xFFFFFFFFFF ((cntGet s (o 20)).toNat + 1)))

/-- R383–R391, R397, R399, R402, R404–R406: the meter performs the command at the head of its queue: a
call is opened, adopted or ended with its record, parameters are staged, committed or discarded, the
journal is released and flushed, the self-test is run, and METER_CRES gives the command and its code.
The readings of log entries 76 to 84 apply; entry 80 performs COMMIT and SEAL whole. -/
def Obligations.MeterCommands : Prop :=
  ∀ (s : State) (c : MeterCmd) (r : List MeterCmd),
    let s0 := meterNow s
    let m := s0.meter
    let s1 := meterPut s0 { m with q := r }
    m.power = true → m.q = c :: r → meterWordsOk c = true → (∀ x ∈ r, meterOpcode (mOpcode x) = true) →
    s.mirr.adopts = [] →
    let n := mChan c
    let rel := (cmdW c 4).toNat + (cmdW c 5).toNat * 4294967296
    let ends := fun (i : Instr) (code : Nat) (t : State) => exec i s = .next t ∧ t.meter.q = r
      ∧ csrGet t offMeterCres = wordOf (c.cseq * 65536 + code)
    (mOpcode c = 1 → m.mode ≠ .fault → smapGet none m.open_ n = none → stampCode m c = 0 →
      ∃ t, ends .callStart 0 t ∧ smapGet none t.meter.open_ n = some ⟨cmdW c 1, false, c.time, c.ic, c.time, c.ic⟩
        ∧ t.meter.rseq = nextSeq m)
    ∧ (mOpcode c = 1 → m.mode ≠ .fault → smapGet none m.open_ n ≠ none →
      ∃ t, ends .callStart 0x88 t ∧ t.meter.open_ = m.open_ ∧ t.meter.rseq = m.rseq)
    ∧ (mOpcode c = 1 → m.mode ≠ .fault → smapGet none m.open_ n = none → stampCode m c ≠ 0 →
      ∃ t, ends .callStart (stampCode m c) t ∧ t.meter.open_ = m.open_ ∧ t.meter.rseq = m.rseq)
    ∧ (mOpcode c = 3 → m.mode ≠ .fault → smapGet none m.open_ n = none → stampCode m c = 0 →
      ∃ t, ends .callAdopt 0 t ∧ smapGet none t.meter.open_ n = some ⟨cmdW c 1, true, c.time, c.ic, c.time, c.ic⟩
        ∧ t.meter.rseq = nextSeq m)
    ∧ (mOpcode c = 2 → ∀ x, smapGet none m.open_ n = some x → x.ref = cmdW c 1 →
      ∃ t, ends .callEnd 0 t ∧ smapGet none t.meter.open_ n = none
        ∧ (c.ic < x.ic + dayT → t.meter.totCalls = satTotal m.totCalls 1))
    ∧ (mOpcode c = 2 → smapGet none m.open_ n = none →
      ∃ t, ends .callEnd 0x89 t ∧ t.meter.totCalls = m.totCalls ∧ t.meter.rseq = m.rseq)
    ∧ (mOpcode c = 0x10 → m.mode ≠ .fault → ∀ k, paramPlace (cmdW c 4).toNat (cmdW c 5).toNat = some k →
      paramCode (cmdW c 4).toNat (cmdW c 5).toNat (cmdW c 6) (cmdW c 7) = 0 →
      ∃ t, ends .param 0 t ∧ paramGet t.meter.staged k = (cmdW c 6, cmdW c 7)
        ∧ t.meter.committed = m.committed)
    ∧ (mOpcode c = 0x11 → m.mode ≠ .fault → setOk m.staged = true →
      m.sealed_ = false ∨ (m.prog = true ∧ m.audit.length < 1024) →
      ∃ t, ends .commit 0 t ∧ t.meter.committed = m.staged ∧ t.meter.hasSet = true
        ∧ t.meter.cals = (c.ic, m.staged) :: m.cals
        ∧ t.meter.audit.length = m.audit.length + (if m.sealed_ then 1 else 0))
    ∧ (mOpcode c = 0x11 → m.mode ≠ .fault → setOk m.staged = true → m.sealed_ = true → m.prog = false →
      ∃ t, ends .commit 0x8D t ∧ t.meter.committed = m.committed ∧ t.meter.audit = m.audit)
    ∧ (mOpcode c = 0x12 → ∃ t, ends .discard 0 t ∧ t.meter.staged = m.committed)
    ∧ (mOpcode c = 0x20 → m.mode ≠ .fault → m.jrel ≤ rel → rel ≤ m.jrseq →
      ∃ t, ends .release 0 t ∧ t.meter.jrel = rel ∧ t.meter.rseq = nextSeq { m with jrel := rel })
    ∧ (mOpcode c = 0x20 → m.mode ≠ .fault → rel < m.jrel ∨ m.jrseq < rel →
      ∃ t, ends .release 0x91 t ∧ t.meter.jrel = m.jrel)
    ∧ (mOpcode c = 0x21 → handoverOpen s1 = true → m.buffer ≠ [] → m.buffer.length ≤ 32 →
      ∃ t, ends .flush 0 t ∧ t.meter.buffer = []
        ∧ t.nand.hand = s.nand.hand ++ [m.buffer.map fun x => x.2])
    ∧ (mOpcode c = 0x22 → ∃ t, ends (.selftest 0) 0 t ∧ t.meter.mode = .run ∧ t.meter.testAt = m.time)
    ∧ (∀ f, mOpcode c = 0x22 → f ≠ 0 → ∃ t, ends (.selftest f) 0 t ∧ t.meter.mode = .fault)

/-- R382, R383, R392–R394, R402, R406, R410: METER_CMDGO queues the eight words under the next CSEQ, and
the meter's own steps: a report over the status link, its silence, second ticks, the loss of the
reference, 24 h marks, handovers and self-tests.
The readings of log entries 78, 79 and 86 apply. -/
def Obligations.MeterQueueAndClock : Prop :=
  ∀ (s : State),
    let s0 := meterNow s
    let m := s0.meter
    let seq := (csrFld s offMeterCsent 15 0 + 1) % 65536
    (m.power = true → m.q.length < 16 → (∀ x ∈ m.q, meterOpcode (mOpcode x) = true) → s.mirr.adopts = [] →
      meterOpcode (fld (csrGet s offMeterCmd) 7 0) = true → ∃ t, exec .meterCmdGo s = .next t
      ∧ t.meter.q = m.q ++ [⟨(List.range 8).map fun i => csrGet s (offMeterCmd + 4 * i), seq,
          m.time / usT * usT, m.ic, false, m.suspect, m.noref, meterRefusal s0⟩] ∧ csrGet t offMeterCsent = wordOf seq)
    ∧ (16 ≤ m.q.length → s.mirr.adopts = [] → ∃ t, exec .meterCmdGo s = .next t ∧ t.meter.q = m.q
      ∧ bitOf (csrGet t offMeterStat) 21 = true ∧ csrGet t offMeterCsent = csrGet s offMeterCsent)
    ∧ (m.power = true → s.mirr.adopts = [] → ∃ t, exec .meterStatusRefresh s = .next t
      ∧ t.meter.present = true ∧ csrGet t offMeterOpen = wordOf (openCount m)
      ∧ csrGet t offMeterJlost = wordOf m.jlost ∧ csrGet t offMeterAuditn = wordOf m.audit.length)
    ∧ (s.meter.present = true → s.meter.toldAt + 10000000 ≤ elapsed s.time →
      ∃ t, exec .meterLinkSilent s = .next t ∧ t.meter.present = false
        ∧ csrGet t offMeterNewcall = 0x80#32)
    ∧ (∀ n skew, m.power = true → tickValid m n = true → m.valid = false →
      ∃ t, exec (.meterTick n skew) s = .next t ∧ t.meter.valid = true
        ∧ t.meter.time = (n : Int) * 125000 * nsT ∧ t.meter.suspect = true ∧ t.meter.noref = false)
    ∧ (∀ n skew, m.power = true → tickValid m n = true → m.valid = true →
      let o : Int := (n : Int) * 125000 * nsT - m.time
      o.natAbs ≤ secT → ∃ t, exec (.meterTick n skew) s = .next t ∧ t.meter.valid = true ∧ t.meter.noref = false
        ∧ t.meter.time = m.time ∧ t.meter.ofs = o ∧ t.meter.resid = o)
    ∧ (∀ n skew, m.power = true → tickValid m n = false → ∃ t, exec (.meterTick n skew) s = .next t
        ∧ t.meter.time = m.time ∧ t.meter.goodRun = 0 ∧ t.meter.rseq = m.rseq)
    ∧ (m.power = true → m.noref = false → m.refIc + 2 * secT ≤ m.ic → ∃ t, exec .meterNoref s = .next t
        ∧ t.meter.noref = true ∧ t.meter.time = m.time ∧ t.meter.valid = m.valid)
    ∧ (∀ n x, m.power = true → smapGet none m.open_ n = some x → x.ic + dayT ≤ m.ic →
      ∃ t y, exec (.meterPartial n) s = .next t ∧ smapGet none t.meter.open_ n = some y
        ∧ y.ic = x.ic + dayT ∧ y.ref = x.ref ∧ y.start = x.start ∧ y.startIc = x.startIc ∧ t.meter.totCalls = satTotal m.totCalls 0)
    ∧ (m.power = true → handoverOpen s0 = true → 32 ≤ m.buffer.length → ∃ t, exec .meterHandover s = .next t
        ∧ t.meter.buffer = m.buffer.drop 32
        ∧ t.nand.hand = s.nand.hand ++ [(m.buffer.take 32).map fun x => x.2])
    ∧ (m.power = true → m.testAt + dayT ≤ m.time → (∃ t, exec (.meterPeriodicSelftest 0) s = .next t
        ∧ t.meter.mode = .run ∧ t.meter.testAt = m.time)
      ∧ ∃ t, exec (.meterPeriodicSelftest 3) s = .next t ∧ t.meter.mode = .fault)
    ∧ (m.told = MeterTold.reset → ∃ t, exec .meterTnsRead s = .next t ∧ t.busRead = zeros 4
        ∧ csrGet t offMeterTsecLo = 0 ∧ t.meter.time = m.time)
    ∧ (m.told ≠ MeterTold.reset → ∃ t x, exec .meterTnsRead s = .next t ∧ (x - toldTime s0).natAbs ≤ 10000 * nsT
        ∧ t.busRead = leBytes 4 (wordOf (max 0 x % secT / nsT).toNat).toNat
        ∧ csrGet t offMeterTsecLo = wordOf (max 0 x / secT % 2 ^ 48).toNat ∧ t.meter.time = m.time)

/-- R384, R396, R404: VMETER's loss drops the queue and keeps the calls; its return brings the meter up with the
self-test's outcome, writes a record and leaves no call open; ARM, refused while METER_PROG_N is high, stands
for a second, SEAL behind it seals the meter once for all, and the SEAL registers are passed on only before.
The readings of log entries 22, 80, 84 and 85 apply. -/
def Obligations.MeterPowerAndSealing : Prop :=
  ∀ (s : State),
    let s0 := meterNow s
    let m := s0.meter
    (m.power = true → ∃ t, exec .meterPowerFail s = .next t ∧ t.meter.power = false ∧ t.meter.q = []
      ∧ t.meter.failAt = m.time ∧ t.meter.failIc = m.ic ∧ t.meter.open_ = m.open_ ∧ t.meter.rseq = m.rseq
      ∧ t.meter.buffer = m.buffer ∧ t.meter.staged = m.staged ∧ t.meter.committed = m.committed
      ∧ t.meter.sealed_ = m.sealed_ ∧ t.csr = s.csr ∧ t.nand = s.nand)
    ∧ (m.power = false → exec .meterPowerFail s = .next s)
    ∧ (∀ lost pair failed, m.power = false → ∃ t, exec (.meterPowerReturn lost pair failed) s = .next t
      ∧ t.meter.power = true ∧ t.meter.pairId = pair ∧ t.meter.armed = none ∧ t.meter.q = m.q
      ∧ t.meter.testAt = m.time ∧ (∀ n, smapGet none t.meter.open_ n = none)
      ∧ (if lost then m.jrseq else m.rseq) < t.meter.rseq ∧ t.meter.audit = m.audit
      ∧ (failed ≠ 0 → t.meter.mode = .fault) ∧ (failed = 0 → m.audit = [] → t.meter.mode = .run))
    ∧ (∀ lost pair failed, m.power = true → exec (.meterPowerReturn lost pair failed) s = .next s)
    ∧ (∀ pair, m.power = false → m.open_ = [] → m.audit = [] → m.half = none → ∃ t,
      exec (.meterPowerReturn false pair 0) s = .next t
      ∧ t.meter.power = true ∧ t.meter.mode = .run ∧ t.meter.open_ = [] ∧ t.meter.pairId = pair
      ∧ t.meter.armed = none ∧ t.meter.totCalls = m.totCalls ∧ t.meter.committed = m.committed)
    ∧ (m.power = true → m.sealed_ = false → ∃ t, exec (.meterArm true) s = .next t
      ∧ t.meter.armed = some m.ic ∧ t.meter.prog = true ∧ t.meter.sealed_ = false)
    ∧ (∀ low, m.power = true → m.sealed_ = true ∨ low = false → ∃ t, exec (.meterArm low) s = .next t
      ∧ t.meter.armed = m.armed ∧ t.meter.prog = low ∧ t.meter.sealed_ = m.sealed_)
    ∧ (m.power = true → m.armed.isSome = true → armStands m = false → ∃ t, exec .meterArmExpire s = .next t
      ∧ t.meter.armed = none ∧ t.meter.sealed_ = m.sealed_)
    ∧ (m.power = true → m.sealed_ = false → armStands m = true → sealOwner m ≠ 0 →
      onCurve (pointOf (sealAuth m)) = true → m.hasSet = true → m.valid = true →
      ∃ t, exec (.meterSeal true) s = .next t ∧ t.meter.sealed_ = true ∧ t.meter.armed = none
        ∧ t.meter.hmk ≠ none ∧ t.meter.audit.length = 1 ∧ t.meter.jrel = 0 ∧ t.meter.committed = m.committed)
    ∧ (∀ low, m.power = true → m.sealed_ = true → ∃ t, exec (.meterSeal low) s = .next t
      ∧ t.meter.sealed_ = true ∧ t.meter.hmk = m.hmk ∧ t.meter.audit = m.audit)
    ∧ (∀ v, s.meter.sealed_ = false → s.meter.power = true →
      ∃ t, exec (.sealRegisterWrite offMeterOwnerLo v) s = .next t
        ∧ csrGet t offMeterOwnerLo = v ∧ sealReg t.meter offMeterOwnerLo = v)
    ∧ (∀ o v, isSealReg o = true → s.meter.sealed_ = false → s.meter.power = true →
      ∃ t, exec (.sealRegisterWrite o v) s = .next t ∧ sealReg t.meter o = csrGet t o)
    ∧ (∀ o v, s.meter.sealed_ = true → exec (.sealRegisterWrite o v) s = .next s)

/-- R415, R418, R421–R426, R433–R435: a queued storage command of a mounted device that is the first of
its partition is performed, leaves the queue and completes with its code in NAND_CRES; each opcode's effect
on flash, map and memory; a refused one has none, and one behind another of its partition, or behind work
that goes first on its target (R434), waits. Whether a SYNC times out is free (log entry 190).
An append with COMPRESS first passes its chunks to the crucible, and is performed once all have ended.
The readings of log entries 87 to 91 and 174 apply. -/
def Obligations.StorageCommands : Prop :=
  ∀ (s : State) (i : Nat) (w : FlashWorld) (c : NandCmd), s.nand.q[i]? = some c → s.nand.mounted = true →
    let p := nPart c
    let x := partGet s p
    let W := fun j => (nW c j).toNat
    let rows : List (Nat × Instr) := [(1, .append i w), (2, .read i w), (3, .trim i w), (4, .erasepart i w),
      (5, .readrec i w), (6, .rawread i w), (7, .patrol i), (8, .sync i), (9, .setpart i w)]
    let ends := fun (r : Instr) (code : Nat) (t : State) => exec r s = .next t
      ∧ t.nand.q = s.nand.q.eraseIdx i ∧ csrGet t offNandCres = wordOf (c.cseq * 65536 + code)
    let quiet := nW c 1 = 0xFFFFFFFF#32 ∧ s.nand.done = []
    let fresh := ∀ g ∈ freeBlocks s p, (blkGet s g).erases < endurLimit s
    let waits := nOp c ≠ 7 ∧ priorDue s (cmdClass c) (cmdTarget s c) = true
    (∀ r ∈ rows, nOp c = r.1 → (∃ d ∈ s.nand.q.take i, nPart d = p) → exec r.2 s = .next s)
    ∧ ((∀ d ∈ s.nand.q.take i, nPart d ≠ p) →
      (∀ r ∈ rows, nOp c = r.1 → nandCheck s c ≠ 0 →
        ∃ t, ends r.2 (nandCheck s c) t ∧ t.nand.unit = s.nand.unit ∧ t.nand.part = s.nand.part
          ∧ t.nand.blk = s.nand.blk ∧ t.nand.table = s.nand.table)
      ∧ (∀ r ∈ rows, nOp c = r.1 → nandCheck s c = 0 → nCompress c = false → waits → exec r.2 s = .next s)
      ∧ (nandCheck s c = 0 → ¬ waits →
        (nOp c = 1 → w.timeout = false → fresh → nCompress c = false → 0 < W 3 → W 3 ≤ 65536 →
          nandArea s (W 2) (W 3) = true → resultOk s c = true → readOnlyPart s p = false → w.progFails = [] →
          blocksNeeded s p x.next ((8 + W 3 + 4095) / 4096) ≤ freeOutside s p → unitAt s p x.next = none →
          ∃ t, ends (.append i w) 0 t ∧ (partGet t p).next = x.next + (8 + W 3 + 4095) / 4096
            ∧ (W 3 ≤ 4088 → ∃ g pl u, unitAt t p x.next = some (g, pl) ∧ unitGet t g pl = some u
              ∧ u.first = true
              ∧ u.data = [0x50#8, 0x41#8, 0#8, 0#8] ++ leBytes 4 (W 3) ++ memBytes s (W 2) (W 3)))
        ∧ (nOp c = 1 → w.timeout = false → fresh → nCompress c = true → 0 < W 3 → appendCheck s c = 0 →
          (smapGet none s.nand.comp c.cseq = none →
            (s.cruc.q.filter fun r => r.queue == 1).length + (chunksOf c).length ≤ 32 →
            ∃ t, exec (.append i w) s = .next t ∧ t.nand.q = s.nand.q
              ∧ (smapGet none t.nand.comp c.cseq).isSome = true)
          ∧ (∀ l bs, smapGet none s.nand.comp c.cseq = some l → (chunksOf c).length ≤ l.length →
            compressFrames s c = some bs → w.progFails = [] →
            blocksNeeded s p x.next ((8 + bs.length + 4095) / 4096) ≤ freeOutside s p →
            ∃ t, ends (.append i w) 0 t ∧ (partGet t p).next = x.next + (8 + bs.length + 4095) / 4096))
        ∧ (nOp c = 2 → w.timeout = false → 1 ≤ W 3 → W 3 ≤ 16 → nandArea s (W 2) (4096 * W 3) = true →
          x.low ≤ W 4 → W 4 + W 3 ≤ x.next → ∀ us : List FlashUnit, us.length = W 3 →
          (∀ j u, us[j]? = some u → u.data.length ≤ 4096
            ∧ ∃ g pl, unitAt s p (W 4 + j) = some (g, pl) ∧ unitGet s g pl = some u) →
          ((∀ u ∈ us, u.lost = false) → w.faults = [] → ∃ t, ends (.read i w) 0 t
            ∧ (quiet → memBytes t (W 2) (4096 * W 3)
              = us.flatMap fun u => u.data ++ List.replicate (4096 - u.data.length) 0xFF#8))
          ∧ ((∃ u ∈ us, u.lost = true) → ∃ t, ends (.read i w) 0xC6 t))
        ∧ (nOp c = 3 → w.timeout = false → W 4 ≤ x.next → ∃ t, ends (.trim i w) 0 t
          ∧ (partGet t p).low = max x.low (W 4) ∧ (partGet t p).next = x.next)
        ∧ (nOp c = 4 → w.timeout = false → ∃ t, ends (.erasepart i w) 0 t ∧ (partGet t p).next = 0
          ∧ (partGet t p).low = 0 ∧ ∀ g ∈ partBlocks s p, (blkGet t g).state ≠ .used)
        ∧ (nOp c = 5 → w.timeout = false → w.faults = [] → 1 ≤ W 3 → W 3 ≤ 512 →
          nandArea s (W 2) (128 * W 3) = true → nW c 7 = 0 → s.meter.jrel < W 4 + W 5 * 4294967296 →
          W 4 + W 5 * 4294967296 ≤ s.meter.jrseq → ∃ t, ends (.readrec i w) 0 t
            ∧ ∀ l, l = (((recordsFrom s (W 4 + W 5 * 4294967296)).filter
                fun y => decide (y.1 ≤ s.meter.jrseq)).take (W 3)).flatMap (fun y => y.2.1) →
              quiet → s.poison = [] → memBytes t (W 2) l.length = l)
        ∧ (nOp c = 6 → w.timeout = false → nandArea s (W 2) (4608 * unitsInPage s) = true → resultOk s c = true →
          fld (nW c 4) 15 0 % 16384 < targetBlocks s (fld (nW c 4) 15 0) → fld (nW c 4) 31 16 < s.nand.ppb →
          ∃ t, ends (.rawread i w) 0 t
            ∧ (blkGet t (fld (nW c 4) 15 0)).reads = (blkGet s (fld (nW c 4) 15 0)).reads + 1)
        ∧ (nOp c = 7 → ∃ t, ends (.patrol i) 0 t ∧ t.nand.patrol = programmedPages s ∧ t.nand.patrolCmd = true
          ∧ t.nand.patrolAt = some (elapsed s.time))
        ∧ (nOp c = 8 → ∃ t, ends (.sync i) (if Config.flashTimeout s.free then 0xC8 else 0) t
          ∧ t.nand.unit = s.nand.unit
          ∧ (Config.flashTimeout s.free = false → t.nand.dirty = false ∧ t.nand.anchor.length = 2))
        ∧ (nOp c = 9 → w.timeout = false → nandArea s (W 2) 256 = true →
          (s.dev.run = true →
            ∃ t, ends (.setpart i w) 0xCB t ∧ t.nand.table = s.nand.table)
          ∧ (s.dev.run = false → s.meter.sealed_ = false →
            (tableOk s (memBytes s (W 2) 256) = false →
              ∃ t, ends (.setpart i w) 0xCA t ∧ t.nand.table = s.nand.table)
            ∧ (tableOk s (memBytes s (W 2) 256) = true →
              ∃ t, ends (.setpart i w) 0 t ∧ t.nand.table = some (memBytes s (W 2) 256))))))

/-- R413, R421, R427–R433: NAND_CMDGO queues the eight words under the next CSEQ or drops them on a full
queue; a mount rebuilds the map; and the controller's own work: handovers, parameter images, compaction,
static moves, refreshes and patrol reads, each where nothing goes before it (R434).
The readings of log entries 91 to 94 apply. -/
def Obligations.StorageWork : Prop :=
  ∀ (s : State),
    let n := s.nand
    let words := (List.range 8).map fun i => csrGet s (offNandCmd + 4 * i)
    let seq := (csrFld s offNandCsent 15 0 + 1) % 65536
    let calm := fun (w : FlashWorld) => w.timeout = false ∧ w.progFails = []
    let fresh := fun (p : Nat) => ∀ g ∈ freeBlocks s p, (blkGet s g).erases < endurLimit s
    (32 ≤ n.q.length → ∃ t, exec .nandCmdGo s = .next t ∧ t.nand = n
      ∧ csrGet t offNandCsent = csrGet s offNandCsent)
    ∧ (n.q.length < 32 → (n.mounted = false ∨ ∀ d ∈ n.q ++ [⟨words, seq⟩], nandOpcode (nOp d) = true) →
      ∃ t, exec .nandCmdGo s = .next t ∧ t.nand.q = n.q ++ [⟨words, seq⟩] ∧ csrGet t offNandCsent = wordOf seq)
    ∧ (n.q = [] → n.mounted = true → nandOpcode (fld (words.getD 0 0) 7 0) = false →
      ∃ t, exec .nandCmdGo s = .next t ∧ t.nand.q = []
        ∧ csrGet t offNandCres = wordOf (seq * 65536 + 0xC0))
    ∧ (∀ (ts : List (Option NandTarget)) (x : NandTarget), n.mounted = false → x.crcOk = true → targetOk x = true →
      (∀ y, some y ∈ ts.take 4 → y = x) → some x ∈ ts.take 4 →
      ∃ t, exec (.nandMount ts) s = .next t ∧ t.nand.mounted = true ∧ t.nand.blank = n.anchor.isEmpty
        ∧ t.nand.unclean = n.dirty ∧ t.nand.dirty = false ∧ t.nand.ppb = x.ppb ∧ t.nand.page16 = (x.pageKib == 16)
        ∧ (∀ j, j < 4 → t.nand.blocks.getD j 0 = (if ts.getD j none = some x then x.blocks else 0)
          ∧ t.nand.timing.getD j none = if ts.getD j none = some x then some (min n.tmode x.mode) else none)
        ∧ t.nand.table = n.anchor.head?.map (fun a => a.table)
        ∧ (n.anchor = [] → (∀ kb ∈ n.blk, kb.2.reloc = false) → t.nand.unit = n.unit))
    ∧ (n.mounted = false → ∀ ts, (∀ y, some y ∈ ts.take 4 → y.crcOk = false ∨ targetOk y = false) →
      ∃ t, exec (.nandMount ts) s = .next t ∧ t.nand.mounted = true ∧ (∀ j, t.nand.blocks.getD j 0 = 0))
    ∧ (∀ w h r b, calm w → n.mounted = true → (partEntry s 3).isSome = true → readOnlyPart s 3 = false →
      n.hand = h :: r → h.getLast? = some b →
      (findBlock s 3 (slotBlock s)).isSome = true ∨ (0 < freeOutside s 3 ∧ fresh 3) →
      ∃ t, exec (.nandHandover w) s = .next t ∧ t.nand.hand = r ∧ t.meter.jrseq = recSeq b
        ∧ (partGet t 3).next = (partGet s 3).next + 1)
    ∧ (∀ w im r, calm w → n.mounted = true → (partEntry s 3).isSome = true → readOnlyPart s 3 = false →
      n.images = im :: r → findBlock s 3 (1 - n.paramAt) = none → 0 < freeOutside s 3 → fresh 3 →
      ∃ t, exec (.nandParamImage w) s = .next t ∧ t.nand.images = r ∧ t.nand.paramAt = 1 - n.paramAt)
    ∧ (∀ w, calm w → n.mounted = true → compactDue s = true → priorDue s 3 (partTarget s 3) = false →
      freeBlocks s 3 ≠ [] → fresh 3 →
      let from_ := (shortRuns (liveSlots s w)).flatten
      ((shortRuns (liveSlots s w)).flatMap (mergedSlots s)).length = 1 → ∃ t, exec (.nandCompact w) s = .next t
        ∧ (partGet t 3).next = (partGet s 3).next + 1
        ∧ ∀ y ∈ from_, ∀ u, unitGet t y.2.1 y.2.2.1 = some u → u.old = true)
    ∧ (∀ p w lo hi g h, calm w → n.mounted = true → priorDue s 3 (partTarget s p) = false → bitOf (csrGet s offNandCtl) 30 = true →
      (partGet s p).wlAt = none → lowestErases s (goodBlocks s p) = some lo →
      highestErases s (goodBlocks s p) = some hi →
      lowestErases s ((partBlocks s p).filter fun b => (blkGet s b).state == .used) = some g →
      highestErases s (freeBlocks s p) = some h →
      (blkGet s lo).erases + csrFld s offNandWl 15 0 < (blkGet s hi).erases →
      ∃ t, exec (.nandWlMove p w) s = .next t ∧ (blkGet t g).state ≠ .used ∧ (blkGet t h).state = .used
        ∧ (blkGet t h).lblk = (blkGet s g).lblk ∧ (blkGet t h).part = (blkGet s g).part
        ∧ ∀ pl u, (blockUnits s g).filter (fun y => y.1 == pl) = [(pl, u)] →
          ∃ v, unitGet t h pl = some v ∧ v.data = u.data)
    ∧ (∀ g w, calm w → n.mounted = true → refreshDue s g = true → priorDue s 3 (g / 16384) = false →
      freeBlocks s (blkGet s g).part ≠ [] → fresh (blkGet s g).part →
      ∃ t h, exec (.nandRefresh g w) s = .next t ∧ h ∈ freeBlocks s (blkGet s g).part
        ∧ (blkGet t g).state ≠ .used ∧ (blkGet t h).state = .used ∧ (blkGet t h).lblk = (blkGet s g).lblk
        ∧ ∀ pl u, (blockUnits s g).filter (fun y => y.1 == pl) = [(pl, u)] →
          ∃ v, unitGet t h pl = some v ∧ v.data = u.data ∧ v.reloc = true)
    ∧ (∀ w y r, w.timeout = false → n.mounted = true → n.patrol = y :: r →
      bitOf (csrGet s offNandCtl) 31 = true ∨ n.patrolCmd = true →
      n.patrolAt.getD 0 + (n.patrolLen - n.patrol.length) * patrolPeriod s / n.patrolLen ≤ elapsed s.time →
      priorDue s 4 (y / 512 / 16384) = false →
      ∃ t, exec (.nandPatrolRead w) s = .next t ∧ t.nand.patrol = r ∧ t.nand.unit = n.unit
        ∧ (y ∈ programmedPages s → cntGet t offNandRead = cntGet s offNandRead + 1
          ∧ (blkGet t (y / 512)).reads = (blkGet s (y / 512)).reads))

/-- R441–R444, R463: what a role command answers and does by the role, the link and the peer; the end of
a START_STANDBY and of a DEMOTE that no peer answers; and the clearing of MIRR_CTL.EN.
The readings of log entries 110 and 111 apply. -/
def Obligations.MirrorRoleCommands : Prop :=
  ∀ (s : State),
    let m := s.mirr
    let cmds : List Instr := [.startActive, .startStandby, .promote false, .promote true, .demote, .rejoin, .mirrSync]
    let answers := fun (i : Instr) (v : Word) (t : State) => exec i s = .next t ∧ csrGet t offMirrCmdstat = v
    let top := max (mirrEpoch s) (csrGet s offMirrPeerEpoch).toNat
    (m.cmd ≠ none → ∀ i ∈ cmds, ∃ t, answers i 0xC00000A9#32 t ∧ t.mirr = m)
    ∧ (m.cmd = none → mirrEn s = false → ∀ i ∈ cmds, ∃ t, answers i 0x800000A0#32 t ∧ t.mirr = m)
    ∧ (m.cmd = none → mirrEn s = true → m.pairErr = true → ∀ i ∈ cmds, ∃ t, answers i 0x800000A7#32 t ∧ t.mirr = m)
    ∧ (m.cmd = none → mirrEn s = true → m.pairErr = false →
      (linkReady s = false → ∀ i ∈ [Instr.startActive, .startStandby, .rejoin, .mirrSync],
        ∃ t, answers i 0x800000A1#32 t ∧ t.mirr = m)
      ∧ (linkReady s = true → m.role = .init →
        (∃ t, exec .startActive s = .next t ∧ t.mirr.cmd = some (.startActive 3 (nfnOf s)) ∧ t.mirr.role = .init
          ∧ bitOf (csrGet t offMirrCmdstat) 30 = true)
        ∧ (∃ t, exec .startStandby s = .next t ∧ t.mirr.cmd = some (.startStandby (s.time.ticks + 8000))
          ∧ t.mirr.role = .init ∧ bitOf (csrGet t offMirrCmdstat) 30 = true))
      ∧ (∀ force, m.role = .standby →
        (force = true ∨ activeHeard s = false → top < 4294967295 →
          ∃ t, answers (.promote force) 0x80000000#32 t ∧ t.mirr.role = .active
            ∧ csrGet t offMirrEpoch = wordOf (top + 1)
            ∧ ∀ j, j < 4 → (macGet s j).gated = true → (macGet t j).ungate = true)
        ∧ (force = false → activeHeard s = true →
          ∃ t, answers (.promote force) 0x800000A2#32 t ∧ t.mirr.role = .standby))
      ∧ (∀ force, m.role = .fenced → ∃ t, answers (.promote force) 0x800000A3#32 t ∧ t.mirr.role = .fenced)
      ∧ (m.role = .active → m.peerRole = 1 → m.peerInsync = true → m.linkOk = true →
        ∃ t, answers .demote 0x80000000#32 t ∧ t.mirr.role = .standby
          ∧ csrGet t offMirrEpoch = csrGet s offMirrEpoch ∧ t.mirr.demote = some (0, nfnOf s)
          ∧ ∀ j, j < 4 → bitOf (macReg s j offMacCtl) 26 = true → (macGet t j).gated = true)
      ∧ (m.role = .active → m.peerRole ≠ 1 ∨ m.peerInsync = false ∨ m.linkOk = false →
        ∃ t, answers .demote 0x800000A6#32 t ∧ t.mirr.role = .active)
      ∧ (linkReady s = true → m.role = .fenced → activeOnLink s = true →
        ∃ t, answers .rejoin 0x80000000#32 t ∧ t.mirr.role = .standby ∧ t.mirr.wantSync = true
          ∧ csrGet t offMirrEpoch = wordOf top)
      ∧ (linkReady s = true → m.role = .fenced → activeOnLink s = false →
        ∃ t, answers .rejoin 0x800000A5#32 t ∧ t.mirr.role = .fenced)
      ∧ (linkReady s = true → m.role = .active → bindings s = [] → s.meter.open_ = [] → m.posts = [] →
        mirrHeld s = false → m.win.length < 1024 → ∃ t, answers .mirrSync 0x80000000#32 t
          ∧ t.mirr.win = m.win ++ [⟨m.seq, 0x13, true, m.restart, [], [], 1, s.time.ticks⟩]))
    ∧ (∀ k, m.cmd = some (.startStandby k) → k ≤ s.time.ticks →
      ∃ t, answers .startStandbyTimeout 0x800000AA#32 t ∧ t.mirr.cmd = none ∧ t.mirr.role = m.role)
    ∧ (∀ k, m.demote = some k → 3 ≤ k.1 →
      ∃ t, exec .demoteTimeout s = .next t ∧ t.mirr.demote = none ∧ t.mirr.role = m.role)
    ∧ (∀ v, mirrEn s = true → ∃ t, exec (.mirrDisable v) s = .next t ∧ mirrEn t = false
      ∧ t.mirr.role = .init ∧ t.mirr.cmd = none ∧ csrGet t offMirrEpoch = csrGet s offMirrEpoch
      ∧ ∀ j, j < 4 → (macGet s j).gated = true → (macGet t j).ungate = true)

/-- R446–R449, R456, R457: a heartbeat leaves at the own slot; a pulse, its width measured to 20 ns (log
entry 194), shows its role; a slot is judged
on both paths, and three silent ones promote a standby whose MIRR_CTL.AUTO is set; unacknowledged frames
are sent again and a stall ends them; a due ACK is sent.
The readings of log entries 107, 109 and 118 apply. -/
def Obligations.MirrorBeatsAndDeath : Prop :=
  ∀ (s : State), mirrEn s = true →
    let m := s.mirr
    let top := max (mirrEpoch s) (csrGet s offMirrPeerEpoch).toNat
    (nfnOf s % 80 = slotPhase s true → m.beatAt ≠ nfnOf s + 1 → mirrHeld s = false →
      ∃ t, exec .heartbeatSend s = .next t ∧ t.mirr.beatAt = nfnOf s + 1
        ∧ t.mirr.pulse = pulseWidth m.role ∧ t.mirr.pulseAt = elapsed s.time
        ∧ (macDown s 4 = false → ∃ f ∈ (macGet t 4).tx, isMirrType f 1 = true) ∧ cntGet t offMirrTxfrm = cntGet s offMirrTxfrm + 1)
    ∧ (∀ p ns, pinSlot s = some p → let w := ns / 20 * 20
      (3500 ≤ w → w ≤ 4500 → ∃ t, exec (.peerHbPulse ns) s = .next t ∧ t.mirr.peerRole = 2
        ∧ t.mirr.pinSlot = p + 1)
      ∧ (7500 ≤ w → w ≤ 8500 → ∃ t, exec (.peerHbPulse ns) s = .next t ∧ t.mirr.peerRole = 3
        ∧ t.mirr.pinSlot = p + 1)
      ∧ (w < 1500 ∨ (2500 < w ∧ w < 3500) ∨ (4500 < w ∧ w < 7500) ∨ 8500 < w →
        exec (.peerHbPulse ns) s = .next s))
    ∧ (∀ p, dueSlot s = some p → m.judged ≠ p + 1 → m.cmd = none →
      (m.linkSlot = p + 1 → ∃ t, exec .peerSlotJudge s = .next t ∧ t.mirr.judged = p + 1
        ∧ t.mirr.deadRun = 0 ∧ t.mirr.linkRun = (min 3 (m.linkRun.1 + 1), 0) ∧ t.mirr.role = m.role
        ∧ (m.linkRun.1 = 2 → t.mirr.linkOk = true))
      ∧ (m.linkSlot ≠ p + 1 → m.pinSlot ≠ p + 1 → m.deadRun ≠ 2 → ∃ t, exec .peerSlotJudge s = .next t
        ∧ t.mirr.judged = p + 1 ∧ t.mirr.deadRun = m.deadRun + 1 ∧ t.mirr.role = m.role
        ∧ (m.linkRun.2 = 2 → t.mirr.linkOk = false))
      ∧ (m.linkSlot ≠ p + 1 → m.pinSlot ≠ p + 1 → m.deadRun = 2 → m.role = .standby →
        bitOf (csrGet s offMirrCtl) 30 = true → top < 4294967295 → ∃ t, exec .peerSlotJudge s = .next t
          ∧ t.mirr.role = .active ∧ t.mirr.peerRole = 7 ∧ csrGet t offMirrEpoch = wordOf (top + 1)))
    ∧ (∀ p k at_, dueSlot s = some p → m.judged ≠ p + 1 → m.cmd = some (.startActive k at_) → m.linkSlot = p + 1 →
      (p ≤ at_ → ∃ t, exec .peerSlotJudge s = .next t ∧ t.mirr.cmd = m.cmd ∧ t.mirr.role = m.role)
      ∧ (at_ < p → 1 < k → ∃ t, exec .peerSlotJudge s = .next t ∧ t.mirr.cmd = some (.startActive (k - 1) at_)
        ∧ t.mirr.role = m.role)
      ∧ (at_ < p → k ≤ 1 → top < 4294967295 → ∃ t, exec .peerSlotJudge s = .next t ∧ t.mirr.cmd = none
        ∧ t.mirr.role = .active ∧ csrGet t offMirrEpoch = wordOf (top + 1)))
    ∧ (∀ f r, m.win = f :: r → mirrHeld s = false → f.since + retxTmo s ≤ s.time.ticks →
      (f.sent < retxMax s + 1 → ∃ t, exec .retxTimeout s = .next t
        ∧ t.mirr.win = m.win.map fun g => { g with sent := g.sent + 1, since := s.time.ticks })
      ∧ (retxMax s + 1 ≤ f.sent → m.role = .standby → ∃ t, exec .retxTimeout s = .next t
        ∧ t.mirr.win = [] ∧ t.mirr.restart = true ∧ t.mirr.wantSync = true ∧ t.mirr.insync = false))
    ∧ (∀ d, m.ackDue = some d → d ≤ elapsed s.time → mirrHeld s = false →
      ∃ t, exec .ackSend s = .next t ∧ t.mirr.ackDue = none
        ∧ (macDown s 4 = false → ∃ f ∈ (macGet t 4).tx, isMirrType f 2 = true) ∧ cntGet t offMirrTxfrm = cntGet s offMirrTxfrm + 1)

/-- R443–R445, R452, R454, R456–R461, R466: a mirror frame at the head of MAC4's FIFO leaves it and acts by
its TYPE on a standby of its epoch, in sequence where it is sequenced; a higher epoch fences an active
unit, and a lower one is stale.
The readings of log entries 106 to 109, 113, 114 and 116 apply. -/
def Obligations.MirrorFramesReceived : Prop :=
  ∀ (s : State) (f : RxFrame) (r : List RxFrame) (x : MirrRx), (macGet s 4).rx = f :: r → mirrEn s = true →
    mirrParse f = some (x, ! s.dev.pairId) → s.mirr.cmd = none →
    let m := s.mirr
    let p := x.payload
    let n := beAt p 0 2
    let next := (x.seq + 1) % 4294967296
    let takes := fun (i : Instr) (t : State) => exec i s = .next t ∧ (macGet t 4).rx = r
      ∧ t.mirr.peerRole = x.role
    (x.type = 2 → mirrEpoch s < x.epoch → m.role = .active →
      ∃ t, takes .mirrRxAck t ∧ t.mirr.role = .fenced ∧ csrGet t offMirrPeerEpoch
        = wordOf (max (csrGet s offMirrPeerEpoch).toNat x.epoch))
    ∧ (x.type = 2 → x.epoch < mirrEpoch s → ∃ t, takes .mirrRxAck t ∧ t.mirr.role = m.role
      ∧ t.mirr.win = m.win ∧ cntGet t offMirrStale = cntGet s offMirrStale + 1)
    ∧ (x.type = 0x11 → x.epoch = mirrEpoch s → m.role = .active → x.role ≠ 2 → m.win = [] → x.seq = m.expect →
      let route := csrGet s (offQmgrEvroute + 0x44)
      let q := queueGet s (fld route 15 0)
      (byteAt p 2 = 0 → ∃ t, takes .mirrRxDescres t ∧ t.mirr.expect = next ∧ t.qmgr = s.qmgr)
      ∧ (byteAt p 2 ≠ 0 → bitOf route 31 = false → ∃ t, takes .mirrRxDescres t ∧ t.mirr.expect = next
        ∧ cntGet t offQmgrEvdisc = cntGet s offQmgrEvdisc + 1)
      ∧ (byteAt p 2 ≠ 0 → bitOf route 31 = true → q.en = true → q.items.length < q.limit →
        csrFld s offQmgrClrLowev 18 0 + 128 < freeCells s → ∃ t it, takes .mirrRxDescres t ∧ t.mirr.expect = next
        ∧ (queueGet t (fld route 15 0)).items = q.items ++ [it]))
    ∧ (x.epoch = mirrEpoch s → m.role = .standby → m.posts = [] →
      (x.type = 2 → ∃ t, takes .mirrRxAck t ∧ t.mirr.role = .standby
        ∧ t.mirr.win = m.win.filter (fun g => ! seqUpTo g.seq x.ack))
      ∧ (x.type = 1 → m.listen = none → ∃ t, takes .mirrRxHeartbeat t ∧ t.mirr.role = .standby
        ∧ t.mirr.peerSleep = (byteAt p 8).testBit 3 ∧ t.mirr.peerInsync = (byteAt p 8).testBit 1
        ∧ (beAt p 0 8 % 80 = slotPhase s false → beAt p 0 8 = nfnOf s → t.mirr.linkSlot = nfnOf s + 1))
      ∧ (x.type = 0x20 → p.length = 600 → m.win = [] →
        (bindGet s (beAt p 8 2) = none → ∃ t, takes .mirrRxState t
          ∧ cntGet t offMirrStdrop = cntGet s offMirrStdrop + 1 ∧ (m.syncEnd = false → t.mem = s.mem))
        ∧ ((bindGet s (beAt p 8 2)).isSome = true → chanActive s (beAt p 8 2) = true →
          (chanStat s (beAt p 8 2)).getLsbD 9 = false → (smapGet MirrKeep.reset m.keep (beAt p 8 2)).state = none →
          s.poison = [] → m.syncEnd = false → ∃ t, takes .mirrRxState t
            ∧ memBytes t (chanAddr s (beAt p 8 2) + 0x40) 560 = (p.drop 16).take 560))
      ∧ (x.type = 0x21 → m.win = [] → s.poison = [] →
        let a := beAt p 10 2
        (ecCount s ≤ a → ∃ t, takes .mirrRxEcrec t
          ∧ cntGet t offMirrEcdrop = cntGet s offMirrEcdrop + 1 ∧ (m.syncEnd = false → t.mem = s.mem))
        ∧ (a < ecCount s → ecMagic s a = 0x4543 → (ecRefOf s a).owner = beAt p 8 2 →
          (ecRefOf s a).mode = leAt ((p.drop 16).take 2048) 0x604 4 % 8 → m.syncEnd = false → ∃ t, takes .mirrRxEcrec t
            ∧ memBytes t (ecAddr s a + 0x800) 0x600 = (p.drop 16).take 0x600))
      ∧ (x.type = 0x30 → m.win = [] → ∀ d, m.fingers.find? (fun g => g.1 == beAt p 0 8) = some d →
        (d.2 = p.drop 8 → ∃ t, takes .mirrRxFinger t ∧ t.mirr.misRun = 0 ∧ t.mirr.cfgMis = false)
        ∧ (d.2 ≠ p.drop 8 → ∃ t, takes .mirrRxFinger t ∧ t.mirr.misRun = min 3 (m.misRun + 1)
          ∧ t.mirr.cfgMis = (m.cfgMis || decide (2 ≤ m.misRun))))
      ∧ (x.seq = m.expect → m.win = [] →
        (x.type = 3 → byteAt p 0 = 2 → max (mirrEpoch s) (csrGet s offMirrPeerEpoch).toNat < 4294967295 →
          ∃ t, takes .mirrRxRole t ∧ t.mirr.role = .active
            ∧ csrGet t offMirrEpoch = wordOf (max (mirrEpoch s) (csrGet s offMirrPeerEpoch).toNat + 1))
        ∧ (x.type = 0x10 → chanCount s ≤ n → ∃ t, takes .mirrRxDesc t ∧ t.mirr.expect = next ∧ t.mem = s.mem)
        ∧ (x.type = 0x10 → n < chanCount s → bindGet s n = none → checkWaits s n = false → s.poison = [] →
          bitOf (descWord s n 0) 0 = false → byteAt p 4 % 2 = 0 → ∃ t, takes .mirrRxDesc t
            ∧ t.mirr.expect = next ∧ memBytes t (chanAddr s n) 0x20 = (p.drop 4).take 0x20)
        ∧ (x.type = 0x11 → ∃ t, takes .mirrRxDescres t ∧ t.mirr.expect = next ∧ t.mirr.ackDue ≠ none
          ∧ t.chan = s.chan ∧ t.mem = s.mem)
        ∧ (x.type = 0x12 → ∃ t, takes .mirrRxCall t ∧ t.mirr.expect = next ∧ t.mirr.ackDue ≠ none
          ∧ smapGet none t.mirr.calls n = if byteAt p 2 = 3 then none
            else some ⟨beAt p 4 4, byteAt p 3, (p.drop 8).take 10⟩)
        ∧ (x.type = 0x13 → bindings s = [] → ∃ t, takes .mirrRxSyncend t ∧ t.mirr.expect = next
          ∧ t.mirr.syncEnd = true ∧ t.mirr.wantSync = false ∧ t.mirr.insync = true)
        ∧ (x.type = 0x22 → p.length = 32 → byteAt p 10 = 1 → ∃ t, takes .mirrRxHorizon t ∧ t.mirr.expect = next
          ∧ (smapGet MirrKeep.reset t.mirr.keep (beAt p 8 2)).send = some (beAt p 0 8, beAt p 12 6, beAt p 20 4))
        ∧ (x.type = 0x40 → bitOf (csrGet s offMirrUserrx) 31 = true →
          let q := csrFld s offMirrUserrx 15 0
          (queueGet s q).en = true → (queueGet s q).items.length < (queueGet s q).limit →
          csrFld s offQmgrClrLowev 18 0 + 128 < freeCells s → ∃ t, takes .mirrRxUser t ∧ t.mirr.expect = next
            ∧ ∃ it, (queueGet t q).items = (queueGet s q).items ++ [it])))

/-- R450, R453, R454, R460, R462, R466: snapshots, EC records, fingerprints and USER items are sent to the
peer when they are due, and a sleeping standby wakes once for each window, sleeps again and listens when one
passes with nothing heard.
The readings of log entries 114, 115 and 118 apply. -/
def Obligations.MirrorSendingAndSleep : Prop :=
  ∀ (s : State),
    let m := s.mirr
    let now := elapsed s.time
    (∀ n, mirrActive s = true → bitOf (csrGet s offMirrCtl) 27 = true → m.peerSleep = false → snapDue s n = true → macDown s 4 = false →
      ∃ t f, exec (.stateSnapshot [n]) s = .next t ∧ smapGet 0 t.mirr.snapAt n = nfnOf s + 1
        ∧ (macGet t 4).tx = (macGet s 4).tx ++ [f] ∧ isMirrType f 0x20 = true ∧ t.mem = s.mem)
    ∧ (∀ r n b since, mirrActive s = true → bitOf (csrGet s offMirrCtl) 28 = true → m.peerRole = 1 →
      m.peerSleep = false → macDown s 4 = false → smapGet none m.ecAt r = some (since, false) →
      (∀ o a, ecOldest s = some (o, a) → a < 4000) →
      (bindings s).find? (fun y => y.2.ec.head? == some r) = some (n, b) → b.ec = [r] →
      ∃ t f, exec (.mirrEcrecSend r) s = .next t ∧ smapGet none t.mirr.ecAt r = some (s.time.ticks, true)
        ∧ (macGet t 4).tx = (macGet s 4).tx ++ [f] ∧ isMirrType f 0x21 = true
        ∧ cntGet t offMirrEcsent = cntGet s offMirrEcsent + 1)
    ∧ (mirrEn s = true → nfnOf s % 8000 = 0 → (m.fingers.head?.map fun f => f.1) ≠ some (nfnOf s) →
      mirrHeld s = false → ∃ t, exec .fingerSend s = .next t
        ∧ t.mirr.fingers.head? = some (nfnOf s, fingerBytes (cfgShown s))
        ∧ (macDown s 4 = false → ∃ f ∈ (macGet t 4).tx, isMirrType f 0x30 = true))
    ∧ (∀ i r, let q := csrFld s offMirrUserq 15 0
      mirrEn s = true → bitOf (csrGet s offMirrUserq) 31 = true → (queueGet s q).items = i :: r →
      (itemBytes s i).length ≤ 2176 → mirrHeld s = false → m.posts = [] → m.win.length < 1024 → Ample s →
      ∃ t, exec .mirrUserSend s = .next t ∧ (queueGet t q).items = r
        ∧ t.mirr.win = m.win ++ [⟨m.seq, 0x40, false, m.restart, itemBytes s i, [], 1, s.time.ticks⟩])
    ∧ (sleeps s = true →
      (∀ d peer p, m.asleep = true → wakeWindow s = some (d, peer, p) →
        (m.wokeSlot ≠ p + 1 → ∃ t, exec .sleepWake s = .next t ∧ t.mirr.asleep = false
          ∧ t.mirr.closeAt = now + d ∧ t.mirr.wakePeer = peer ∧ t.mirr.wokeSlot = p + 1)
        ∧ (m.wokeSlot = p + 1 → exec .sleepWake s = .next s))
      ∧ (m.asleep = false → m.listen = none → m.wokeAt + 2000000 ≤ now →
        ∃ t, exec .sleepWake s = .next t ∧ t.mirr.asleep = true)
      ∧ (m.listen = none → m.asleep = false → m.wakePeer = true → m.heardWake = false → m.closeAt < now →
        ∃ t, exec .sleepResync s = .next t ∧ t.mirr.listen = some s.time.ticks ∧ t.mirr.sleepLost = m.sleepLost)
      ∧ (∀ k, m.listen = some k → k + 8000 ≤ s.time.ticks → m.sleepLost = false →
        ∃ t, exec .sleepResync s = .next t ∧ t.mirr.sleepLost = true ∧ t.mirr.listen = some k))

/-- R33, R472–R477, R480, R484, R485, R498: BAR2 reads and writes heartwood and marks accesses past it,
a partial BAR0 write is refused, doorbells of rings and of signals act, MSI-X sends a pending vector,
host software sets the configuration and reads what identifies the endpoint, and a reset of the link clears the
endpoint and stops every ring.
What BAR2 shows of uncorrectable bytes is free: log entry 29; the readings of log entries 131 to
135 and 191 apply. -/
def Obligations.HostWindowsAndLink : Prop :=
  ∀ (s : State),
    let h := s.host
    (barOn s = true →
      (∀ o n, o + n ≤ 0xA000000 → (∀ i, i < n → isPoison s (hwBase + o + i) = false) →
        ∃ t, exec (.bar2Read o n) s = .next t ∧ t.busRead = memBytes s (hwBase + o) n ∧ t.mem = s.mem)
      ∧ (∀ o n, 0xA000000 ≤ o → 0 < n → ∃ t, exec (.bar2Read o n) s = .next t ∧ t.busRead = zeros n
        ∧ bitOf (csrGet t offHostStat) 0 = true ∧ t.mem = s.mem)
      ∧ (∀ o bs, o + bs.length ≤ 0xA000000 → s.poison = [] → ctlTouched s (hwBase + o) bs.length = [] →
        descTouched s (hwBase + o) bs.length = [] → ∃ t, exec (.bar2Write o bs) s = .next t
          ∧ memBytes t (hwBase + o) bs.length = bs ∧ t.chan = s.chan ∧ t.dev = s.dev
          ∧ ∀ a, a < hwBase + o ∨ hwBase + o + bs.length ≤ a → memByte t a = memByte s a)
      ∧ (∀ o bs, 0xA000000 ≤ o → bs ≠ [] → ∃ t, exec (.bar2Write o bs) s = .next t
        ∧ bitOf (csrGet t offHostStat) 0 = true ∧ t.mem = s.mem)
      ∧ (∃ t, exec .bar0PartialWrite s = .next t ∧ bitOf (csrGet t offHostStat) 1 = true ∧ t.mem = s.mem)
      ∧ (∀ r v, r < 16 →
        ((fld v 15 0 + 65536 - ringCons s r) % 65536 ≤ ringSize s r →
          ∃ t, exec (.ringDoorbell r v) s = .next t ∧ ringProd t r = fld v 15 0 ∧ ringRun t r = ringRun s r
            ∧ t.host = h)
        ∧ (ringSize s r < (fld v 15 0 + 65536 - ringCons s r) % 65536 →
          ∃ t, exec (.ringDoorbell r v) s = .next t ∧ ringRun t r = false
            ∧ csrGet t (ringReg offHostRingStat r) = 0x80000001#32))
      ∧ (∀ k v, k < 64 → smapGet none h.held k = none →
        let w := csrGet s (offHostDbtgt + 4 * k)
        (w = 0xFFFFFFFF#32 → ∃ t, exec (.signalDoorbell k v) s = .next t ∧ t.core = s.core
          ∧ cntGet t offHostDbdrop = cntGet s offHostDbdrop + 1)
        ∧ (isKind1 w = true → undeliverable s w = none →
          ((ctxGet s (targetCtx w)).sigq.length < 16 → ∃ t, exec (.signalDoorbell k v) s = .next t
            ∧ (ctxGet t (targetCtx w)).sigq
              = (ctxGet s (targetCtx w)).sigq ++ [(wordOf (0x8212 + k * 65536), v)])
          ∧ (16 ≤ (ctxGet s (targetCtx w)).sigq.length → ∃ t, exec (.signalDoorbell k v) s = .next t
            ∧ smapGet none t.host.held k = some v ∧ t.core = s.core))))
    ∧ (∀ v, v ∈ h.pend → bitOf (msixWord s (4 * v + 3)) 0 = false → mastering s = true → h.msixEn = true →
      h.funMask = false → smapGet 0 h.sentAt v = 0 → ∃ t, exec (.msixSend v) s = .next t
        ∧ v ∉ t.host.pend ∧ t.host.sent = some v ∧ smapGet 0 t.host.sentAt v = elapsed s.time + 1)
    ∧ (h.on = true → ∀ i ∈ [Instr.pcieHotReset, .pcieLinkDown, .pcieFlr], ∃ t, exec i s = .next t
      ∧ t.host.memEn = false ∧ t.host.busMaster = false ∧ t.host.msixEn = false ∧ t.host.table = []
      ∧ (∀ r, r < 16 → ringRun t r = false ∧ ringProd t r = 0 ∧ ringCons t r = ringCons s r)
      ∧ t.host.d3 = false ∧ csrGet t offHostStat = 0)
    ∧ (h.on = true → ∀ speed width (c : PcieCfg), 1 ≤ speed → speed ≤ 4 → 1 ≤ width → width ≤ 4 →
      ∃ t, exec (.pcieLinkChange speed width c) s = .next t ∧ t.host.memEn = c.memEn
        ∧ t.host.busMaster = c.busMaster ∧ t.host.msixEn = c.msixEn ∧ t.host.d3 = c.d3
        ∧ (c.table = [] ∨ c.memEn = false ∨ c.d3 = true → t.host.table = h.table)
        ∧ (c.read = none → t.busRead = s.busRead)
        ∧ (c.read = some .ident → t.busRead = leBytes 2 0x1F3C ++ leBytes 2 (if s.variantH then 0x7161 else 0x7160))
        ∧ (c.read = some .classCode → t.busRead = leBytes 3 0x118000)
        ∧ (c.read = some .sizes → t.busRead = leBytes 2 256 ++ leBytes 2 512)
        ∧ csrGet t offHostStat &&& 0xFE000003#32
          = wordOf (0x80000000 + speed * 0x10000000 + width * 0x2000000) ||| (csrGet s offHostStat &&& 3#32))
    ∧ (h.on = false → s.dev.held = false → 20000000 ≤ elapsed s.time → ∃ t, exec .pcieEndpointEnable s = .next t
      ∧ t.host.on = true ∧ (s.dev.mode = 2 → usbEn t = true ∧ usbRegen t = true
        ∧ csrGet t offUsbImgBase = 0x18000000#32))

/-- R478–R483: the descriptor at CONS of a served ring is committed: its data moved, RESULT and DONE written
to the host, CONS and HOST_DESC one more, the turn the ring's; one that a code turns back moves nothing, and
an error of host memory gives it code 0x06 and stops the ring.
The order of the codes is the model's reading (log entry 130). -/
def Obligations.HostRings : Prop :=
  ∀ (s : State) (r : Nat) (d : List Byte), ringJob s r = none →
    let n := dLen d
    let q := fld (ringCtl s r) 15 0
    let at_ := descAddr s r + 24
    let words := fun code bytes => leBytes 4 (code + bytes % 2 ^ 24 * 256) ++ leBytes 4 1
    let ends := fun (i : Instr) (out : List (Nat × List Byte)) (t : State) => exec i s = .next t
      ∧ t.host.out = out ∧ t.host.turn = r ∧ ringCons t r = (ringCons s r + 1) % 65536
      ∧ cntGet t offHostDesc = cntGet s offHostDesc + 1
    let stops := fun (i : Instr) => ∃ t, exec i s = .next t ∧ ringRun t r = false
      ∧ csrGet t (ringReg offHostRingStat r) = 0x80000002#32 ∧ ringCons t r = ringCons s r
      ∧ t.host.out = [(at_, leBytes 4 6)]
    (ringServed s r false = true → ∀ data err,
      (∀ c, descCode s false d = some c →
        (dOp d ≠ 2 → dOp d ≠ 3 → ∃ t, ends (.ringH2dMsg r d data err true) [(at_, words c 0)] t ∧ t.mem = s.mem)
        ∧ (dOp d = 2 → ∃ t, ends (.ringH2dWrite r d data err true) [(at_, words c 0)] t ∧ t.mem = s.mem)
        ∧ (dOp d = 3 → ∃ t, ends (.ringH2dRead r d err true) [(at_, words c 0)] t ∧ t.mem = s.mem))
      ∧ (descCode s false d = none →
        (dOp d = 1 → stops (.ringH2dMsg r d data true true)
          ∧ ((queueGet s q).en = true → (queueGet s q).items.length < (queueGet s q).limit →
            csrFld s offQmgrClrLowev 18 0 + 128 < freeCells s →
            (∃ t it, ends (.ringH2dMsg r d data false true) [(at_, words 0 n)] t
              ∧ (queueGet t q).items = (queueGet s q).items ++ [it])
            ∧ ∃ t, exec (.ringH2dMsg r d data false false) s = .next t ∧ ringJob t r ≠ none
              ∧ ringCons t r = ringCons s r ∧ (queueGet t q).items = (queueGet s q).items))
        ∧ (dOp d = 2 → stops (.ringH2dWrite r d data true true)
          ∧ (s.poison = [] → ctlTouched s (dAddr d) n = [] → descTouched s (dAddr d) n = [] →
            ∃ t, ends (.ringH2dWrite r d data false true) [(at_, words 0 n)] t
              ∧ memBytes t (dAddr d) n = padTo n data))
        ∧ (dOp d = 3 → stops (.ringH2dRead r d true true)
          ∧ (anyPoison s (dAddr d) n = false → ∃ t, ends (.ringH2dRead r d false true)
              [(dHaddr d, memBytes s (dAddr d) n), (at_, words 0 n)] t ∧ t.mem = s.mem)
          ∧ (anyPoison s (dAddr d) n = true → ∃ t, ends (.ringH2dRead r d false true) [(at_, words 7 0)] t
              ∧ t.mem = s.mem))))
    ∧ (ringServed s r true = true →
      (∀ c err, descCode s true d = some c → ∃ t, ends (.ringD2hMsg r d err true) [(at_, words c 0)] t
        ∧ (queueGet t q).items = (queueGet s q).items)
      ∧ (descCode s true d = none → stops (.ringD2hMsg r d true true)
        ∧ ((queueGet s q).items = [] → exec (.ringD2hMsg r d false true) s = .next s)
        ∧ (∀ i rest, (queueGet s q).items = i :: rest → itemBad s i = false → Ample s →
          (itemBytes s i).length ≤ n → ∃ t, ends (.ringD2hMsg r d false true)
            [(dHaddr d, itemBytes s i), (at_, words 0 (itemBytes s i).length)] t
            ∧ (queueGet t q).items = rest)))

/-- R486–R492: the craft port attaches, resets, suspends and wakes; its standard and vendor requests are
answered or stalled; console, image and alarm transfers move their bytes or are held off.
The readings of log entries 30, 136 and 137 apply. -/
def Obligations.UsbCommands : Prop :=
  ∀ (s : State),
    let u := s.usb
    let oks := fun (i : Instr) (bs : List Byte) (t : State) => exec i s = .next t ∧ t.usb.stall = false
      ∧ t.usb.nak = false ∧ t.busRead = bs
    let stalls := fun (i : Instr) => ∃ t, exec i s = .next t ∧ t.usb.stall = true ∧ t.busRead = [] ∧ t.mem = s.mem
    let naks := fun (i : Instr) => ∃ t, exec i s = .next t ∧ t.usb.nak = true ∧ t.busRead = [] ∧ t.mem = s.mem
    (∃ t, exec (.usbAttach true) s = .next t ∧ t.usb.vbus = true)
    ∧ (∃ t, exec (.usbAttach false) s = .next t ∧ t.usb.vbus = false ∧ t.usb.configured = false
      ∧ t.usb.staged = none ∧ t.usb.suspended = false)
    ∧ (∃ t, exec .usbAlmgo s = .next t
      ∧ t.usb.report = some ((List.range 4).flatMap fun i => leBytes 4 (csrGet s (offUsbAlm + 4 * i)).toNat)
      ∧ cntGet t offUsbAlmovr = cntGet s offUsbAlmovr + (if u.report.isSome then 1 else 0))
    ∧ (usbAttached s = true →
      (∀ hs, ∃ t, exec (.usbBusReset hs) s = .next t ∧ t.usb.configured = false ∧ t.usb.suspended = false
        ∧ t.usb.addr = 0 ∧ t.usb.img = 0 ∧ t.usb.staged = none
        ∧ t.usb.hs = (hs && ! bitOf (csrGet s offUsbCtl) 29)
        ∧ cntGet t offUsbResets = cntGet s offUsbResets + 1)
      ∧ (u.suspended = false → ∃ t, exec .usbSuspend s = .next t ∧ t.usb.suspended = true
        ∧ t.usb.configured = u.configured)
      ∧ (u.suspended = true → ∃ t, exec .usbResume s = .next t ∧ t.usb.suspended = false
        ∧ t.usb.report = u.report)
      ∧ (∀ still, wakeWanted s = true → u.idleAt + 5000000 ≤ elapsed s.time →
        ∃ t, exec (.usbRemoteWake still) s = .next t ∧ t.usb.suspended = false ∧ t.usb.report = u.report
          ∧ cntGet t offUsbWakecol = cntGet s offUsbWakecol + (if still then 1 else 0))
      ∧ (∀ v len, (v % 256 = 1 → ∃ t, oks (.usbStandardRequest 0 9 v len) [] t ∧ t.usb.configured = true)
        ∧ (v % 256 = 0 → ∃ t, oks (.usbStandardRequest 0 9 v len) [] t ∧ t.usb.configured = false)
        ∧ (2 ≤ v % 256 → stalls (.usbStandardRequest 0 9 v len))
        ∧ (∀ type, 3 < type % 128 → stalls (.usbStandardRequest type 9 v len))
        ∧ (∃ t, oks (.usbStandardRequest 0x80 6 0x600 len) (usbQualifier.take len) t)
        ∧ (∃ t, oks (.usbStandardRequest 0 5 v len) [] t ∧ t.usb.addr = v % 128)
        ∧ ∃ t, oks (.usbStandardRequest 0 3 1 len) [] t ∧ t.usb.rwake = true)
      ∧ (∃ t, exec (.getInfo 32) s = .next t ∧ t.usb.stall = false ∧ t.busRead.length = 32)
      ∧ (∀ n, n ≠ 32 → stalls (.getInfo n))
      ∧ (∀ target len, target ≤ 2 → ∃ t, oks (.imgBegin target 4 len) [] t ∧ t.usb.img = 1
        ∧ t.usb.target = target ∧ t.usb.len = len ∧ t.usb.got = 0)
      ∧ (∀ target n len, n ≠ 4 ∨ 2 < target → stalls (.imgBegin target n len))
      ∧ (∀ (w : ImgEnd), w.len = 0 → u.img = 1 → bootReady s 2 = false → ∃ t, oks (.imgEnd w) [] t ∧ t.usb.img = 2
        ∧ t.usb.got = u.got ∧ t.usb.code = u.code)
      ∧ (∀ (w : ImgEnd), w.len = 0 → u.img = 1 → bootReady s 2 = true → u.excess = true → ∃ t, oks (.imgEnd w) [] t ∧ t.usb.img = 2
        ∧ t.usb.code = 0x78 ∧ t.dev.bootRom = true)
      ∧ (∀ (w : ImgEnd), w.len ≠ 0 ∨ u.img ≠ 1 → stalls (.imgEnd w))
      ∧ (∃ t, oks (.getStatus 8) (leBytes 1 u.img ++ leBytes 1 u.code ++ zeros 2 ++ leBytes 4 u.got) t
        ∧ t.usb.staged = none
        ∧ cntGet t offUsbAbandon = cntGet s offUsbAbandon + (if u.staged.isSome then 1 else 0))
      ∧ (∀ n, n ≠ 8 → stalls (.getStatus n))
      ∧ (∀ o v, usbRegen s = true → ∃ t, oks (.regWrite 8 o v) [] t ∧ t.usb.staged = some (o.toNat, v)
        ∧ t.csr = s.csr)
      ∧ (∀ n o v, usbRegen s = false ∨ n ≠ 8 → stalls (.regWrite n o v))
      ∧ (∀ o, usbRegen s = true → ∃ t, oks (.regAddr 4 o) [] t ∧ t.usb.regAddr = o.toNat)
      ∧ (∀ n o, usbRegen s = false ∨ n ≠ 4 → stalls (.regAddr n o))
      ∧ (usbRegen s = true → u.staged = none →
        ∃ t, oks (.regRead 0 4) (leBytes 4 (csrRead s u.regAddr).1.toNat) t)
      ∧ (∀ i n, usbRegen s = false ∨ i ≠ 0 ∨ n ≠ 4 → stalls (.regRead i n))
      ∧ (∀ bs, u.configured = true → u.img = 1 →
        let a := (csrGet s offUsbImgBase).toNat + u.got
        u.got + bs.length ≤ min u.len (imgSize s) → hwBase ≤ a - u.got → a + bs.length ≤ hwEnd → s.poison = [] →
        ctlTouched s a bs.length = [] → descTouched s a bs.length = [] →
        ∃ t, oks (.usbImageData bs) [] t ∧ t.usb.got = u.got + bs.length ∧ memBytes t a bs.length = bs)
      ∧ (∀ bs, u.configured = true → u.img ≠ 1 → stalls (.usbImageData bs)))
    ∧ (usbLive s = true →
      (∀ bs, s.dev.bootRom = false → bitOf (csrGet s offUsbConrx) 31 = true →
        let q := csrFld s offUsbConrx 15 0
        (queueGet s q).en = true → (queueGet s q).items.length < (queueGet s q).limit → bs.length ≤ 14336 →
        csrFld s offQmgrClrLowev 18 0 + 128 < freeCells s →
        ∃ t it, oks (.usbConsoleOut bs) [] t ∧ (queueGet t q).items = (queueGet s q).items ++ [it])
      ∧ (∀ bs, s.dev.bootRom = false → bitOf (csrGet s offUsbConrx) 31 = false → naks (.usbConsoleOut bs))
      ∧ (∀ i r, s.dev.bootRom = false → bitOf (csrGet s offUsbContx) 31 = true →
        let q := csrFld s offUsbContx 15 0
        (queueGet s q).items = i :: r → Ample s →
        ∃ t, oks .usbConsoleIn (itemBytes s i) t ∧ (queueGet t q).items = r)
      ∧ (s.dev.bootRom = false → bitOf (csrGet s offUsbContx) 31 = false → naks .usbConsoleIn)
      ∧ (∀ bs, u.report = some bs → ∃ t, oks .usbAlarmIn bs t ∧ t.usb.report = none)
      ∧ (u.report = none → naks .usbAlarmIn))

/-- R115, R499–R506, R521: the Boot ROM starts the package it verifies once the contexts of the engines it
places have stopped, and waits until they have, or refuses it by its code; RUN is set after
the device check and cleared once no channel is held; OTP takes keys, revocations and the minimum; the
fingerprint key takes effect with its last word, and the fingerprint is recomputed and read.
The readings of log entries 119 to 125 apply. -/
def Obligations.BootRunAndOtp : Prop :=
  ∀ (s : State),
    let d := s.dev
    let started := fun (i : Instr) (source slot : Nat) (b : List Byte) => ∃ t, exec i s = .next t
      ∧ t.dev.bootRom = false ∧ csrFld t offDevBoot 31 28 = source ∧ csrFld t offDevBoot 27 26 = slot % 4
      ∧ csrFld t offDevBoot 15 0 = leAt b 12 4 % 65536
    let waits := fun (i : Instr) => ∃ t, exec i s = .next t ∧ t.dev.bootRom = true ∧ t.dev.bootWait ≠ []
      ∧ t.mem = s.mem
    let stopped := fun (b : List Byte) => (pkgJobs s b).foldl (fun a j => stopEngine a j.1) s
    let still := fun (b : List Byte) => (pkgJobs s b).all fun j => engineStopped (stopped b) j.1
    let refused := fun (i : Instr) (code : Nat) (t : State) => exec i s = .next t ∧ t.dev.bootRom = true
      ∧ csrFld t offDevBoot 23 16 = code ∧ t.core = s.core
    let run := fun (i : Instr) (code : Nat) (t : State) => exec i s = .next t ∧ csrFld t offDevStat 31 24 = code
    let otp := fun (i : Instr) (code : Nat) (t : State) => exec i s = .next t
      ∧ csrGet t offDevOtpstat = wordOf (0x80000000 + code)
    (∀ w, bootReady s 0 = true → s.nand.mounted = true → d.noBoot = false → d.bootOver = false →
      (partitionPkg s w 2).head = none →
      ((partitionPkg s w 1).head = none → ∃ t, exec (.bootSelect w) s = .next t ∧ t.dev.noBoot = true
        ∧ t.dev.bootRom = true ∧ t.core = s.core)
      ∧ ((partitionPkg s w 1).head.isSome = true →
        let v := verifyPkg s (partitionPkg s w 1)
        (v.1 ≠ 0 → ∃ t, refused (.bootSelect w) (v.1 % 256) t ∧ t.dev.noBoot = true)
        ∧ (v.1 = 0 → still v.2.1 = true → (startPkg (stopped v.2.1) 0 v.2.1 v.2.2).2 = 0 →
          started (.bootSelect w) 0 v.2.2 v.2.1)
        ∧ (v.1 = 0 → still v.2.1 = true → (startPkg (stopped v.2.1) 0 v.2.1 v.2.2).2 = 0x77 → ∃ t,
          exec (.bootSelect w) s = .next t ∧ t.dev.bootRom = true ∧ t.dev.bootOver = true ∧ t.dev.noBoot = false
          ∧ csrFld t offDevBoot 23 16 = 0x77)
        ∧ (v.1 = 0 → still v.2.1 = false → waits (.bootSelect w))))
    ∧ (bootReady s 1 = true →
      let v := verifyPkg s (heartwoodPkg s (csrGet s offDevBootaddr).toNat 0xA000000)
      (v.1 ≠ 0 → ∃ t, refused .bootGo (v.1 % 256) t)
      ∧ (v.1 = 0 → still v.2.1 = true → (startPkg (stopped v.2.1) 2 v.2.1 v.2.2).2 = 0 →
        started .bootGo 2 v.2.2 v.2.1)
      ∧ (v.1 = 0 → still v.2.1 = false → waits .bootGo))
    ∧ (d.run = false → d.check = false → ∃ t, exec .runSet s = .next t ∧ t.dev.check = true ∧ t.dev.run = false)
    ∧ (d.check = true → runCode s = 0 → ∃ t, run .runCheck 0 t ∧ t.dev.run = true ∧ t.dev.check = false)
    ∧ (d.check = true → runCode s ≠ 0 → ∃ t, run .runCheck (runCode s) t ∧ t.dev.run = false ∧ t.dev.check = false)
    ∧ (d.run = true → d.check = false → bindings s = [] →
      ∃ t, exec .runClear s = .next t ∧ t.dev.clear = true ∧ t.dev.run = true ∧ t.csr = s.csr)
    ∧ (d.run = true → d.check = false → bindings s ≠ [] →
      ∃ t, run .runClear 0x68 t ∧ t.dev.run = true ∧ t.dev.clear = d.clear)
    ∧ (∀ slot : BitVec 2, let k := slot.toNat
      (smapGet none d.otpKey k = none →
        (∃ t, otp (.otpProgram slot) 0 t ∧ smapGet none t.dev.otpKey k = some (otpData s)
          ∧ t.dev.otpRevoked = d.otpRevoked)
        ∧ ∃ t, otp (.otpRevoke slot) 2 t ∧ t.dev = d)
      ∧ ((smapGet none d.otpKey k).isSome = true → (∃ t, otp (.otpProgram slot) 1 t ∧ t.dev = d)
        ∧ ∃ t, otp (.otpRevoke slot) 0 t ∧ k ∈ t.dev.otpRevoked ∧ t.dev.otpKey = d.otpKey))
    ∧ (d.otpMin < (csrGet s offDevOtpdata).toNat →
      ∃ t, otp .otpRaiseMin 0 t ∧ t.dev.otpMin = (csrGet s offDevOtpdata).toNat)
    ∧ ((csrGet s offDevOtpdata).toNat ≤ d.otpMin → ∃ t, otp .otpRaiseMin 3 t ∧ t.dev = d)
    ∧ (∀ v, d.run = false → d.check = false → ∃ t, exec (.cfgkeyApply v) s = .next t ∧ t.dev.cfgBusy = true
      ∧ t.dev.key = leBytes 4 (smapGet (0#32) d.keyStage 0).toNat ++ leBytes 4 (smapGet (0#32) d.keyStage 1).toNat
        ++ leBytes 4 (smapGet (0#32) d.keyStage 2).toNat ++ leBytes 4 v.toNat
      ∧ cfgShown t = cfgShown s)
    ∧ (∀ v, d.run = true → exec (.cfgkeyApply v) s = .next s)
    ∧ (d.cfgBusy = true → ∃ t, exec .cfgRecomputeDone s = .next t ∧ t.dev.cfgBusy = false ∧ t.dev.key = d.key)
    ∧ (∃ t, exec .cfgdigRead s = .next t ∧ t.busRead = leBytes 4 (leAt (cfgShown s) 0 4)
      ∧ (∀ i, 1 ≤ i → i < 4 → csrGet t (offDevCfgdig + 4 * i) = wordOf (leAt (cfgShown s) (4 * i) 4))
      ∧ t.mem = s.mem)

/-- R514–R520: the boot or full assay ends with the memories zero and the failed engines absent; run-time
tests count, wait for an idle spare bank, and remove what fails; a bank whose corrections exceed CETHR
migrates, and one that fails is replaced by its spare, then counted out; the host
unlocks the ASSAY block by the key and the nonce's complement, and loses it after 10 s.
The readings of log entries 126 to 128 apply. -/
def Obligations.AssayCommands : Prop :=
  ∀ (s : State),
    let a := s.assay
    let now := elapsed s.time
    (a.busy = true → s.dev.mode ≠ 3 → ∃ t, exec (.quickAssay [] []) s = .next t ∧ t.assay.busy = false
      ∧ t.dev.assayed = true ∧ t.mem = [] ∧ t.qmgr = QmgrSt.reset)
    ∧ (a.busy = true → s.dev.mode = 3 → ∃ t, exec (.fullAssay [] []) s = .next t ∧ t.assay.busy = false
      ∧ t.dev.assayed = true ∧ t.mem = [] ∧ csrFld t offDevBoot 31 28 = 5)
    ∧ (∀ e code, a.busy = true → engPresent s e = true →
      (s.dev.mode ≠ 3 → ∃ t, exec (.quickAssay [(e, code)] []) s = .next t ∧ engPresent t e = false
        ∧ t.assay.busy = false ∧ cntGet t offAssayFailures = cntGet s offAssayFailures + 1)
      ∧ (s.dev.mode = 3 → ∃ t, exec (.fullAssay [(e, code)] []) s = .next t ∧ engPresent t e = false
        ∧ t.assay.busy = false ∧ cntGet t offAssayFailures = cntGet s offAssayFailures + 1))
    ∧ (∀ e, s.dev.run = true → bitOf (csrGet s offAssayCtl) 31 = true → a.drain = none →
      a.engAt + assayPeriod s offAssayEngint ≤ now → engineFrom s a.engNext = some e →
      (holdsTask s e = false → spareIdle s = true →
        (∃ t, exec (.engineTest 0) s = .next t ∧ cntGet t offAssayEngtests = cntGet s offAssayEngtests + 1
          ∧ t.assay.engAt = now ∧ t.core = s.core
          ∧ (∀ e', engineFrom s (e + 1) = some e' → t.assay.engNext = e + 1))
        ∧ ∀ f, f ≠ 0 → ∃ t, exec (.engineTest f) s = .next t ∧ engPresent t e = false
          ∧ cntGet t offAssayFailures = cntGet s offAssayFailures + 1)
      ∧ (holdsTask s e = true ∨ spareIdle s = false → ∀ f, ∃ t, exec (.engineTest f) s = .next t ∧ t.assay.drain = some (e, now)
        ∧ t.core = s.core))
    ∧ (∀ e since f, s.dev.run = true → bitOf (csrGet s offAssayCtl) 31 = true → a.drain = some (e, since) →
      holdsTask s e = true → since + 2000000 ≤ now → ∃ t, exec (.engineTest f) s = .next t
        ∧ cntGet t offAssaySkips = cntGet s offAssaySkips + 1 ∧ t.assay.drain = none ∧ t.core = s.core)
    ∧ (∀ e since, s.dev.run = true → bitOf (csrGet s offAssayCtl) 31 = true → a.drain = some (e, since) →
      holdsTask s e = false → (spareIdle s = true → ∃ t, exec (.engineTest 0) s = .next t
        ∧ cntGet t offAssayEngtests = cntGet s offAssayEngtests + 1 ∧ t.assay.drain = none ∧ t.core = s.core)
      ∧ (spareIdle s = false → ∀ f, exec (.engineTest f) s = .next s))
    ∧ (∀ g slice, exec (.groveSliceTest g slice) s = .next s)
    ∧ (∀ x f, x.corrections ≤ max 1 (csrFld s offAssayCtl 15 0) → exec (.bankMigrate (some x) f) s = .next s)
    ∧ (∀ g b n, a.busy = false → g < 16 → b < 5 → max 1 (csrFld s offAssayCtl 15 0) < n →
      (a.noSpare.contains g = false →
        (∃ t, exec (.bankMigrate (some ⟨g, b, n⟩) false) s = .next t
          ∧ cntGet t offAssayMigrations = cntGet s offAssayMigrations + 1 ∧ t.mem = s.mem)
        ∧ ∃ t, exec (.bankMigrate (some ⟨g, b, n⟩) true) s = .next t ∧ g ∈ t.assay.noSpare
          ∧ t.assay.failed = a.failed)
      ∧ (a.noSpare.contains g = true → a.failed.contains (g, b) = false →
        ∃ t, exec (.bankMigrate (some ⟨g, b, n⟩) true) s = .next t ∧ t.assay.failed = a.failed ++ [(g, b)]))
    ∧ (s.dev.run = true → bitOf (csrGet s offAssayCtl) 29 = true → a.bankAt + assayPeriod s offAssayBgint ≤ now →
      ∃ t, exec (.bankMigrate none false) s = .next t ∧ t.assay.bankNext = (a.bankNext + 1) % 80
        ∧ t.assay.bankAt = now)
    ∧ (∀ v, (∀ k, a.keyAt = some k → v ≠ ~~~ assayNonce s) →
      (v = 0x4153554E#32 → ∃ t, exec (.assayUnlock v) s = .next t ∧ t.assay.keyAt = some now
        ∧ t.assay.unlocked = a.unlocked)
      ∧ (v = 0 → ∃ t, exec (.assayUnlock v) s = .next t ∧ t.assay.unlocked = false))
    ∧ (∀ k, a.keyAt = some k → now ≤ k + 1000000 →
      ∃ t, exec (.assayUnlock (~~~ assayNonce s)) s = .next t ∧ t.assay.unlocked = true ∧ t.csr = s.csr)
    ∧ (a.unlocked = true → a.hostAt + 10000000000 ≤ now →
      ∃ t, exec .assayUnlockExpire s = .next t ∧ t.assay.unlocked = false)

/-- R507–R513: the Boot ROM enters reflector mode when it has found no package; it tries the other speed
while MAC0 has no link, asks for a lease and takes it, or probes and takes a link-local address, answers TWAMP tests, asks its PTP master for the delay at a
one-step Sync, opens a channel for an RTP stream, reports on it and closes it, and writes its status line.
The readings of log entries 28, 129, 177 and 192 apply. -/
def Obligations.ReflectorCommands : Prop :=
  (∀ (s : State), s.dev.bootRom = true → s.dev.noBoot = true → s.dev.refl = none →
    s.dev.run = false → s.dev.check = false →
    ∃ t, exec .reflectorEnter s = .next t ∧ t.dev.check = true ∧ csrFld t offDevBoot 31 28 = 4
      ∧ t.dev.refl = some (ReflSt.enter (elapsed s.time) (s.time.cyc + s.time.fab)) ∧ bitOf (csrGet t offTimeCtl) 0 = true ∧ bitOf (macReg t 0 offMacCtl) 31 = true)
  ∧ (∀ (s : State) (r : ReflSt), s.dev.refl = some r →
    let now := elapsed s.time
    let sent := fun (t : State) => cntGet t offPktTxpkt = cntGet s offPktTxpkt + 1
      ∧ (macDown s 0 = false → (macGet s 0).gated = false → (macGet t 0).tx.length = (macGet s 0).tx.length + 1)
    ((macGet s 0).link = false → r.tryAt + 2000000000 ≤ now → ∃ t, exec .reflectorLinkTry s = .next t
      ∧ t.dev.refl = some { r with slow := ! r.slow, tryAt := now }
      ∧ bitOf (macReg t 0 offMacCtl) 19 = ! r.slow)
    ∧ (∀ f rest b, (macGet s 0).rx = f :: rest → dhcpReply s r f = some b →
      dhcpOption b.length 53 (b.drop 240) = some [5#8] → r.client.asked.isSome = true ∨ r.dhcp = 1 →
      ∃ t x, exec (.reflectorDhcp true) s = .next t ∧ (macGet t 0).rx = rest ∧ t.dev.refl = some x
        ∧ x.dhcp = 1 ∧ x.ip = beAt b 16 4 ∧ x.client.asked = none
        ∧ (x.ip = r.ip → x.chans = r.chans) ∧ (x.ip ≠ r.ip → ∀ n, smapGet none x.chans n = none))
    ∧ (∀ f rest b, (macGet s 0).rx = f :: rest → dhcpReply s r f = some b →
      dhcpOption b.length 53 (b.drop 240) = some [2#8] → r.client.asked = none → r.dhcp ≠ 1 →
      ∃ t x, exec (.reflectorDhcp true) s = .next t ∧ sent t ∧ (macGet t 0).rx = rest ∧ t.dev.refl = some x
        ∧ x.client.asked = some (beAt b 16 4) ∧ x.sentAt = now ∧ x.ip = r.ip)
    ∧ ((macGet s 0).link = true → r.probe = none → r.client.asked = none → r.dhcp ≠ 1 →
      r.sentAt + dhcpWait r * 1000000000 ≤ now →
      (r.dhcp = 2 ∨ r.tries ≠ 4 → ∃ t x, exec (.reflectorDhcp false) s = .next t ∧ sent t
        ∧ t.dev.refl = some x ∧ x.sentAt = now ∧ x.tries = min 4 (r.tries + 1) ∧ x.dhcp = r.dhcp)
      ∧ (r.dhcp = 0 → r.tries = 4 → ∃ t x p, exec (.reflectorDhcp false) s = .next t ∧ t.dev.refl = some x
        ∧ x.probe = some p ∧ p.n = 0 ∧ 0xA9FE0100 ≤ p.ip ∧ p.ip ≤ 0xA9FEFEFF))
    ∧ (∀ p, (macGet s 0).link = true → r.probe = some p → p.at_ ≤ now →
      (p.n < 3 → ∃ t x q, exec (.reflectorDhcp false) s = .next t ∧ sent t ∧ t.dev.refl = some x
        ∧ x.probe = some q ∧ q.n = p.n + 1 ∧ q.ip = p.ip ∧ x.ip = r.ip)
      ∧ (p.n = 3 → ∃ t x, exec (.reflectorDhcp false) s = .next t ∧ sent t
        ∧ t.dev.refl = some x ∧ x.dhcp = 2 ∧ x.ip = p.ip))
    ∧ (∀ f rest, (macGet s 0).rx = f :: rest → beAt f.bytes 12 2 = 0x88F7 → f.trunc = false →
      let b := f.bytes.drop 14
      44 ≤ b.length → byteAt b 0 % 16 = 0 → byteAt b 1 % 16 = 2 → 24 ≤ byteAt b 4 → byteAt b 4 ≤ 43 →
      (byteAt b 6).testBit 1 = false → slice b 20 10 = r.ptp.master → ∃ t x, exec .twampReflect s = .next t ∧ sent t
        ∧ (macGet t 0).rx = rest ∧ t.dev.refl = some x
        ∧ x.ptp.pair = some (ptpTime b 34 + ptpCorrection b, f.ptp) ∧ x.ptp.req = (r.ptp.req + 1) % 65536)
    ∧ (∀ f rest b, (macGet s 0).rx = f :: rest → dhcpReply s r f = some b → exec .twampReflect s = .next s)
    ∧ (∀ f rest u, (macGet s 0).rx = f :: rest → beAt f.bytes 12 2 ≠ 0x88F7 → reflHears r f = some u →
      (u.dport = 862 → 14 ≤ u.body.length → ∃ t, exec .twampReflect s = .next t ∧ sent t
        ∧ (macGet t 0).rx = rest ∧ t.dev.refl = some { r with twamp := r.twamp + 1 })
      ∧ (∀ n pt k, u.dport = 40000 + n → n < 1000 → reflRtcpIn r u = false →
        reflPacket u.body = some (pt, k) → smapGet none r.chans n = none →
        ∃ t x y, exec .reflectorChannelOpen s = .next t ∧ (macGet t 0).rx = rest
          ∧ t.dev.refl = some x ∧ x.rtpRx = r.rtpRx + 1 ∧ smapGet none x.chans n = some y
          ∧ y.ip = beAt f.bytes 26 4 ∧ y.port = u.sport ∧ y.codec = pt ∧ y.blocks = k ∧ y.rx = 1 ∧ y.heard = now))
    ∧ (∀ c x, smapGet none r.chans c = some x →
      (x.heard + 10000000000 ≤ now → ∃ t, exec (.reflectorChannelClose c) s = .next t
        ∧ t.dev.refl = some { r with chans := smapPut none r.chans c none })
      ∧ (x.told + 5000000000 ≤ now → ∃ t, exec (.reflectorRtcp c) s = .next t ∧ sent t
        ∧ t.dev.refl = some { r with chans := smapPut none r.chans c (some { x with told := now }) }))
    ∧ (r.lineAt + 10000000000 ≤ now → ∃ t, exec .reflectorStatusLine s = .next t
      ∧ t.dev.refl = some { r with lineAt := now }
      ∧ (s.usb.configured = false → t.usb = s.usb)
      ∧ (s.usb.configured = true → ∃ k, t.usb.console = s.usb.console ++ Config.reflLine k)))

/-- R531, R541–R548, R554: the island samples its feeds, switches its outputs as HVS_ALMOUT tells it, opens
one that limits or overheats and tries it again (a command in a retry's last millisecond waits for its
outcome), follows its inputs, and tells the main die over a link
whose loss and return are noticed.
The readings of log entries 139 to 142 apply. -/
def Obligations.IslandCommands : Prop :=
  ∀ (s : State),
    let h := s.hvs
    let now : Int := elapsed s.time
    let out := fun (t : State) n => outGet t.hvs n
    let takes := fun (v : Word) (t : State) => t.hvs.almout = v ∧ t.hvs.crit = false
      ∧ ∀ n, n < 3 → (retryEnding (out s n) now = false → (out t n).closed
          = (bitOf v n != bitOf v (8 + n) && ((out s n).openAt.isNone || (out s n).closed)))
        ∧ (retryEnding (out s n) now = true → out t n = out s n)
    (h.power = true →
      (∀ a b, ∃ t, exec (.hvsFeedSample a b) s = .next t
        ∧ t.hvs.feedA.samples = (min a 4095 :: h.feedA.samples).take 8
        ∧ t.hvs.feedB.samples = (min b 4095 :: h.feedB.samples).take 8
        ∧ (feedLeaves (feedLimits s) h.feedA.state (feedValue t.hvs.feedA) = false →
          t.hvs.feedA.state = h.feedA.state)
        ∧ (feedLeaves (feedLimits s) h.feedA.state (feedValue t.hvs.feedA) = true →
          hvsPersist s ≤ h.feedA.run + 1 →
          t.hvs.feedA.state = feedEntry (feedLimits s) (feedValue t.hvs.feedA)))
      ∧ (∃ t, exec .hvsIslandFrame s = .next t ∧ t.hvs.frameAt = now ∧ t.hvs.news = [] ∧ islandOn t = true
        ∧ csrGet t offHvsFeed = wordOf (h.feedA.state * 0x40000000 + feedValue h.feedA)
        ∧ csrGet t (offHvsFeed + 4) = wordOf (h.feedB.state * 0x40000000 + feedValue h.feedB))
      ∧ (islandOn s = false → ∃ t, exec .hvsLinkRestored s = .next t ∧ islandOn t = true ∧ t.hvs.frameAt = now
        ∧ t.hvs.almout = csrGet s offHvsAlmout ∧ t.hvs.crit = false)
      ∧ (islandOn s = false → bitOf (csrGet s offHvsCtl) 31 = true → h.frameAt + 1000000000 ≤ now →
        ∃ t, exec .hvsLossCrit s = .next t ∧ t.hvs.crit = true ∧ t.hvs.almout = h.almout ∧ t.csr = s.csr
          ∧ ((out s 0).openAt = none → retryEnding (out s 0) now = false → (out t 0).closed = ! bitOf h.almout 8))
      ∧ (∀ n, n < 3 → let o := out s n
        (∀ on, o.closed = true → o.limiting ≠ on → ∃ t, exec (.outputCurrentLimit n on) s = .next t
          ∧ (out t n).limiting = on ∧ (out t n).closed = true)
        ∧ (∀ k, o.closed = true → o.limiting = true → o.limitAt = some k → k + 2000000 ≤ now →
          ∃ t, exec (.outputLimitShutdown n) s = .next t ∧ (out t n).closed = false
            ∧ (outWanted h n = true → (out t n).openAt = some now ∧ (out t n).episode = true)
            ∧ (outWanted h n = false → bitOf h.almout n = bitOf h.almout (8 + n) →
              (out t n).openAt = none ∧ (out t n).episode = false))
        ∧ (o.closed = true → ∃ t, exec (.outputThermalShutdown n) s = .next t ∧ (out t n).closed = false
          ∧ (out t n).thermal = true ∧ (outWanted h n = true → (out t n).openAt = some now))
        ∧ (∃ t, exec (.thermalLimitCleared n) s = .next t ∧ (out t n).thermal = false
          ∧ (out t n).closed = o.closed)
        ∧ (∀ k, o.openAt = some k → o.thermal = false → outWanted h n = true → k + 100000000 ≤ now →
          ∃ t, exec (.outputRetry n) s = .next t ∧ (out t n).closed = true ∧ (out t n).retryAt = some now
            ∧ (out t n).openAt = none)
        ∧ (∀ k, o.retryAt = some k → retryLimited o = false → k + 2000000 ≤ now →
          ∃ t, exec (.outputRecovered n) s = .next t ∧ (out t n).episode = false ∧ (out t n).retryAt = none
            ∧ (o.openAt = none → (out t n).closed = outWanted h n)))
      ∧ (∀ k on ms, k < 2 → max 1 (csrFld s offHvsAincfg 7 0) ≤ ms → h.ain.testBit k ≠ on →
        ∃ t, exec (.alarmInputChange k on ms) s = .next t ∧ t.hvs.ain.testBit k = on
          ∧ (islandOn s = true → csrFld t offHvsAin 1 0 = t.hvs.ain % 4))
      ∧ (∃ t, exec (.islandPower false) s = .next t ∧ t.hvs.power = false ∧ t.hvs.out = [] ∧ t.csr = s.csr))
    ∧ (h.power = false → (islandOn s = false → ∃ t, exec (.islandPower true) s = .next t
        ∧ t.hvs = { h with power := true } ∧ t.csr = s.csr)
      ∧ (islandOn s = true → ∃ t, exec (.islandPower true) s = .next t ∧ t.hvs.power = true
        ∧ takes (csrGet s offHvsAlmout) t ∧ t.csr = s.csr))
    ∧ (∀ b, b = h.power → exec (.islandPower b) s = .next s)
    ∧ (islandOn s = true → h.frameAt + 5000000 ≤ now → ∃ t, exec .hvsLinkLost s = .next t
      ∧ islandOn t = false ∧ bitOf (csrGet t offHvsStat) 30 = true
      ∧ cntGet t offHvsLinkdrop = cntGet s offHvsLinkdrop + 1 ∧ t.hvs = h)
    ∧ (∀ v, ∃ t, exec (.hvsAlmoutWrite v) s = .next t ∧ csrGet t offHvsAlmout = v &&& 0x707#32
      ∧ (islandOn s = true → h.power = true → takes (v &&& 0x707#32) t)
      ∧ (islandOn s = false ∨ h.power = false → t.hvs = h))

/-- R10, R32–R34, R110, R473, R474, R490: a write of a register without an effect of its own replaces its RW bits and
clears the W1C bits written 1; an offset without a register takes nothing and reads zero; a command register is its
command; an RC read answers and clears; a counter's low word is read with its high word latched; and a
staged REG_WRITE is the host's write. -/
def Obligations.RegisterAccess : Prop :=
  ∀ (s : State),
    let plain := fun (o : Nat) => o / 0x10000 = 4 ∨ o / 0x10000 = 5
      ∨ (o / 0x10000 = 7 ∧ o ≠ offPktFcmd ∧ o ≠ offPktTcmd) ∨ (o / 0x10000 = 0x10 ∧ o ≠ offNandCmdgo)
      ∨ (o / 0x10000 = 0x11 ∧ o ≠ offMirrCtl ∧ o ≠ offMirrCmd) ∨ (o / 0x10000 = 0x14 ∧ o ≠ offHvsAlmout)
    (∀ host o v, (host = true → barOn s = true) →
      (csrRow s o = none → exec (.registerWrite host o v) s = .next s)
      ∧ (∀ r, csrRow s o = some r → plain o → ∃ t, exec (.registerWrite host o v) s = .next t
        ∧ csrGet t o = csrMerge r (csrGet s o) v ∧ (∀ p, p ≠ o → csrGet t p = csrGet s p)
        ∧ t.mem = s.mem ∧ t.core = s.core ∧ t.cnt = s.cnt))
    ∧ (∀ o v, barOn s = false → exec (.registerWrite true o v) s = .next s)
    ∧ (∀ host, (host = true → barOn s = true) →
      (exec (.registerWrite host offNandCmdgo 1) s = exec .nandCmdGo s)
      ∧ (exec (.registerWrite host offMirrCmd 1) s = exec .startActive s)
      ∧ (exec (.registerWrite host offMirrCmd 0x80000003#32) s = exec (.promote true) s)
      ∧ (exec (.registerWrite host offUsbAlmgo 1) s = exec .usbAlmgo s)
      ∧ (exec (.registerWrite host offDevCtl 1) s = exec .runSet s)
      ∧ (exec (.registerWrite host offDevCtl 0) s = exec .runClear s)
      ∧ ∀ v, exec (.registerWrite host offHvsAlmout v) s = exec (.hvsAlmoutWrite v) s)
    ∧ (∀ o be, barOn s = false → exec (.rcRegisterRead ⟨true, be, o⟩) s = .next s
      ∧ exec (.counterLoRead ⟨true, be, o⟩) s = .next s)
    ∧ (∀ host be o, (host = true → barOn s = true) → csrRow s o = none →
      ∃ t, exec (.rcRegisterRead ⟨host, be, o⟩) s = .next t ∧ t.busRead = enabledBytes be 0 ∧ t.csr = s.csr)
    ∧ (∀ host be o r, (host = true → barOn s = true) → csrRow s o = some r → r.rc ≠ 0 → r.cnt64 = false →
      portalAt o = none → macCountAt o = none →
      o ≠ offTimeNfnLo → o ≠ offDevCfgdig → o ≠ offMeterTns → o ≠ offHvsFeedMm → o ≠ offHvsFeedMm + 4 →
      o ≠ offQmgrQlost → o ≠ offMirrPromoNfnLo → ∃ t, exec (.rcRegisterRead ⟨host, be, o⟩) s = .next t
        ∧ t.busRead = enabledBytes be ((csrView s o).getD (csrGet s o))
        ∧ csrGet t o = csrGet s o &&& ~~~ wordOf r.rc ∧ t.mem = s.mem)
    ∧ (∀ host be o r, (host = true → barOn s = true) → csrRow s o = some r → r.cnt64 = true → portalAt o = none →
      macCountAt o = none → o ≠ offTimeNfnLo → o ≠ offDevCfgdig → o ≠ offMeterTns → o ≠ offMirrPromoNfnLo → (o % 0x10000 - r.off) % (max r.stride 8) = 0 →
      ∃ t, exec (.counterLoRead ⟨host, be, o⟩) s = .next t ∧ t.busRead = enabledBytes be (wordOf (countAt s o))
        ∧ csrGet t (o + 4) = wordOf (countAt s o / 4294967296) ∧ t.cnt = s.cnt ∧ t.mem = s.mem)
    ∧ (∀ o v, s.usb.staged = some (o, v) → ∃ t, exec .regWriteCommit s = .next t
      ∧ (csrRow s o = none → t.usb.staged = none ∧ t.csr = s.csr)
      ∧ (∀ r, csrRow s o = some r → plain o → t.usb.staged = none ∧ csrGet t o = csrMerge r (csrGet s o) v
        ∧ ∀ p, p ≠ o → csrGet t p = csrGet s p))

/-- R72, R81, R97, R120: with nothing in flight, an ALU instruction, a multiply, a compare or a move changes
one context alone: its destination, its flags and its PC; every other register, context, engine buffer and
block stands, and so does memory. -/
def Obligations.AluFrame : Prop :=
  ∀ (s t : State) (e k : Nat) (rd rs rt : BitVec 4) (imm : BitVec 16) (sh : BitVec 5), Issues s e k →
    Settled (ctxGet s k) →
    let keeps := fun (dst : RegId → Prop) => OnlyCtx s t k ∧ SameRegs (ctxGet s k) (ctxGet t k) dst
      ∧ (ctxGet t k).state = .running ∧ (ctxGet t k).infl = []
    let results : List Instr := [.add e rd rs rt, .adds e rd rs rt, .sub e rd rs rt, .subs e rd rs rt,
      .and e rd rs rt, .or e rd rs rt, .xor e rd rs rt, .andn e rd rs rt, .shl e rd rs rt, .shr e rd rs rt,
      .sar e rd rs rt, .min e rd rs rt, .max e rd rs rt, .neg e rd rs, .abs e rd rs, .mul e rd rs rt,
      .sexh e rd rs, .clz e rd rs, .addi e rd rs imm, .andi e rd rs imm, .ori e rd rs imm, .xori e rd rs imm,
      .shli e rd rs sh, .shri e rd rs sh, .sari e rd rs sh, .movi e rd 0 imm, .movhi e rd 0 imm, .mov e rd 0 rs 0]
    (∀ i ∈ results, exec i s = .next t → keeps fun r => r = .g rd.toNat)
    ∧ (∀ i ∈ [Instr.cmp e rs rt, .tst e rs rt, .cmpi e rs imm], exec i s = .next t → keeps fun _ => False)

/-- R70, R71, R97, R129: with nothing in flight, a load or store of local memory that names a place leaves
every register but its pointer as it was at its end (what a load brings is still in flight), every other
context, and every byte of memory but those it stores. -/
def Obligations.LocalAccessFrame : Prop :=
  ∀ (s t : State) (e k pa size : Nat) (rd : BitVec 4) (cl : BitVec 2) (rnd : Bool) (pn : BitVec 3) (md : Bool)
    (ofs : BitVec 14) (a : Word), Issues s e k → Settled (ctxGet s k) → isLocal pa = true →
    Names s k pn md ofs size pa a →
    let keeps := SameRegs (ctxGet s k) (ctxGet t k) (fun r => md = true ∧ r = .p pn.toNat)
      ∧ (∀ j, j ≠ k → ctxGet t j = ctxGet s j) ∧ (∀ j, (engGet t j).buf = (engGet s j).buf)
      ∧ t.csr = s.csr ∧ t.qmgr = s.qmgr ∧ t.disp = s.disp ∧ t.chan = s.chan ∧ t.time = s.time
    let loads : List (Nat × Instr) := [(2, .ldh e rd pn md ofs), (2, .ldhu e rd pn md ofs)]
      ++ (if (gpmReg cl.toNat rd.toNat).isSome then [(4, .ldw e rd cl pn md ofs)] else [])
      ++ (if rd.toNat < 4 then [(8, .lda e rd pn md ofs)] else [])
    let stores : List (Nat × Instr) := [(2, .sth e rd 0 false pn md ofs)]
      ++ (if rd.toNat < 4 then [(2, .sth e rd 3 rnd pn md ofs), (4, .stw e rd 3 pn md ofs), (8, .sta e rd pn md ofs)]
        else [])
      ++ (if (gpmReg cl.toNat rd.toNat).isSome ∧ cl ≠ 3 then [(4, .stw e rd cl pn md ofs)] else [])
    (∀ x ∈ loads, x.1 = size → anyPoison s pa size = false → exec x.2 s = .next t → keeps ∧ t.mem = s.mem)
    ∧ (∀ x ∈ stores, x.1 = size → localKind (k / 4) pa ≠ 0 → exec x.2 s = .next t →
      keeps ∧ ∀ b, b < pa ∨ pa + size ≤ b → memByte t b = memByte s b)

/-- R49–R67, R486–R492, R541–R548: the timebase's, the craft port's and the island's commands leave every
other block as it was: engines, dispatcher, coprocessors, channels, packets, ports, keys, meter, storage,
mirror, host and assay, and each other's state. -/
def Obligations.PeripheralFrames : Prop :=
  ∀ (s t : State) (v : Word) (b c : Bool) (x : Int) (j m n l : Nat) (bs : List Byte),
    let time : List Instr := [.timeFreqWrite v, .timePhaseAdjWrite v, .phaseClr, .step, .modeCmdFreerun,
      .modeCmdLocking, .modeCmdLocked, .modeCmdHoldover, .watchdogExpiry, .phaseSlewEnd, .nfnAlignmentChange,
      .fsrcWrite v, .clk10Fallback, .clk10Restore, .c10OkChange b x, .timeNfnLoRead, .tsInCapture j b n,
      .ppsRise, .ppsFall]
    let usb : List Instr := [.usbAttach b, .usbBusReset b, .usbSuspend, .usbResume, .usbRemoteWake b,
      .usbStandardRequest j m n l, .getInfo n, .imgBegin j m n, .getStatus n, .regWrite n v v, .regAddr n v,
      .usbConsoleOut bs, .usbConsoleIn, .usbAlmgo, .usbAlarmIn]
    let island : List Instr := [.hvsFeedSample j m, .hvsIslandFrame, .hvsLinkLost, .hvsLinkRestored, .hvsLossCrit,
      .hvsAlmoutWrite v, .outputCurrentLimit n b, .outputLimitShutdown n, .outputThermalShutdown n,
      .thermalLimitCleared n, .outputRetry n, .outputRecovered n, .alarmInputChange n c m, .islandPower b]
    (∀ i ∈ time, exec i s = .next t → OthersKept s t ∧ t.usb = s.usb ∧ t.hvs = s.hvs)
    ∧ (∀ i ∈ usb, exec i s = .next t → OthersKept s t ∧ t.time = s.time ∧ t.hvs = s.hvs)
    ∧ (∀ i ∈ island, exec i s = .next t → OthersKept s t ∧ t.time = s.time ∧ t.usb = s.usb)

/-- R10, R27, R96, R257, R290, R320, R442, R498: right after reset no command waits, memory lists nothing,
every register reads its reset value and every counter 0, every context is STOPPED, no channel, key slot,
queue or port is in use, the unit is INIT and RUN is 0; the state is in its canonical form.  The reset
values that the spec does not give are the model's (log entries 2 and 32 to 35). -/
def Obligations.ResetState : Prop :=
  let s := State.reset
  s.Canonical ∧ s.pending = [] ∧ s.mem = []
  ∧ (∀ o, csrGet s o = csrDefault o) ∧ (∀ o, cntGet s o = 0)
  ∧ (∀ k, (ctxGet s k).state = .stopped ∧ (ctxGet s k).task = none ∧ (ctxGet s k).infl = [])
  ∧ bindings s = [] ∧ (∀ k, keySlotGet s k = KeySlot.reset) ∧ (∀ q, (queueGet s q).en = false ∧ (queueGet s q).items = [])
  ∧ (∀ n, (macGet s n).link = false ∧ (macGet s n).rx = [] ∧ (macGet s n).tx = [])
  ∧ s.mirr.role = .init ∧ s.dev.run = false ∧ s.host.on = false ∧ s.usb.configured = false
  ∧ csrGet s offDevCtl = 0 ∧ csrGet s offMirrEpoch = 0 ∧ csrGet s offTimeFreq = 0

/-- R5, R10, R110: every step keeps the canonical form: memory's addresses strictly rise and it lists no byte
an unlisted address reads as, and the register file and the counters list nothing at its reset value. -/
def Obligations.StepKeepsCanonicalForm : Prop :=
  ∀ s t : State, s.Canonical → step s = .next t → t.Canonical

/-- A step takes the front of the queue and no more, adds nothing to it, and never changes the ordering
variant.
The queue of commands is the model's own (log entry 4). -/
def Obligations.StepTakesOneCommand : Prop :=
  ∀ s t : State, step s = .next t → t.pending = s.pending.tail ∧ t.variantH = s.variantH
end

