-- ==== Sys2Proof/Laws/Table.lean ====
section
/-! SUPPORT. Laws of the sparse tables: a read after a write, and the canonical form that
every write keeps. -/

namespace Sys2Proof.Machine

variable {α : Type}

theorem smapGet_erase_same (d : α) (m : SMap α) (k : Nat) : smapGet d (smapErase m k) k = d := by
  induction m with
  | nil => rfl
  | cons x r ih =>
    obtain ⟨k', v⟩ := x
    by_cases h : k' = k <;> simp [smapErase, smapGet, h, ih]

theorem smapGet_erase_other (d : α) (m : SMap α) {k j : Nat} (h : j ≠ k) :
    smapGet d (smapErase m k) j = smapGet d m j := by
  induction m with
  | nil => rfl
  | cons x r ih =>
    obtain ⟨k', v⟩ := x
    by_cases hk : k' = k
    · subst hk
      simp [smapErase, smapGet, ih, Ne.symm h]
    · rw [smapErase, if_neg hk]
      by_cases hj : k' = j <;> simp [smapGet, hj, ih]

theorem smapGet_insert_other (d : α) (m : SMap α) (v : α) {k j : Nat} (h : j ≠ k) :
    smapGet d (smapInsert m k v) j = smapGet d m j := by
  induction m with
  | nil => simp [smapInsert, smapGet, Ne.symm h]
  | cons x r ih =>
    obtain ⟨k', w⟩ := x
    by_cases hk : k < k'
    · simp [smapInsert, smapGet, hk, Ne.symm h]
    · rw [smapInsert, if_neg hk]
      by_cases hj : k' = j <;> simp [smapGet, hj, ih]

theorem smapGet_insert_erase (d : α) (m : SMap α) (k : Nat) (v : α) :
    smapGet d (smapInsert (smapErase m k) k v) k = v := by
  induction m with
  | nil => simp [smapErase, smapInsert, smapGet]
  | cons x r ih =>
    obtain ⟨k', w⟩ := x
    by_cases hk : k' = k
    · simpa [smapErase, hk] using ih
    · by_cases hl : k < k' <;> simp [smapErase, smapInsert, smapGet, hk, hl, ih]

/-- A read of what was written. -/
@[simp] theorem smapGet_put_same [DecidableEq α] (d : α) (m : SMap α) (k : Nat) (v : α) :
    smapGet d (smapPut d m k v) k = v := by
  unfold smapPut
  split
  · next h => rw [smapGet_erase_same, h]
  · exact smapGet_insert_erase d m k v

/-- A write leaves every other place alone. -/
theorem smapGet_put_other [DecidableEq α] (d e : α) (m : SMap α) (v : α) {k j : Nat} (h : j ≠ k) :
    smapGet e (smapPut d m k v) j = smapGet e m j := by
  unfold smapPut
  split
  · exact smapGet_erase_other e m h
  · rw [smapGet_insert_other _ _ _ h, smapGet_erase_other _ _ h]

/-! ## The canonical form -/

variable [DecidableEq α] (d : Nat → α)

theorem smapWfFrom_mono {m : SMap α} {a b : Nat} (h : a ≤ b) (w : smapWfFrom d b m = true) :
    smapWfFrom d a m = true := by
  cases m with
  | nil => rfl
  | cons x r =>
    obtain ⟨k, v⟩ := x
    simp only [smapWfFrom, Bool.and_eq_true, decide_eq_true_eq] at w ⊢
    exact ⟨⟨Nat.le_trans h w.1.1, w.1.2⟩, w.2⟩

theorem smapWfFrom_erase {m : SMap α} {lo : Nat} (k : Nat) (w : smapWfFrom d lo m = true) :
    smapWfFrom d lo (smapErase m k) = true := by
  induction m generalizing lo with
  | nil => rfl
  | cons x r ih =>
    obtain ⟨k', v⟩ := x
    simp only [smapWfFrom, Bool.and_eq_true, decide_eq_true_eq] at w
    by_cases h : k' = k
    · simp only [smapErase, h, if_true]
      exact smapWfFrom_mono d (by omega) (ih w.2)
    · simp only [smapErase, h, if_false, smapWfFrom, Bool.and_eq_true, decide_eq_true_eq]
      exact ⟨w.1, ih w.2⟩

/-- No pair of the table has key `k`. -/
def smapLacks {β : Type} (k : Nat) (m : SMap β) : Bool := m.all fun x => x.1 != k

theorem smapErase_lacks {β : Type} (m : SMap β) (k : Nat) : smapLacks k (smapErase m k) = true := by
  induction m with
  | nil => rfl
  | cons x r ih =>
    obtain ⟨k', v⟩ := x
    by_cases h : k' = k
    · simpa [smapErase, h] using ih
    · have := ih
      simp only [smapLacks] at this
      simp [smapErase, h, smapLacks, this]

theorem smapWfFrom_insert {m : SMap α} {lo k : Nat} {v : α} (hl : lo ≤ k) (hv : v ≠ d k)
    (w : smapWfFrom d lo m = true) (n : smapLacks k m = true) :
    smapWfFrom d lo (smapInsert m k v) = true := by
  induction m generalizing lo with
  | nil => simp [smapInsert, smapWfFrom, hl, hv]
  | cons x r ih =>
    obtain ⟨k', u⟩ := x
    simp only [smapWfFrom, Bool.and_eq_true, decide_eq_true_eq] at w
    simp only [smapLacks, List.all_cons, Bool.and_eq_true, bne_iff_ne, ne_eq] at n
    by_cases h : k < k'
    · simp only [smapInsert, h, if_true, smapWfFrom, Bool.and_eq_true, decide_eq_true_eq]
      exact ⟨⟨hl, hv⟩, ⟨by omega, w.1.2⟩, w.2⟩
    · simp only [smapInsert, h, if_false, smapWfFrom, Bool.and_eq_true, decide_eq_true_eq]
      have hne : k' ≠ k := n.1
      exact ⟨w.1, ih (by omega) w.2 n.2⟩

/-- Every write of a table keeps the canonical form. -/
theorem smapPut_wf {m : SMap α} (k : Nat) (v : α) (w : smapWf d m = true) :
    smapWf d (smapPut (d k) m k v) = true := by
  unfold smapWf smapPut at *
  split
  · exact smapWfFrom_erase d k w
  · next h => exact smapWfFrom_insert d (Nat.zero_le _) h (smapWfFrom_erase d k w) (smapErase_lacks m k)

/-! ## Registers, counters and memory -/

@[simp] theorem csrGet_put_same (s : State) (o : Nat) (v : Word) : csrGet (csrPut s o v) o = v := by
  simp [csrGet, csrPut]

theorem csrGet_put_other (s : State) (v : Word) {o p : Nat} (h : p ≠ o) :
    csrGet (csrPut s o v) p = csrGet s p := by
  simp [csrGet, csrPut, smapGet_put_other _ _ _ _ h]

@[simp] theorem cntGet_add_same (s : State) (o n : Nat) :
    cntGet (cntAdd s o n) o = cntGet s o + BitVec.ofNat 64 n := by
  simp [cntGet, cntAdd]

theorem cntGet_add_other (s : State) (n : Nat) {o p : Nat} (h : p ≠ o) :
    cntGet (cntAdd s o n) p = cntGet s p := by
  simp [cntGet, cntAdd, smapGet_put_other _ _ _ _ h]

theorem memFill_wf (keep : Nat → Bool) {m : SMap Byte} (a : Nat) (bs : List Byte) (w : Memory.wf m = true) :
    Memory.wf (memFill keep m a bs) = true := by
  induction bs generalizing m a with
  | nil => exact w
  | cons b r ih =>
    simp only [memFill]
    split
    · exact ih _ (smapPut_wf (fun _ => (0 : Byte)) a b w)
    · exact ih _ w

/-- Every write of memory keeps its canonical form: `memWrite` is the one that stores. -/
theorem memWrite_wf {s : State} (a : Nat) (bs : List Byte) (w : Memory.wf s.mem = true) :
    Memory.wf (memWrite s a bs).mem = true := memFill_wf _ a bs w

theorem memPut_wf {s : State} (a n x : Nat) (w : Memory.wf s.mem = true) :
    Memory.wf (memPut s a n x).mem = true := memWrite_wf a _ w

/-- A byte outside the bytes written reads as before. -/
theorem memFill_outside (keep : Nat → Bool) (m : SMap Byte) (a b : Nat) (bs : List Byte)
    (h : b < a ∨ a + bs.length ≤ b) : smapGet 0 (memFill keep m a bs) b = smapGet 0 m b := by
  induction bs generalizing m a with
  | nil => rfl
  | cons x r ih =>
    simp only [List.length_cons] at h
    simp only [memFill]
    rw [ih _ _ (by omega)]
    split
    · exact smapGet_put_other _ _ _ _ (by omega)
    · rfl

theorem memWrite_outside (s : State) (a b : Nat) (bs : List Byte) (h : b < a ∨ a + bs.length ≤ b) :
    smapGet 0 (memWrite s a bs).mem b = smapGet 0 s.mem b := memFill_outside _ _ a b bs h

theorem reset_canonical : State.Canonical State.reset := ⟨rfl, rfl, rfl⟩

theorem csrPut_canonical {s : State} (o : Nat) (v : Word) (h : s.Canonical) : (csrPut s o v).Canonical :=
  ⟨h.mem, smapPut_wf csrDefault o v h.csr, h.cnt⟩

theorem cntAdd_canonical {s : State} (o n : Nat) (h : s.Canonical) : (cntAdd s o n).Canonical :=
  ⟨h.mem, h.csr, smapPut_wf (fun _ => (0 : BitVec 64)) o _ h.cnt⟩

theorem memWrite_canonical {s : State} (a : Nat) (bs : List Byte) (h : s.Canonical) :
    (memWrite s a bs).Canonical := ⟨memWrite_wf a bs h.mem, h.csr, h.cnt⟩

end Sys2Proof.Machine
end

