-- ==== Sys2Proof/Laws/Engine.lean ====
section
/-! SUPPORT. What issuing an instruction, ending one, and writing a context can do, said once:
the lemmas the statements about Lemgil rest on. -/

namespace Sys2Proof.Machine

@[simp] theorem ctxGet_ctxPut (s : State) (k : Nat) (c : Ctx) : ctxGet (ctxPut s k c) k = c := by
  simp [ctxGet, ctxPut, smapGet_put_same]

theorem ctxGet_ctxPut_other (s : State) (j k : Nat) (c : Ctx) (h : j ≠ k) :
    ctxGet (ctxPut s k c) j = ctxGet s j := by
  simp only [ctxGet, ctxPut]
  exact smapGet_put_other _ _ _ _ h

/-- A memory with no error to correct is left as it is. -/
@[simp] theorem correct_sound (s : State) (a n : Nat) (h : s.soft = []) : correct s a n = s := by
  unfold correct
  simp [h]

/-- What `issue` does where the instruction issues. -/
theorem issue_eq (s : State) (e k : Nat) (op : State → Nat → State) (h : Issues s e k) :
    issue s e op = op (issueMarks s k) k := by
  have h4 := h.live
  have ha : annulled (ctxGet s k) = false := by
    unfold annulled
    cases hp : (ctxGet s k).pend with
    | none => rfl
    | some p => simpa [hp] using h4 p hp
  have hk : (if (ctxGet s k).pend.isSome then none else kernelAt s e (ctxGet s k).pc) = none := by
    cases hp : (ctxGet s k).pend with
    | none => simpa using h.own hp
    | some p => simp
  have hc : ¬ (ctxGet s k).pc ≥ pmSize e := by have := h.inPm; omega
  unfold issue
  simp only [h.running, ha, h.clean, correct_sound _ _ _ h.sound, hk, if_neg hc, Bool.false_eq_true, if_false]

@[simp] theorem ctxGet_bump (s : State) (o k : Nat) : ctxGet (bump s o) k = ctxGet s k := rfl
@[simp] theorem ctxGet_engPut (s : State) (e k : Nat) (v : Eng) : ctxGet (engPut s e v) k = ctxGet s k := rfl

theorem ctxGet_issueMarks (s : State) (k : Nat) : ctxGet (issueMarks s k) k =
    { ctxGet s k with lastPc := (ctxGet s k).pc,
                      holdCnt := if stHold (ctxGet s k) then (ctxGet s k).holdCnt + 1 else 0 } := by
  unfold issueMarks
  simp only [ctxGet_bump, ctxGet_engPut]
  split
  · rw [ctxGet_ctxPut]
  · rw [ctxGet_bump, ctxGet_ctxPut]

@[simp] theorem ctxGet_endInstr (s : State) (k : Nat) (c : Ctx) : ctxGet (endInstr s k c) k = finish c := by
  simp [endInstr]

/-! ## Results in flight -/

/-- A result written last stands whatever was written before it. -/
theorem retire_append (c : Ctx) (l : List InFlight) (x : InFlight) (n : Nat) (h : x.due ≤ n) (hl : c.infl = l ++ [x]) :
    retire c n = regWrite (retire { c with infl := l } n) x.reg x.val := by
  unfold retire
  rw [hl]
  simp [List.filter_append, h]

/-- A result not yet due stays in flight. -/
theorem retire_infl (c : Ctx) (n : Nat) : (retire c n).infl = c.infl.filter fun f => ! decide (f.due ≤ n) := by
  unfold retire
  generalize hl : c.infl.filter (fun f => decide (f.due ≤ n)) = l
  generalize hd : ({ c with infl := c.infl.filter fun f => ! decide (f.due ≤ n) } : Ctx) = d
  have : d.infl = c.infl.filter fun f => ! decide (f.due ≤ n) := by rw [← hd]
  rw [← this]
  clear hl hd this
  induction l generalizing d with
  | nil => rfl
  | cons x r ih =>
    rw [List.foldl_cons, ih]
    cases h : x.reg <;> simp only [regWrite] <;> try rfl
    split <;> rfl

theorem loopAdvance_infl (c : Ctx) (l : Nat) : (loopAdvance c l).infl = c.infl := by
  induction l generalizing c with
  | zero => rfl
  | succ l ih =>
    unfold loopAdvance levelTest
    grind [setDepth, regWrite]

@[simp] theorem advance_infl (c : Ctx) : (advance c).infl = c.infl := by
  unfold advance
  grind [loopAdvance_infl]

theorem loopAdvance_slot (c : Ctx) (l : Nat) : (loopAdvance c l).slot = c.slot := by
  induction l generalizing c with
  | zero => rfl
  | succ l ih =>
    unfold loopAdvance levelTest
    grind [setDepth, regWrite]

@[simp] theorem advance_slot (c : Ctx) : (advance c).slot = c.slot := by
  unfold advance
  grind [loopAdvance_slot]

/-- A register written with latency 1 reads its new value after the instruction. -/
theorem finish_sendW (c : Ctx) (r : RegId) (v : Word) :
    ∃ d, finish (sendW c 1 r v) = regWrite d r (v.zeroExtend 40) := by
  unfold finish
  simp only [advance_slot]
  exact ⟨_, retire_append _ c.infl ⟨c.slot + 1, r, v.zeroExtend 40, false⟩ _ (by simp [sendW, send]) (by simp [sendW, send])⟩

/-- With nothing in flight the next word follows. -/
theorem finish_settled (c : Ctx) (h1 : c.infl = []) (h2 : c.pend = none) (h3 : ldepth c = 0) :
    finish c = { c with pc := c.pc + 4, slot := c.slot + 1 } := by
  simp [finish, advance, h2, h3, loopAdvance, retire, h1]

end Sys2Proof.Machine
end

