-- ==== Sys2Proof/Laws/State.lean ====
section
/-! SUPPORT. What each update of the state leaves in each field: one lemma per update and
field, so that no proof unfolds a record update. -/

namespace Sys2Proof.Machine

/-! ## csrPut -/

@[simp] theorem csrPut_pending (s : State) (o : Nat) (v : Word) : (csrPut s o v).pending = s.pending := rfl
@[simp] theorem csrPut_variantH (s : State) (o : Nat) (v : Word) : (csrPut s o v).variantH = s.variantH := rfl
@[simp] theorem csrPut_csr (s : State) (o : Nat) (v : Word) : (csrPut s o v).csr = smapPut (csrDefault o) s.csr o v := rfl
@[simp] theorem csrPut_cnt (s : State) (o : Nat) (v : Word) : (csrPut s o v).cnt = s.cnt := rfl
@[simp] theorem csrPut_mem (s : State) (o : Nat) (v : Word) : (csrPut s o v).mem = s.mem := rfl
@[simp] theorem csrPut_poison (s : State) (o : Nat) (v : Word) : (csrPut s o v).poison = s.poison := rfl
@[simp] theorem csrPut_soft (s : State) (o : Nat) (v : Word) : (csrPut s o v).soft = s.soft := rfl
@[simp] theorem csrPut_time (s : State) (o : Nat) (v : Word) : (csrPut s o v).time = s.time := rfl
@[simp] theorem csrPut_core (s : State) (o : Nat) (v : Word) : (csrPut s o v).core = s.core := rfl
@[simp] theorem csrPut_disp (s : State) (o : Nat) (v : Word) : (csrPut s o v).disp = s.disp := rfl
@[simp] theorem csrPut_eca (s : State) (o : Nat) (v : Word) : (csrPut s o v).eca = s.eca := rfl
@[simp] theorem csrPut_rsf (s : State) (o : Nat) (v : Word) : (csrPut s o v).rsf = s.rsf := rfl
@[simp] theorem csrPut_qmgr (s : State) (o : Nat) (v : Word) : (csrPut s o v).qmgr = s.qmgr := rfl
@[simp] theorem csrPut_chan (s : State) (o : Nat) (v : Word) : (csrPut s o v).chan = s.chan := rfl
@[simp] theorem csrPut_pkt (s : State) (o : Nat) (v : Word) : (csrPut s o v).pkt = s.pkt := rfl
@[simp] theorem csrPut_mac (s : State) (o : Nat) (v : Word) : (csrPut s o v).mac = s.mac := rfl
@[simp] theorem csrPut_ciph (s : State) (o : Nat) (v : Word) : (csrPut s o v).ciph = s.ciph := rfl
@[simp] theorem csrPut_cruc (s : State) (o : Nat) (v : Word) : (csrPut s o v).cruc = s.cruc := rfl
@[simp] theorem csrPut_meter (s : State) (o : Nat) (v : Word) : (csrPut s o v).meter = s.meter := rfl
@[simp] theorem csrPut_nand (s : State) (o : Nat) (v : Word) : (csrPut s o v).nand = s.nand := rfl
@[simp] theorem csrPut_mirr (s : State) (o : Nat) (v : Word) : (csrPut s o v).mirr = s.mirr := rfl
@[simp] theorem csrPut_host (s : State) (o : Nat) (v : Word) : (csrPut s o v).host = s.host := rfl
@[simp] theorem csrPut_usb (s : State) (o : Nat) (v : Word) : (csrPut s o v).usb = s.usb := rfl
@[simp] theorem csrPut_dev (s : State) (o : Nat) (v : Word) : (csrPut s o v).dev = s.dev := rfl
@[simp] theorem csrPut_assay (s : State) (o : Nat) (v : Word) : (csrPut s o v).assay = s.assay := rfl
@[simp] theorem csrPut_hvs (s : State) (o : Nat) (v : Word) : (csrPut s o v).hvs = s.hvs := rfl
@[simp] theorem csrPut_busRead (s : State) (o : Nat) (v : Word) : (csrPut s o v).busRead = s.busRead := rfl
@[simp] theorem csrPut_free (s : State) (o : Nat) (v : Word) : (csrPut s o v).free = s.free := rfl

/-! ## csrSetFld -/

@[simp] theorem csrSetFld_pending (s : State) (o hi lo v : Nat) : (csrSetFld s o hi lo v).pending = s.pending := rfl
@[simp] theorem csrSetFld_variantH (s : State) (o hi lo v : Nat) : (csrSetFld s o hi lo v).variantH = s.variantH := rfl
@[simp] theorem csrSetFld_cnt (s : State) (o hi lo v : Nat) : (csrSetFld s o hi lo v).cnt = s.cnt := rfl
@[simp] theorem csrSetFld_mem (s : State) (o hi lo v : Nat) : (csrSetFld s o hi lo v).mem = s.mem := rfl
@[simp] theorem csrSetFld_poison (s : State) (o hi lo v : Nat) : (csrSetFld s o hi lo v).poison = s.poison := rfl
@[simp] theorem csrSetFld_soft (s : State) (o hi lo v : Nat) : (csrSetFld s o hi lo v).soft = s.soft := rfl
@[simp] theorem csrSetFld_time (s : State) (o hi lo v : Nat) : (csrSetFld s o hi lo v).time = s.time := rfl
@[simp] theorem csrSetFld_core (s : State) (o hi lo v : Nat) : (csrSetFld s o hi lo v).core = s.core := rfl
@[simp] theorem csrSetFld_disp (s : State) (o hi lo v : Nat) : (csrSetFld s o hi lo v).disp = s.disp := rfl
@[simp] theorem csrSetFld_eca (s : State) (o hi lo v : Nat) : (csrSetFld s o hi lo v).eca = s.eca := rfl
@[simp] theorem csrSetFld_rsf (s : State) (o hi lo v : Nat) : (csrSetFld s o hi lo v).rsf = s.rsf := rfl
@[simp] theorem csrSetFld_qmgr (s : State) (o hi lo v : Nat) : (csrSetFld s o hi lo v).qmgr = s.qmgr := rfl
@[simp] theorem csrSetFld_chan (s : State) (o hi lo v : Nat) : (csrSetFld s o hi lo v).chan = s.chan := rfl
@[simp] theorem csrSetFld_pkt (s : State) (o hi lo v : Nat) : (csrSetFld s o hi lo v).pkt = s.pkt := rfl
@[simp] theorem csrSetFld_mac (s : State) (o hi lo v : Nat) : (csrSetFld s o hi lo v).mac = s.mac := rfl
@[simp] theorem csrSetFld_ciph (s : State) (o hi lo v : Nat) : (csrSetFld s o hi lo v).ciph = s.ciph := rfl
@[simp] theorem csrSetFld_cruc (s : State) (o hi lo v : Nat) : (csrSetFld s o hi lo v).cruc = s.cruc := rfl
@[simp] theorem csrSetFld_meter (s : State) (o hi lo v : Nat) : (csrSetFld s o hi lo v).meter = s.meter := rfl
@[simp] theorem csrSetFld_nand (s : State) (o hi lo v : Nat) : (csrSetFld s o hi lo v).nand = s.nand := rfl
@[simp] theorem csrSetFld_mirr (s : State) (o hi lo v : Nat) : (csrSetFld s o hi lo v).mirr = s.mirr := rfl
@[simp] theorem csrSetFld_host (s : State) (o hi lo v : Nat) : (csrSetFld s o hi lo v).host = s.host := rfl
@[simp] theorem csrSetFld_usb (s : State) (o hi lo v : Nat) : (csrSetFld s o hi lo v).usb = s.usb := rfl
@[simp] theorem csrSetFld_dev (s : State) (o hi lo v : Nat) : (csrSetFld s o hi lo v).dev = s.dev := rfl
@[simp] theorem csrSetFld_assay (s : State) (o hi lo v : Nat) : (csrSetFld s o hi lo v).assay = s.assay := rfl
@[simp] theorem csrSetFld_hvs (s : State) (o hi lo v : Nat) : (csrSetFld s o hi lo v).hvs = s.hvs := rfl
@[simp] theorem csrSetFld_busRead (s : State) (o hi lo v : Nat) : (csrSetFld s o hi lo v).busRead = s.busRead := rfl
@[simp] theorem csrSetFld_free (s : State) (o hi lo v : Nat) : (csrSetFld s o hi lo v).free = s.free := rfl

/-! ## csrSetBit -/

@[simp] theorem csrSetBit_pending (s : State) (o i : Nat) (b : Bool) : (csrSetBit s o i b).pending = s.pending := rfl
@[simp] theorem csrSetBit_variantH (s : State) (o i : Nat) (b : Bool) : (csrSetBit s o i b).variantH = s.variantH := rfl
@[simp] theorem csrSetBit_cnt (s : State) (o i : Nat) (b : Bool) : (csrSetBit s o i b).cnt = s.cnt := rfl
@[simp] theorem csrSetBit_mem (s : State) (o i : Nat) (b : Bool) : (csrSetBit s o i b).mem = s.mem := rfl
@[simp] theorem csrSetBit_poison (s : State) (o i : Nat) (b : Bool) : (csrSetBit s o i b).poison = s.poison := rfl
@[simp] theorem csrSetBit_soft (s : State) (o i : Nat) (b : Bool) : (csrSetBit s o i b).soft = s.soft := rfl
@[simp] theorem csrSetBit_time (s : State) (o i : Nat) (b : Bool) : (csrSetBit s o i b).time = s.time := rfl
@[simp] theorem csrSetBit_core (s : State) (o i : Nat) (b : Bool) : (csrSetBit s o i b).core = s.core := rfl
@[simp] theorem csrSetBit_disp (s : State) (o i : Nat) (b : Bool) : (csrSetBit s o i b).disp = s.disp := rfl
@[simp] theorem csrSetBit_eca (s : State) (o i : Nat) (b : Bool) : (csrSetBit s o i b).eca = s.eca := rfl
@[simp] theorem csrSetBit_rsf (s : State) (o i : Nat) (b : Bool) : (csrSetBit s o i b).rsf = s.rsf := rfl
@[simp] theorem csrSetBit_qmgr (s : State) (o i : Nat) (b : Bool) : (csrSetBit s o i b).qmgr = s.qmgr := rfl
@[simp] theorem csrSetBit_chan (s : State) (o i : Nat) (b : Bool) : (csrSetBit s o i b).chan = s.chan := rfl
@[simp] theorem csrSetBit_pkt (s : State) (o i : Nat) (b : Bool) : (csrSetBit s o i b).pkt = s.pkt := rfl
@[simp] theorem csrSetBit_mac (s : State) (o i : Nat) (b : Bool) : (csrSetBit s o i b).mac = s.mac := rfl
@[simp] theorem csrSetBit_ciph (s : State) (o i : Nat) (b : Bool) : (csrSetBit s o i b).ciph = s.ciph := rfl
@[simp] theorem csrSetBit_cruc (s : State) (o i : Nat) (b : Bool) : (csrSetBit s o i b).cruc = s.cruc := rfl
@[simp] theorem csrSetBit_meter (s : State) (o i : Nat) (b : Bool) : (csrSetBit s o i b).meter = s.meter := rfl
@[simp] theorem csrSetBit_nand (s : State) (o i : Nat) (b : Bool) : (csrSetBit s o i b).nand = s.nand := rfl
@[simp] theorem csrSetBit_mirr (s : State) (o i : Nat) (b : Bool) : (csrSetBit s o i b).mirr = s.mirr := rfl
@[simp] theorem csrSetBit_host (s : State) (o i : Nat) (b : Bool) : (csrSetBit s o i b).host = s.host := rfl
@[simp] theorem csrSetBit_usb (s : State) (o i : Nat) (b : Bool) : (csrSetBit s o i b).usb = s.usb := rfl
@[simp] theorem csrSetBit_dev (s : State) (o i : Nat) (b : Bool) : (csrSetBit s o i b).dev = s.dev := rfl
@[simp] theorem csrSetBit_assay (s : State) (o i : Nat) (b : Bool) : (csrSetBit s o i b).assay = s.assay := rfl
@[simp] theorem csrSetBit_hvs (s : State) (o i : Nat) (b : Bool) : (csrSetBit s o i b).hvs = s.hvs := rfl
@[simp] theorem csrSetBit_busRead (s : State) (o i : Nat) (b : Bool) : (csrSetBit s o i b).busRead = s.busRead := rfl
@[simp] theorem csrSetBit_free (s : State) (o i : Nat) (b : Bool) : (csrSetBit s o i b).free = s.free := rfl

/-! ## csrSatInc -/

@[simp] theorem csrSatInc_pending (s : State) (o hi n : Nat) : (csrSatInc s o hi n).pending = s.pending := rfl
@[simp] theorem csrSatInc_variantH (s : State) (o hi n : Nat) : (csrSatInc s o hi n).variantH = s.variantH := rfl
@[simp] theorem csrSatInc_cnt (s : State) (o hi n : Nat) : (csrSatInc s o hi n).cnt = s.cnt := rfl
@[simp] theorem csrSatInc_mem (s : State) (o hi n : Nat) : (csrSatInc s o hi n).mem = s.mem := rfl
@[simp] theorem csrSatInc_poison (s : State) (o hi n : Nat) : (csrSatInc s o hi n).poison = s.poison := rfl
@[simp] theorem csrSatInc_soft (s : State) (o hi n : Nat) : (csrSatInc s o hi n).soft = s.soft := rfl
@[simp] theorem csrSatInc_time (s : State) (o hi n : Nat) : (csrSatInc s o hi n).time = s.time := rfl
@[simp] theorem csrSatInc_core (s : State) (o hi n : Nat) : (csrSatInc s o hi n).core = s.core := rfl
@[simp] theorem csrSatInc_disp (s : State) (o hi n : Nat) : (csrSatInc s o hi n).disp = s.disp := rfl
@[simp] theorem csrSatInc_eca (s : State) (o hi n : Nat) : (csrSatInc s o hi n).eca = s.eca := rfl
@[simp] theorem csrSatInc_rsf (s : State) (o hi n : Nat) : (csrSatInc s o hi n).rsf = s.rsf := rfl
@[simp] theorem csrSatInc_qmgr (s : State) (o hi n : Nat) : (csrSatInc s o hi n).qmgr = s.qmgr := rfl
@[simp] theorem csrSatInc_chan (s : State) (o hi n : Nat) : (csrSatInc s o hi n).chan = s.chan := rfl
@[simp] theorem csrSatInc_pkt (s : State) (o hi n : Nat) : (csrSatInc s o hi n).pkt = s.pkt := rfl
@[simp] theorem csrSatInc_mac (s : State) (o hi n : Nat) : (csrSatInc s o hi n).mac = s.mac := rfl
@[simp] theorem csrSatInc_ciph (s : State) (o hi n : Nat) : (csrSatInc s o hi n).ciph = s.ciph := rfl
@[simp] theorem csrSatInc_cruc (s : State) (o hi n : Nat) : (csrSatInc s o hi n).cruc = s.cruc := rfl
@[simp] theorem csrSatInc_meter (s : State) (o hi n : Nat) : (csrSatInc s o hi n).meter = s.meter := rfl
@[simp] theorem csrSatInc_nand (s : State) (o hi n : Nat) : (csrSatInc s o hi n).nand = s.nand := rfl
@[simp] theorem csrSatInc_mirr (s : State) (o hi n : Nat) : (csrSatInc s o hi n).mirr = s.mirr := rfl
@[simp] theorem csrSatInc_host (s : State) (o hi n : Nat) : (csrSatInc s o hi n).host = s.host := rfl
@[simp] theorem csrSatInc_usb (s : State) (o hi n : Nat) : (csrSatInc s o hi n).usb = s.usb := rfl
@[simp] theorem csrSatInc_dev (s : State) (o hi n : Nat) : (csrSatInc s o hi n).dev = s.dev := rfl
@[simp] theorem csrSatInc_assay (s : State) (o hi n : Nat) : (csrSatInc s o hi n).assay = s.assay := rfl
@[simp] theorem csrSatInc_hvs (s : State) (o hi n : Nat) : (csrSatInc s o hi n).hvs = s.hvs := rfl
@[simp] theorem csrSatInc_busRead (s : State) (o hi n : Nat) : (csrSatInc s o hi n).busRead = s.busRead := rfl
@[simp] theorem csrSatInc_free (s : State) (o hi n : Nat) : (csrSatInc s o hi n).free = s.free := rfl

/-! ## cntAdd -/

@[simp] theorem cntAdd_pending (s : State) (o n : Nat) : (cntAdd s o n).pending = s.pending := rfl
@[simp] theorem cntAdd_variantH (s : State) (o n : Nat) : (cntAdd s o n).variantH = s.variantH := rfl
@[simp] theorem cntAdd_csr (s : State) (o n : Nat) : (cntAdd s o n).csr = s.csr := rfl
@[simp] theorem cntAdd_mem (s : State) (o n : Nat) : (cntAdd s o n).mem = s.mem := rfl
@[simp] theorem cntAdd_poison (s : State) (o n : Nat) : (cntAdd s o n).poison = s.poison := rfl
@[simp] theorem cntAdd_soft (s : State) (o n : Nat) : (cntAdd s o n).soft = s.soft := rfl
@[simp] theorem cntAdd_time (s : State) (o n : Nat) : (cntAdd s o n).time = s.time := rfl
@[simp] theorem cntAdd_core (s : State) (o n : Nat) : (cntAdd s o n).core = s.core := rfl
@[simp] theorem cntAdd_disp (s : State) (o n : Nat) : (cntAdd s o n).disp = s.disp := rfl
@[simp] theorem cntAdd_eca (s : State) (o n : Nat) : (cntAdd s o n).eca = s.eca := rfl
@[simp] theorem cntAdd_rsf (s : State) (o n : Nat) : (cntAdd s o n).rsf = s.rsf := rfl
@[simp] theorem cntAdd_qmgr (s : State) (o n : Nat) : (cntAdd s o n).qmgr = s.qmgr := rfl
@[simp] theorem cntAdd_chan (s : State) (o n : Nat) : (cntAdd s o n).chan = s.chan := rfl
@[simp] theorem cntAdd_pkt (s : State) (o n : Nat) : (cntAdd s o n).pkt = s.pkt := rfl
@[simp] theorem cntAdd_mac (s : State) (o n : Nat) : (cntAdd s o n).mac = s.mac := rfl
@[simp] theorem cntAdd_ciph (s : State) (o n : Nat) : (cntAdd s o n).ciph = s.ciph := rfl
@[simp] theorem cntAdd_cruc (s : State) (o n : Nat) : (cntAdd s o n).cruc = s.cruc := rfl
@[simp] theorem cntAdd_meter (s : State) (o n : Nat) : (cntAdd s o n).meter = s.meter := rfl
@[simp] theorem cntAdd_nand (s : State) (o n : Nat) : (cntAdd s o n).nand = s.nand := rfl
@[simp] theorem cntAdd_mirr (s : State) (o n : Nat) : (cntAdd s o n).mirr = s.mirr := rfl
@[simp] theorem cntAdd_host (s : State) (o n : Nat) : (cntAdd s o n).host = s.host := rfl
@[simp] theorem cntAdd_usb (s : State) (o n : Nat) : (cntAdd s o n).usb = s.usb := rfl
@[simp] theorem cntAdd_dev (s : State) (o n : Nat) : (cntAdd s o n).dev = s.dev := rfl
@[simp] theorem cntAdd_assay (s : State) (o n : Nat) : (cntAdd s o n).assay = s.assay := rfl
@[simp] theorem cntAdd_hvs (s : State) (o n : Nat) : (cntAdd s o n).hvs = s.hvs := rfl
@[simp] theorem cntAdd_busRead (s : State) (o n : Nat) : (cntAdd s o n).busRead = s.busRead := rfl
@[simp] theorem cntAdd_free (s : State) (o n : Nat) : (cntAdd s o n).free = s.free := rfl

/-! ## bump -/

@[simp] theorem bump_pending (s : State) (o : Nat) : (bump s o).pending = s.pending := rfl
@[simp] theorem bump_variantH (s : State) (o : Nat) : (bump s o).variantH = s.variantH := rfl
@[simp] theorem bump_csr (s : State) (o : Nat) : (bump s o).csr = s.csr := rfl
@[simp] theorem bump_mem (s : State) (o : Nat) : (bump s o).mem = s.mem := rfl
@[simp] theorem bump_poison (s : State) (o : Nat) : (bump s o).poison = s.poison := rfl
@[simp] theorem bump_soft (s : State) (o : Nat) : (bump s o).soft = s.soft := rfl
@[simp] theorem bump_time (s : State) (o : Nat) : (bump s o).time = s.time := rfl
@[simp] theorem bump_core (s : State) (o : Nat) : (bump s o).core = s.core := rfl
@[simp] theorem bump_disp (s : State) (o : Nat) : (bump s o).disp = s.disp := rfl
@[simp] theorem bump_eca (s : State) (o : Nat) : (bump s o).eca = s.eca := rfl
@[simp] theorem bump_rsf (s : State) (o : Nat) : (bump s o).rsf = s.rsf := rfl
@[simp] theorem bump_qmgr (s : State) (o : Nat) : (bump s o).qmgr = s.qmgr := rfl
@[simp] theorem bump_chan (s : State) (o : Nat) : (bump s o).chan = s.chan := rfl
@[simp] theorem bump_pkt (s : State) (o : Nat) : (bump s o).pkt = s.pkt := rfl
@[simp] theorem bump_mac (s : State) (o : Nat) : (bump s o).mac = s.mac := rfl
@[simp] theorem bump_ciph (s : State) (o : Nat) : (bump s o).ciph = s.ciph := rfl
@[simp] theorem bump_cruc (s : State) (o : Nat) : (bump s o).cruc = s.cruc := rfl
@[simp] theorem bump_meter (s : State) (o : Nat) : (bump s o).meter = s.meter := rfl
@[simp] theorem bump_nand (s : State) (o : Nat) : (bump s o).nand = s.nand := rfl
@[simp] theorem bump_mirr (s : State) (o : Nat) : (bump s o).mirr = s.mirr := rfl
@[simp] theorem bump_host (s : State) (o : Nat) : (bump s o).host = s.host := rfl
@[simp] theorem bump_usb (s : State) (o : Nat) : (bump s o).usb = s.usb := rfl
@[simp] theorem bump_dev (s : State) (o : Nat) : (bump s o).dev = s.dev := rfl
@[simp] theorem bump_assay (s : State) (o : Nat) : (bump s o).assay = s.assay := rfl
@[simp] theorem bump_hvs (s : State) (o : Nat) : (bump s o).hvs = s.hvs := rfl
@[simp] theorem bump_busRead (s : State) (o : Nat) : (bump s o).busRead = s.busRead := rfl
@[simp] theorem bump_free (s : State) (o : Nat) : (bump s o).free = s.free := rfl

/-! ## memWrite -/

@[simp] theorem memWrite_pending (s : State) (a : Nat) (bs : List Byte) : (memWrite s a bs).pending = s.pending := rfl
@[simp] theorem memWrite_variantH (s : State) (a : Nat) (bs : List Byte) : (memWrite s a bs).variantH = s.variantH := rfl
@[simp] theorem memWrite_csr (s : State) (a : Nat) (bs : List Byte) : (memWrite s a bs).csr = s.csr := rfl
@[simp] theorem memWrite_cnt (s : State) (a : Nat) (bs : List Byte) : (memWrite s a bs).cnt = s.cnt := rfl
@[simp] theorem memWrite_soft (s : State) (a : Nat) (bs : List Byte) : (memWrite s a bs).soft = s.soft := rfl
@[simp] theorem memWrite_time (s : State) (a : Nat) (bs : List Byte) : (memWrite s a bs).time = s.time := rfl
@[simp] theorem memWrite_core (s : State) (a : Nat) (bs : List Byte) : (memWrite s a bs).core = s.core := rfl
@[simp] theorem memWrite_disp (s : State) (a : Nat) (bs : List Byte) : (memWrite s a bs).disp = s.disp := rfl
@[simp] theorem memWrite_eca (s : State) (a : Nat) (bs : List Byte) : (memWrite s a bs).eca = s.eca := rfl
@[simp] theorem memWrite_rsf (s : State) (a : Nat) (bs : List Byte) : (memWrite s a bs).rsf = s.rsf := rfl
@[simp] theorem memWrite_qmgr (s : State) (a : Nat) (bs : List Byte) : (memWrite s a bs).qmgr = s.qmgr := rfl
@[simp] theorem memWrite_chan (s : State) (a : Nat) (bs : List Byte) : (memWrite s a bs).chan = s.chan := rfl
@[simp] theorem memWrite_pkt (s : State) (a : Nat) (bs : List Byte) : (memWrite s a bs).pkt = s.pkt := rfl
@[simp] theorem memWrite_mac (s : State) (a : Nat) (bs : List Byte) : (memWrite s a bs).mac = s.mac := rfl
@[simp] theorem memWrite_ciph (s : State) (a : Nat) (bs : List Byte) : (memWrite s a bs).ciph = s.ciph := rfl
@[simp] theorem memWrite_cruc (s : State) (a : Nat) (bs : List Byte) : (memWrite s a bs).cruc = s.cruc := rfl
@[simp] theorem memWrite_meter (s : State) (a : Nat) (bs : List Byte) : (memWrite s a bs).meter = s.meter := rfl
@[simp] theorem memWrite_nand (s : State) (a : Nat) (bs : List Byte) : (memWrite s a bs).nand = s.nand := rfl
@[simp] theorem memWrite_mirr (s : State) (a : Nat) (bs : List Byte) : (memWrite s a bs).mirr = s.mirr := rfl
@[simp] theorem memWrite_host (s : State) (a : Nat) (bs : List Byte) : (memWrite s a bs).host = s.host := rfl
@[simp] theorem memWrite_usb (s : State) (a : Nat) (bs : List Byte) : (memWrite s a bs).usb = s.usb := rfl
@[simp] theorem memWrite_dev (s : State) (a : Nat) (bs : List Byte) : (memWrite s a bs).dev = s.dev := rfl
@[simp] theorem memWrite_assay (s : State) (a : Nat) (bs : List Byte) : (memWrite s a bs).assay = s.assay := rfl
@[simp] theorem memWrite_hvs (s : State) (a : Nat) (bs : List Byte) : (memWrite s a bs).hvs = s.hvs := rfl
@[simp] theorem memWrite_busRead (s : State) (a : Nat) (bs : List Byte) : (memWrite s a bs).busRead = s.busRead := rfl
@[simp] theorem memWrite_free (s : State) (a : Nat) (bs : List Byte) : (memWrite s a bs).free = s.free := rfl

/-! ## memPut -/

@[simp] theorem memPut_pending (s : State) (a n x : Nat) : (memPut s a n x).pending = s.pending := rfl
@[simp] theorem memPut_variantH (s : State) (a n x : Nat) : (memPut s a n x).variantH = s.variantH := rfl
@[simp] theorem memPut_csr (s : State) (a n x : Nat) : (memPut s a n x).csr = s.csr := rfl
@[simp] theorem memPut_cnt (s : State) (a n x : Nat) : (memPut s a n x).cnt = s.cnt := rfl
@[simp] theorem memPut_soft (s : State) (a n x : Nat) : (memPut s a n x).soft = s.soft := rfl
@[simp] theorem memPut_time (s : State) (a n x : Nat) : (memPut s a n x).time = s.time := rfl
@[simp] theorem memPut_core (s : State) (a n x : Nat) : (memPut s a n x).core = s.core := rfl
@[simp] theorem memPut_disp (s : State) (a n x : Nat) : (memPut s a n x).disp = s.disp := rfl
@[simp] theorem memPut_eca (s : State) (a n x : Nat) : (memPut s a n x).eca = s.eca := rfl
@[simp] theorem memPut_rsf (s : State) (a n x : Nat) : (memPut s a n x).rsf = s.rsf := rfl
@[simp] theorem memPut_qmgr (s : State) (a n x : Nat) : (memPut s a n x).qmgr = s.qmgr := rfl
@[simp] theorem memPut_chan (s : State) (a n x : Nat) : (memPut s a n x).chan = s.chan := rfl
@[simp] theorem memPut_pkt (s : State) (a n x : Nat) : (memPut s a n x).pkt = s.pkt := rfl
@[simp] theorem memPut_mac (s : State) (a n x : Nat) : (memPut s a n x).mac = s.mac := rfl
@[simp] theorem memPut_ciph (s : State) (a n x : Nat) : (memPut s a n x).ciph = s.ciph := rfl
@[simp] theorem memPut_cruc (s : State) (a n x : Nat) : (memPut s a n x).cruc = s.cruc := rfl
@[simp] theorem memPut_meter (s : State) (a n x : Nat) : (memPut s a n x).meter = s.meter := rfl
@[simp] theorem memPut_nand (s : State) (a n x : Nat) : (memPut s a n x).nand = s.nand := rfl
@[simp] theorem memPut_mirr (s : State) (a n x : Nat) : (memPut s a n x).mirr = s.mirr := rfl
@[simp] theorem memPut_host (s : State) (a n x : Nat) : (memPut s a n x).host = s.host := rfl
@[simp] theorem memPut_usb (s : State) (a n x : Nat) : (memPut s a n x).usb = s.usb := rfl
@[simp] theorem memPut_dev (s : State) (a n x : Nat) : (memPut s a n x).dev = s.dev := rfl
@[simp] theorem memPut_assay (s : State) (a n x : Nat) : (memPut s a n x).assay = s.assay := rfl
@[simp] theorem memPut_hvs (s : State) (a n x : Nat) : (memPut s a n x).hvs = s.hvs := rfl
@[simp] theorem memPut_busRead (s : State) (a n x : Nat) : (memPut s a n x).busRead = s.busRead := rfl
@[simp] theorem memPut_free (s : State) (a n x : Nat) : (memPut s a n x).free = s.free := rfl

/-! ## timePut -/

@[simp] theorem timePut_pending (s : State) (x : TimeSt) : (timePut s x).pending = s.pending := rfl
@[simp] theorem timePut_variantH (s : State) (x : TimeSt) : (timePut s x).variantH = s.variantH := rfl
@[simp] theorem timePut_csr (s : State) (x : TimeSt) : (timePut s x).csr = s.csr := rfl
@[simp] theorem timePut_cnt (s : State) (x : TimeSt) : (timePut s x).cnt = s.cnt := rfl
@[simp] theorem timePut_mem (s : State) (x : TimeSt) : (timePut s x).mem = s.mem := rfl
@[simp] theorem timePut_poison (s : State) (x : TimeSt) : (timePut s x).poison = s.poison := rfl
@[simp] theorem timePut_soft (s : State) (x : TimeSt) : (timePut s x).soft = s.soft := rfl
@[simp] theorem timePut_time (s : State) (x : TimeSt) : (timePut s x).time = x := rfl
@[simp] theorem timePut_core (s : State) (x : TimeSt) : (timePut s x).core = s.core := rfl
@[simp] theorem timePut_disp (s : State) (x : TimeSt) : (timePut s x).disp = s.disp := rfl
@[simp] theorem timePut_eca (s : State) (x : TimeSt) : (timePut s x).eca = s.eca := rfl
@[simp] theorem timePut_rsf (s : State) (x : TimeSt) : (timePut s x).rsf = s.rsf := rfl
@[simp] theorem timePut_qmgr (s : State) (x : TimeSt) : (timePut s x).qmgr = s.qmgr := rfl
@[simp] theorem timePut_chan (s : State) (x : TimeSt) : (timePut s x).chan = s.chan := rfl
@[simp] theorem timePut_pkt (s : State) (x : TimeSt) : (timePut s x).pkt = s.pkt := rfl
@[simp] theorem timePut_mac (s : State) (x : TimeSt) : (timePut s x).mac = s.mac := rfl
@[simp] theorem timePut_ciph (s : State) (x : TimeSt) : (timePut s x).ciph = s.ciph := rfl
@[simp] theorem timePut_cruc (s : State) (x : TimeSt) : (timePut s x).cruc = s.cruc := rfl
@[simp] theorem timePut_meter (s : State) (x : TimeSt) : (timePut s x).meter = s.meter := rfl
@[simp] theorem timePut_nand (s : State) (x : TimeSt) : (timePut s x).nand = s.nand := rfl
@[simp] theorem timePut_mirr (s : State) (x : TimeSt) : (timePut s x).mirr = s.mirr := rfl
@[simp] theorem timePut_host (s : State) (x : TimeSt) : (timePut s x).host = s.host := rfl
@[simp] theorem timePut_usb (s : State) (x : TimeSt) : (timePut s x).usb = s.usb := rfl
@[simp] theorem timePut_dev (s : State) (x : TimeSt) : (timePut s x).dev = s.dev := rfl
@[simp] theorem timePut_assay (s : State) (x : TimeSt) : (timePut s x).assay = s.assay := rfl
@[simp] theorem timePut_hvs (s : State) (x : TimeSt) : (timePut s x).hvs = s.hvs := rfl
@[simp] theorem timePut_busRead (s : State) (x : TimeSt) : (timePut s x).busRead = s.busRead := rfl
@[simp] theorem timePut_free (s : State) (x : TimeSt) : (timePut s x).free = s.free := rfl

/-! ## ctxPut -/

@[simp] theorem ctxPut_pending (s : State) (k : Nat) (c : Ctx) : (ctxPut s k c).pending = s.pending := rfl
@[simp] theorem ctxPut_variantH (s : State) (k : Nat) (c : Ctx) : (ctxPut s k c).variantH = s.variantH := rfl
@[simp] theorem ctxPut_csr (s : State) (k : Nat) (c : Ctx) : (ctxPut s k c).csr = s.csr := rfl
@[simp] theorem ctxPut_cnt (s : State) (k : Nat) (c : Ctx) : (ctxPut s k c).cnt = s.cnt := rfl
@[simp] theorem ctxPut_mem (s : State) (k : Nat) (c : Ctx) : (ctxPut s k c).mem = s.mem := rfl
@[simp] theorem ctxPut_poison (s : State) (k : Nat) (c : Ctx) : (ctxPut s k c).poison = s.poison := rfl
@[simp] theorem ctxPut_soft (s : State) (k : Nat) (c : Ctx) : (ctxPut s k c).soft = s.soft := rfl
@[simp] theorem ctxPut_time (s : State) (k : Nat) (c : Ctx) : (ctxPut s k c).time = s.time := rfl
@[simp] theorem ctxPut_disp (s : State) (k : Nat) (c : Ctx) : (ctxPut s k c).disp = s.disp := rfl
@[simp] theorem ctxPut_eca (s : State) (k : Nat) (c : Ctx) : (ctxPut s k c).eca = s.eca := rfl
@[simp] theorem ctxPut_rsf (s : State) (k : Nat) (c : Ctx) : (ctxPut s k c).rsf = s.rsf := rfl
@[simp] theorem ctxPut_qmgr (s : State) (k : Nat) (c : Ctx) : (ctxPut s k c).qmgr = s.qmgr := rfl
@[simp] theorem ctxPut_chan (s : State) (k : Nat) (c : Ctx) : (ctxPut s k c).chan = s.chan := rfl
@[simp] theorem ctxPut_pkt (s : State) (k : Nat) (c : Ctx) : (ctxPut s k c).pkt = s.pkt := rfl
@[simp] theorem ctxPut_mac (s : State) (k : Nat) (c : Ctx) : (ctxPut s k c).mac = s.mac := rfl
@[simp] theorem ctxPut_ciph (s : State) (k : Nat) (c : Ctx) : (ctxPut s k c).ciph = s.ciph := rfl
@[simp] theorem ctxPut_cruc (s : State) (k : Nat) (c : Ctx) : (ctxPut s k c).cruc = s.cruc := rfl
@[simp] theorem ctxPut_meter (s : State) (k : Nat) (c : Ctx) : (ctxPut s k c).meter = s.meter := rfl
@[simp] theorem ctxPut_nand (s : State) (k : Nat) (c : Ctx) : (ctxPut s k c).nand = s.nand := rfl
@[simp] theorem ctxPut_mirr (s : State) (k : Nat) (c : Ctx) : (ctxPut s k c).mirr = s.mirr := rfl
@[simp] theorem ctxPut_host (s : State) (k : Nat) (c : Ctx) : (ctxPut s k c).host = s.host := rfl
@[simp] theorem ctxPut_usb (s : State) (k : Nat) (c : Ctx) : (ctxPut s k c).usb = s.usb := rfl
@[simp] theorem ctxPut_dev (s : State) (k : Nat) (c : Ctx) : (ctxPut s k c).dev = s.dev := rfl
@[simp] theorem ctxPut_assay (s : State) (k : Nat) (c : Ctx) : (ctxPut s k c).assay = s.assay := rfl
@[simp] theorem ctxPut_hvs (s : State) (k : Nat) (c : Ctx) : (ctxPut s k c).hvs = s.hvs := rfl
@[simp] theorem ctxPut_busRead (s : State) (k : Nat) (c : Ctx) : (ctxPut s k c).busRead = s.busRead := rfl
@[simp] theorem ctxPut_free (s : State) (k : Nat) (c : Ctx) : (ctxPut s k c).free = s.free := rfl

/-! ## engPut -/

@[simp] theorem engPut_pending (s : State) (e : Nat) (v : Eng) : (engPut s e v).pending = s.pending := rfl
@[simp] theorem engPut_variantH (s : State) (e : Nat) (v : Eng) : (engPut s e v).variantH = s.variantH := rfl
@[simp] theorem engPut_csr (s : State) (e : Nat) (v : Eng) : (engPut s e v).csr = s.csr := rfl
@[simp] theorem engPut_cnt (s : State) (e : Nat) (v : Eng) : (engPut s e v).cnt = s.cnt := rfl
@[simp] theorem engPut_mem (s : State) (e : Nat) (v : Eng) : (engPut s e v).mem = s.mem := rfl
@[simp] theorem engPut_poison (s : State) (e : Nat) (v : Eng) : (engPut s e v).poison = s.poison := rfl
@[simp] theorem engPut_soft (s : State) (e : Nat) (v : Eng) : (engPut s e v).soft = s.soft := rfl
@[simp] theorem engPut_time (s : State) (e : Nat) (v : Eng) : (engPut s e v).time = s.time := rfl
@[simp] theorem engPut_disp (s : State) (e : Nat) (v : Eng) : (engPut s e v).disp = s.disp := rfl
@[simp] theorem engPut_eca (s : State) (e : Nat) (v : Eng) : (engPut s e v).eca = s.eca := rfl
@[simp] theorem engPut_rsf (s : State) (e : Nat) (v : Eng) : (engPut s e v).rsf = s.rsf := rfl
@[simp] theorem engPut_qmgr (s : State) (e : Nat) (v : Eng) : (engPut s e v).qmgr = s.qmgr := rfl
@[simp] theorem engPut_chan (s : State) (e : Nat) (v : Eng) : (engPut s e v).chan = s.chan := rfl
@[simp] theorem engPut_pkt (s : State) (e : Nat) (v : Eng) : (engPut s e v).pkt = s.pkt := rfl
@[simp] theorem engPut_mac (s : State) (e : Nat) (v : Eng) : (engPut s e v).mac = s.mac := rfl
@[simp] theorem engPut_ciph (s : State) (e : Nat) (v : Eng) : (engPut s e v).ciph = s.ciph := rfl
@[simp] theorem engPut_cruc (s : State) (e : Nat) (v : Eng) : (engPut s e v).cruc = s.cruc := rfl
@[simp] theorem engPut_meter (s : State) (e : Nat) (v : Eng) : (engPut s e v).meter = s.meter := rfl
@[simp] theorem engPut_nand (s : State) (e : Nat) (v : Eng) : (engPut s e v).nand = s.nand := rfl
@[simp] theorem engPut_mirr (s : State) (e : Nat) (v : Eng) : (engPut s e v).mirr = s.mirr := rfl
@[simp] theorem engPut_host (s : State) (e : Nat) (v : Eng) : (engPut s e v).host = s.host := rfl
@[simp] theorem engPut_usb (s : State) (e : Nat) (v : Eng) : (engPut s e v).usb = s.usb := rfl
@[simp] theorem engPut_dev (s : State) (e : Nat) (v : Eng) : (engPut s e v).dev = s.dev := rfl
@[simp] theorem engPut_assay (s : State) (e : Nat) (v : Eng) : (engPut s e v).assay = s.assay := rfl
@[simp] theorem engPut_hvs (s : State) (e : Nat) (v : Eng) : (engPut s e v).hvs = s.hvs := rfl
@[simp] theorem engPut_busRead (s : State) (e : Nat) (v : Eng) : (engPut s e v).busRead = s.busRead := rfl
@[simp] theorem engPut_free (s : State) (e : Nat) (v : Eng) : (engPut s e v).free = s.free := rfl

/-! ## tmplPut -/

@[simp] theorem tmplPut_pending (s : State) (n : Nat) (v : Option (Word × Word)) : (tmplPut s n v).pending = s.pending := rfl
@[simp] theorem tmplPut_variantH (s : State) (n : Nat) (v : Option (Word × Word)) : (tmplPut s n v).variantH = s.variantH := rfl
@[simp] theorem tmplPut_csr (s : State) (n : Nat) (v : Option (Word × Word)) : (tmplPut s n v).csr = s.csr := rfl
@[simp] theorem tmplPut_cnt (s : State) (n : Nat) (v : Option (Word × Word)) : (tmplPut s n v).cnt = s.cnt := rfl
@[simp] theorem tmplPut_mem (s : State) (n : Nat) (v : Option (Word × Word)) : (tmplPut s n v).mem = s.mem := rfl
@[simp] theorem tmplPut_poison (s : State) (n : Nat) (v : Option (Word × Word)) : (tmplPut s n v).poison = s.poison := rfl
@[simp] theorem tmplPut_soft (s : State) (n : Nat) (v : Option (Word × Word)) : (tmplPut s n v).soft = s.soft := rfl
@[simp] theorem tmplPut_time (s : State) (n : Nat) (v : Option (Word × Word)) : (tmplPut s n v).time = s.time := rfl
@[simp] theorem tmplPut_core (s : State) (n : Nat) (v : Option (Word × Word)) : (tmplPut s n v).core = s.core := rfl
@[simp] theorem tmplPut_eca (s : State) (n : Nat) (v : Option (Word × Word)) : (tmplPut s n v).eca = s.eca := rfl
@[simp] theorem tmplPut_rsf (s : State) (n : Nat) (v : Option (Word × Word)) : (tmplPut s n v).rsf = s.rsf := rfl
@[simp] theorem tmplPut_qmgr (s : State) (n : Nat) (v : Option (Word × Word)) : (tmplPut s n v).qmgr = s.qmgr := rfl
@[simp] theorem tmplPut_chan (s : State) (n : Nat) (v : Option (Word × Word)) : (tmplPut s n v).chan = s.chan := rfl
@[simp] theorem tmplPut_pkt (s : State) (n : Nat) (v : Option (Word × Word)) : (tmplPut s n v).pkt = s.pkt := rfl
@[simp] theorem tmplPut_mac (s : State) (n : Nat) (v : Option (Word × Word)) : (tmplPut s n v).mac = s.mac := rfl
@[simp] theorem tmplPut_ciph (s : State) (n : Nat) (v : Option (Word × Word)) : (tmplPut s n v).ciph = s.ciph := rfl
@[simp] theorem tmplPut_cruc (s : State) (n : Nat) (v : Option (Word × Word)) : (tmplPut s n v).cruc = s.cruc := rfl
@[simp] theorem tmplPut_meter (s : State) (n : Nat) (v : Option (Word × Word)) : (tmplPut s n v).meter = s.meter := rfl
@[simp] theorem tmplPut_nand (s : State) (n : Nat) (v : Option (Word × Word)) : (tmplPut s n v).nand = s.nand := rfl
@[simp] theorem tmplPut_mirr (s : State) (n : Nat) (v : Option (Word × Word)) : (tmplPut s n v).mirr = s.mirr := rfl
@[simp] theorem tmplPut_host (s : State) (n : Nat) (v : Option (Word × Word)) : (tmplPut s n v).host = s.host := rfl
@[simp] theorem tmplPut_usb (s : State) (n : Nat) (v : Option (Word × Word)) : (tmplPut s n v).usb = s.usb := rfl
@[simp] theorem tmplPut_dev (s : State) (n : Nat) (v : Option (Word × Word)) : (tmplPut s n v).dev = s.dev := rfl
@[simp] theorem tmplPut_assay (s : State) (n : Nat) (v : Option (Word × Word)) : (tmplPut s n v).assay = s.assay := rfl
@[simp] theorem tmplPut_hvs (s : State) (n : Nat) (v : Option (Word × Word)) : (tmplPut s n v).hvs = s.hvs := rfl
@[simp] theorem tmplPut_busRead (s : State) (n : Nat) (v : Option (Word × Word)) : (tmplPut s n v).busRead = s.busRead := rfl
@[simp] theorem tmplPut_free (s : State) (n : Nat) (v : Option (Word × Word)) : (tmplPut s n v).free = s.free := rfl

/-! ## relPut -/

@[simp] theorem relPut_pending (s : State) (n : Nat) (v : Rel) : (relPut s n v).pending = s.pending := rfl
@[simp] theorem relPut_variantH (s : State) (n : Nat) (v : Rel) : (relPut s n v).variantH = s.variantH := rfl
@[simp] theorem relPut_csr (s : State) (n : Nat) (v : Rel) : (relPut s n v).csr = s.csr := rfl
@[simp] theorem relPut_cnt (s : State) (n : Nat) (v : Rel) : (relPut s n v).cnt = s.cnt := rfl
@[simp] theorem relPut_mem (s : State) (n : Nat) (v : Rel) : (relPut s n v).mem = s.mem := rfl
@[simp] theorem relPut_poison (s : State) (n : Nat) (v : Rel) : (relPut s n v).poison = s.poison := rfl
@[simp] theorem relPut_soft (s : State) (n : Nat) (v : Rel) : (relPut s n v).soft = s.soft := rfl
@[simp] theorem relPut_time (s : State) (n : Nat) (v : Rel) : (relPut s n v).time = s.time := rfl
@[simp] theorem relPut_core (s : State) (n : Nat) (v : Rel) : (relPut s n v).core = s.core := rfl
@[simp] theorem relPut_eca (s : State) (n : Nat) (v : Rel) : (relPut s n v).eca = s.eca := rfl
@[simp] theorem relPut_rsf (s : State) (n : Nat) (v : Rel) : (relPut s n v).rsf = s.rsf := rfl
@[simp] theorem relPut_qmgr (s : State) (n : Nat) (v : Rel) : (relPut s n v).qmgr = s.qmgr := rfl
@[simp] theorem relPut_chan (s : State) (n : Nat) (v : Rel) : (relPut s n v).chan = s.chan := rfl
@[simp] theorem relPut_pkt (s : State) (n : Nat) (v : Rel) : (relPut s n v).pkt = s.pkt := rfl
@[simp] theorem relPut_mac (s : State) (n : Nat) (v : Rel) : (relPut s n v).mac = s.mac := rfl
@[simp] theorem relPut_ciph (s : State) (n : Nat) (v : Rel) : (relPut s n v).ciph = s.ciph := rfl
@[simp] theorem relPut_cruc (s : State) (n : Nat) (v : Rel) : (relPut s n v).cruc = s.cruc := rfl
@[simp] theorem relPut_meter (s : State) (n : Nat) (v : Rel) : (relPut s n v).meter = s.meter := rfl
@[simp] theorem relPut_nand (s : State) (n : Nat) (v : Rel) : (relPut s n v).nand = s.nand := rfl
@[simp] theorem relPut_mirr (s : State) (n : Nat) (v : Rel) : (relPut s n v).mirr = s.mirr := rfl
@[simp] theorem relPut_host (s : State) (n : Nat) (v : Rel) : (relPut s n v).host = s.host := rfl
@[simp] theorem relPut_usb (s : State) (n : Nat) (v : Rel) : (relPut s n v).usb = s.usb := rfl
@[simp] theorem relPut_dev (s : State) (n : Nat) (v : Rel) : (relPut s n v).dev = s.dev := rfl
@[simp] theorem relPut_assay (s : State) (n : Nat) (v : Rel) : (relPut s n v).assay = s.assay := rfl
@[simp] theorem relPut_hvs (s : State) (n : Nat) (v : Rel) : (relPut s n v).hvs = s.hvs := rfl
@[simp] theorem relPut_busRead (s : State) (n : Nat) (v : Rel) : (relPut s n v).busRead = s.busRead := rfl
@[simp] theorem relPut_free (s : State) (n : Nat) (v : Rel) : (relPut s n v).free = s.free := rfl

/-! ## queuePut -/

@[simp] theorem queuePut_pending (s : State) (q : Nat) (v : Queue) : (queuePut s q v).pending = s.pending := rfl
@[simp] theorem queuePut_variantH (s : State) (q : Nat) (v : Queue) : (queuePut s q v).variantH = s.variantH := rfl
@[simp] theorem queuePut_csr (s : State) (q : Nat) (v : Queue) : (queuePut s q v).csr = s.csr := rfl
@[simp] theorem queuePut_cnt (s : State) (q : Nat) (v : Queue) : (queuePut s q v).cnt = s.cnt := rfl
@[simp] theorem queuePut_mem (s : State) (q : Nat) (v : Queue) : (queuePut s q v).mem = s.mem := rfl
@[simp] theorem queuePut_poison (s : State) (q : Nat) (v : Queue) : (queuePut s q v).poison = s.poison := rfl
@[simp] theorem queuePut_soft (s : State) (q : Nat) (v : Queue) : (queuePut s q v).soft = s.soft := rfl
@[simp] theorem queuePut_time (s : State) (q : Nat) (v : Queue) : (queuePut s q v).time = s.time := rfl
@[simp] theorem queuePut_core (s : State) (q : Nat) (v : Queue) : (queuePut s q v).core = s.core := rfl
@[simp] theorem queuePut_disp (s : State) (q : Nat) (v : Queue) : (queuePut s q v).disp = s.disp := rfl
@[simp] theorem queuePut_eca (s : State) (q : Nat) (v : Queue) : (queuePut s q v).eca = s.eca := rfl
@[simp] theorem queuePut_rsf (s : State) (q : Nat) (v : Queue) : (queuePut s q v).rsf = s.rsf := rfl
@[simp] theorem queuePut_chan (s : State) (q : Nat) (v : Queue) : (queuePut s q v).chan = s.chan := rfl
@[simp] theorem queuePut_pkt (s : State) (q : Nat) (v : Queue) : (queuePut s q v).pkt = s.pkt := rfl
@[simp] theorem queuePut_mac (s : State) (q : Nat) (v : Queue) : (queuePut s q v).mac = s.mac := rfl
@[simp] theorem queuePut_ciph (s : State) (q : Nat) (v : Queue) : (queuePut s q v).ciph = s.ciph := rfl
@[simp] theorem queuePut_cruc (s : State) (q : Nat) (v : Queue) : (queuePut s q v).cruc = s.cruc := rfl
@[simp] theorem queuePut_meter (s : State) (q : Nat) (v : Queue) : (queuePut s q v).meter = s.meter := rfl
@[simp] theorem queuePut_nand (s : State) (q : Nat) (v : Queue) : (queuePut s q v).nand = s.nand := rfl
@[simp] theorem queuePut_mirr (s : State) (q : Nat) (v : Queue) : (queuePut s q v).mirr = s.mirr := rfl
@[simp] theorem queuePut_host (s : State) (q : Nat) (v : Queue) : (queuePut s q v).host = s.host := rfl
@[simp] theorem queuePut_usb (s : State) (q : Nat) (v : Queue) : (queuePut s q v).usb = s.usb := rfl
@[simp] theorem queuePut_dev (s : State) (q : Nat) (v : Queue) : (queuePut s q v).dev = s.dev := rfl
@[simp] theorem queuePut_assay (s : State) (q : Nat) (v : Queue) : (queuePut s q v).assay = s.assay := rfl
@[simp] theorem queuePut_hvs (s : State) (q : Nat) (v : Queue) : (queuePut s q v).hvs = s.hvs := rfl
@[simp] theorem queuePut_busRead (s : State) (q : Nat) (v : Queue) : (queuePut s q v).busRead = s.busRead := rfl
@[simp] theorem queuePut_free (s : State) (q : Nat) (v : Queue) : (queuePut s q v).free = s.free := rfl

/-! ## bindPut -/

@[simp] theorem bindPut_pending (s : State) (n : Nat) (v : Option Binding) : (bindPut s n v).pending = s.pending := rfl
@[simp] theorem bindPut_variantH (s : State) (n : Nat) (v : Option Binding) : (bindPut s n v).variantH = s.variantH := rfl
@[simp] theorem bindPut_csr (s : State) (n : Nat) (v : Option Binding) : (bindPut s n v).csr = s.csr := rfl
@[simp] theorem bindPut_cnt (s : State) (n : Nat) (v : Option Binding) : (bindPut s n v).cnt = s.cnt := rfl
@[simp] theorem bindPut_mem (s : State) (n : Nat) (v : Option Binding) : (bindPut s n v).mem = s.mem := rfl
@[simp] theorem bindPut_poison (s : State) (n : Nat) (v : Option Binding) : (bindPut s n v).poison = s.poison := rfl
@[simp] theorem bindPut_soft (s : State) (n : Nat) (v : Option Binding) : (bindPut s n v).soft = s.soft := rfl
@[simp] theorem bindPut_time (s : State) (n : Nat) (v : Option Binding) : (bindPut s n v).time = s.time := rfl
@[simp] theorem bindPut_core (s : State) (n : Nat) (v : Option Binding) : (bindPut s n v).core = s.core := rfl
@[simp] theorem bindPut_disp (s : State) (n : Nat) (v : Option Binding) : (bindPut s n v).disp = s.disp := rfl
@[simp] theorem bindPut_eca (s : State) (n : Nat) (v : Option Binding) : (bindPut s n v).eca = s.eca := rfl
@[simp] theorem bindPut_rsf (s : State) (n : Nat) (v : Option Binding) : (bindPut s n v).rsf = s.rsf := rfl
@[simp] theorem bindPut_qmgr (s : State) (n : Nat) (v : Option Binding) : (bindPut s n v).qmgr = s.qmgr := rfl
@[simp] theorem bindPut_pkt (s : State) (n : Nat) (v : Option Binding) : (bindPut s n v).pkt = s.pkt := rfl
@[simp] theorem bindPut_mac (s : State) (n : Nat) (v : Option Binding) : (bindPut s n v).mac = s.mac := rfl
@[simp] theorem bindPut_ciph (s : State) (n : Nat) (v : Option Binding) : (bindPut s n v).ciph = s.ciph := rfl
@[simp] theorem bindPut_cruc (s : State) (n : Nat) (v : Option Binding) : (bindPut s n v).cruc = s.cruc := rfl
@[simp] theorem bindPut_meter (s : State) (n : Nat) (v : Option Binding) : (bindPut s n v).meter = s.meter := rfl
@[simp] theorem bindPut_nand (s : State) (n : Nat) (v : Option Binding) : (bindPut s n v).nand = s.nand := rfl
@[simp] theorem bindPut_mirr (s : State) (n : Nat) (v : Option Binding) : (bindPut s n v).mirr = s.mirr := rfl
@[simp] theorem bindPut_host (s : State) (n : Nat) (v : Option Binding) : (bindPut s n v).host = s.host := rfl
@[simp] theorem bindPut_usb (s : State) (n : Nat) (v : Option Binding) : (bindPut s n v).usb = s.usb := rfl
@[simp] theorem bindPut_dev (s : State) (n : Nat) (v : Option Binding) : (bindPut s n v).dev = s.dev := rfl
@[simp] theorem bindPut_assay (s : State) (n : Nat) (v : Option Binding) : (bindPut s n v).assay = s.assay := rfl
@[simp] theorem bindPut_hvs (s : State) (n : Nat) (v : Option Binding) : (bindPut s n v).hvs = s.hvs := rfl
@[simp] theorem bindPut_busRead (s : State) (n : Nat) (v : Option Binding) : (bindPut s n v).busRead = s.busRead := rfl
@[simp] theorem bindPut_free (s : State) (n : Nat) (v : Option Binding) : (bindPut s n v).free = s.free := rfl

/-! ## flowPut -/

@[simp] theorem flowPut_pending (s : State) (i : Nat) (f : List Byte) : (flowPut s i f).pending = s.pending := rfl
@[simp] theorem flowPut_variantH (s : State) (i : Nat) (f : List Byte) : (flowPut s i f).variantH = s.variantH := rfl
@[simp] theorem flowPut_csr (s : State) (i : Nat) (f : List Byte) : (flowPut s i f).csr = s.csr := rfl
@[simp] theorem flowPut_cnt (s : State) (i : Nat) (f : List Byte) : (flowPut s i f).cnt = s.cnt := rfl
@[simp] theorem flowPut_mem (s : State) (i : Nat) (f : List Byte) : (flowPut s i f).mem = s.mem := rfl
@[simp] theorem flowPut_poison (s : State) (i : Nat) (f : List Byte) : (flowPut s i f).poison = s.poison := rfl
@[simp] theorem flowPut_soft (s : State) (i : Nat) (f : List Byte) : (flowPut s i f).soft = s.soft := rfl
@[simp] theorem flowPut_time (s : State) (i : Nat) (f : List Byte) : (flowPut s i f).time = s.time := rfl
@[simp] theorem flowPut_core (s : State) (i : Nat) (f : List Byte) : (flowPut s i f).core = s.core := rfl
@[simp] theorem flowPut_disp (s : State) (i : Nat) (f : List Byte) : (flowPut s i f).disp = s.disp := rfl
@[simp] theorem flowPut_eca (s : State) (i : Nat) (f : List Byte) : (flowPut s i f).eca = s.eca := rfl
@[simp] theorem flowPut_rsf (s : State) (i : Nat) (f : List Byte) : (flowPut s i f).rsf = s.rsf := rfl
@[simp] theorem flowPut_qmgr (s : State) (i : Nat) (f : List Byte) : (flowPut s i f).qmgr = s.qmgr := rfl
@[simp] theorem flowPut_chan (s : State) (i : Nat) (f : List Byte) : (flowPut s i f).chan = s.chan := rfl
@[simp] theorem flowPut_mac (s : State) (i : Nat) (f : List Byte) : (flowPut s i f).mac = s.mac := rfl
@[simp] theorem flowPut_ciph (s : State) (i : Nat) (f : List Byte) : (flowPut s i f).ciph = s.ciph := rfl
@[simp] theorem flowPut_cruc (s : State) (i : Nat) (f : List Byte) : (flowPut s i f).cruc = s.cruc := rfl
@[simp] theorem flowPut_meter (s : State) (i : Nat) (f : List Byte) : (flowPut s i f).meter = s.meter := rfl
@[simp] theorem flowPut_nand (s : State) (i : Nat) (f : List Byte) : (flowPut s i f).nand = s.nand := rfl
@[simp] theorem flowPut_mirr (s : State) (i : Nat) (f : List Byte) : (flowPut s i f).mirr = s.mirr := rfl
@[simp] theorem flowPut_host (s : State) (i : Nat) (f : List Byte) : (flowPut s i f).host = s.host := rfl
@[simp] theorem flowPut_usb (s : State) (i : Nat) (f : List Byte) : (flowPut s i f).usb = s.usb := rfl
@[simp] theorem flowPut_dev (s : State) (i : Nat) (f : List Byte) : (flowPut s i f).dev = s.dev := rfl
@[simp] theorem flowPut_assay (s : State) (i : Nat) (f : List Byte) : (flowPut s i f).assay = s.assay := rfl
@[simp] theorem flowPut_hvs (s : State) (i : Nat) (f : List Byte) : (flowPut s i f).hvs = s.hvs := rfl
@[simp] theorem flowPut_busRead (s : State) (i : Nat) (f : List Byte) : (flowPut s i f).busRead = s.busRead := rfl
@[simp] theorem flowPut_free (s : State) (i : Nat) (f : List Byte) : (flowPut s i f).free = s.free := rfl

/-! ## macPut -/

@[simp] theorem macPut_pending (s : State) (n : Nat) (m : MacSt) : (macPut s n m).pending = s.pending := rfl
@[simp] theorem macPut_variantH (s : State) (n : Nat) (m : MacSt) : (macPut s n m).variantH = s.variantH := rfl
@[simp] theorem macPut_csr (s : State) (n : Nat) (m : MacSt) : (macPut s n m).csr = s.csr := rfl
@[simp] theorem macPut_cnt (s : State) (n : Nat) (m : MacSt) : (macPut s n m).cnt = s.cnt := rfl
@[simp] theorem macPut_mem (s : State) (n : Nat) (m : MacSt) : (macPut s n m).mem = s.mem := rfl
@[simp] theorem macPut_poison (s : State) (n : Nat) (m : MacSt) : (macPut s n m).poison = s.poison := rfl
@[simp] theorem macPut_soft (s : State) (n : Nat) (m : MacSt) : (macPut s n m).soft = s.soft := rfl
@[simp] theorem macPut_time (s : State) (n : Nat) (m : MacSt) : (macPut s n m).time = s.time := rfl
@[simp] theorem macPut_core (s : State) (n : Nat) (m : MacSt) : (macPut s n m).core = s.core := rfl
@[simp] theorem macPut_disp (s : State) (n : Nat) (m : MacSt) : (macPut s n m).disp = s.disp := rfl
@[simp] theorem macPut_eca (s : State) (n : Nat) (m : MacSt) : (macPut s n m).eca = s.eca := rfl
@[simp] theorem macPut_rsf (s : State) (n : Nat) (m : MacSt) : (macPut s n m).rsf = s.rsf := rfl
@[simp] theorem macPut_qmgr (s : State) (n : Nat) (m : MacSt) : (macPut s n m).qmgr = s.qmgr := rfl
@[simp] theorem macPut_chan (s : State) (n : Nat) (m : MacSt) : (macPut s n m).chan = s.chan := rfl
@[simp] theorem macPut_pkt (s : State) (n : Nat) (m : MacSt) : (macPut s n m).pkt = s.pkt := rfl
@[simp] theorem macPut_ciph (s : State) (n : Nat) (m : MacSt) : (macPut s n m).ciph = s.ciph := rfl
@[simp] theorem macPut_cruc (s : State) (n : Nat) (m : MacSt) : (macPut s n m).cruc = s.cruc := rfl
@[simp] theorem macPut_meter (s : State) (n : Nat) (m : MacSt) : (macPut s n m).meter = s.meter := rfl
@[simp] theorem macPut_nand (s : State) (n : Nat) (m : MacSt) : (macPut s n m).nand = s.nand := rfl
@[simp] theorem macPut_mirr (s : State) (n : Nat) (m : MacSt) : (macPut s n m).mirr = s.mirr := rfl
@[simp] theorem macPut_host (s : State) (n : Nat) (m : MacSt) : (macPut s n m).host = s.host := rfl
@[simp] theorem macPut_usb (s : State) (n : Nat) (m : MacSt) : (macPut s n m).usb = s.usb := rfl
@[simp] theorem macPut_dev (s : State) (n : Nat) (m : MacSt) : (macPut s n m).dev = s.dev := rfl
@[simp] theorem macPut_assay (s : State) (n : Nat) (m : MacSt) : (macPut s n m).assay = s.assay := rfl
@[simp] theorem macPut_hvs (s : State) (n : Nat) (m : MacSt) : (macPut s n m).hvs = s.hvs := rfl
@[simp] theorem macPut_busRead (s : State) (n : Nat) (m : MacSt) : (macPut s n m).busRead = s.busRead := rfl
@[simp] theorem macPut_free (s : State) (n : Nat) (m : MacSt) : (macPut s n m).free = s.free := rfl

/-! ## keySlotPut -/

@[simp] theorem keySlotPut_pending (s : State) (k : Nat) (v : KeySlot) : (keySlotPut s k v).pending = s.pending := rfl
@[simp] theorem keySlotPut_variantH (s : State) (k : Nat) (v : KeySlot) : (keySlotPut s k v).variantH = s.variantH := rfl
@[simp] theorem keySlotPut_csr (s : State) (k : Nat) (v : KeySlot) : (keySlotPut s k v).csr = s.csr := rfl
@[simp] theorem keySlotPut_cnt (s : State) (k : Nat) (v : KeySlot) : (keySlotPut s k v).cnt = s.cnt := rfl
@[simp] theorem keySlotPut_mem (s : State) (k : Nat) (v : KeySlot) : (keySlotPut s k v).mem = s.mem := rfl
@[simp] theorem keySlotPut_poison (s : State) (k : Nat) (v : KeySlot) : (keySlotPut s k v).poison = s.poison := rfl
@[simp] theorem keySlotPut_soft (s : State) (k : Nat) (v : KeySlot) : (keySlotPut s k v).soft = s.soft := rfl
@[simp] theorem keySlotPut_time (s : State) (k : Nat) (v : KeySlot) : (keySlotPut s k v).time = s.time := rfl
@[simp] theorem keySlotPut_core (s : State) (k : Nat) (v : KeySlot) : (keySlotPut s k v).core = s.core := rfl
@[simp] theorem keySlotPut_disp (s : State) (k : Nat) (v : KeySlot) : (keySlotPut s k v).disp = s.disp := rfl
@[simp] theorem keySlotPut_eca (s : State) (k : Nat) (v : KeySlot) : (keySlotPut s k v).eca = s.eca := rfl
@[simp] theorem keySlotPut_rsf (s : State) (k : Nat) (v : KeySlot) : (keySlotPut s k v).rsf = s.rsf := rfl
@[simp] theorem keySlotPut_qmgr (s : State) (k : Nat) (v : KeySlot) : (keySlotPut s k v).qmgr = s.qmgr := rfl
@[simp] theorem keySlotPut_chan (s : State) (k : Nat) (v : KeySlot) : (keySlotPut s k v).chan = s.chan := rfl
@[simp] theorem keySlotPut_pkt (s : State) (k : Nat) (v : KeySlot) : (keySlotPut s k v).pkt = s.pkt := rfl
@[simp] theorem keySlotPut_mac (s : State) (k : Nat) (v : KeySlot) : (keySlotPut s k v).mac = s.mac := rfl
@[simp] theorem keySlotPut_cruc (s : State) (k : Nat) (v : KeySlot) : (keySlotPut s k v).cruc = s.cruc := rfl
@[simp] theorem keySlotPut_meter (s : State) (k : Nat) (v : KeySlot) : (keySlotPut s k v).meter = s.meter := rfl
@[simp] theorem keySlotPut_nand (s : State) (k : Nat) (v : KeySlot) : (keySlotPut s k v).nand = s.nand := rfl
@[simp] theorem keySlotPut_mirr (s : State) (k : Nat) (v : KeySlot) : (keySlotPut s k v).mirr = s.mirr := rfl
@[simp] theorem keySlotPut_host (s : State) (k : Nat) (v : KeySlot) : (keySlotPut s k v).host = s.host := rfl
@[simp] theorem keySlotPut_usb (s : State) (k : Nat) (v : KeySlot) : (keySlotPut s k v).usb = s.usb := rfl
@[simp] theorem keySlotPut_dev (s : State) (k : Nat) (v : KeySlot) : (keySlotPut s k v).dev = s.dev := rfl
@[simp] theorem keySlotPut_assay (s : State) (k : Nat) (v : KeySlot) : (keySlotPut s k v).assay = s.assay := rfl
@[simp] theorem keySlotPut_hvs (s : State) (k : Nat) (v : KeySlot) : (keySlotPut s k v).hvs = s.hvs := rfl
@[simp] theorem keySlotPut_busRead (s : State) (k : Nat) (v : KeySlot) : (keySlotPut s k v).busRead = s.busRead := rfl
@[simp] theorem keySlotPut_free (s : State) (k : Nat) (v : KeySlot) : (keySlotPut s k v).free = s.free := rfl

/-! ## meterPut -/

@[simp] theorem meterPut_pending (s : State) (x : MeterSt) : (meterPut s x).pending = s.pending := rfl
@[simp] theorem meterPut_variantH (s : State) (x : MeterSt) : (meterPut s x).variantH = s.variantH := rfl
@[simp] theorem meterPut_csr (s : State) (x : MeterSt) : (meterPut s x).csr = s.csr := rfl
@[simp] theorem meterPut_cnt (s : State) (x : MeterSt) : (meterPut s x).cnt = s.cnt := rfl
@[simp] theorem meterPut_mem (s : State) (x : MeterSt) : (meterPut s x).mem = s.mem := rfl
@[simp] theorem meterPut_poison (s : State) (x : MeterSt) : (meterPut s x).poison = s.poison := rfl
@[simp] theorem meterPut_soft (s : State) (x : MeterSt) : (meterPut s x).soft = s.soft := rfl
@[simp] theorem meterPut_time (s : State) (x : MeterSt) : (meterPut s x).time = s.time := rfl
@[simp] theorem meterPut_core (s : State) (x : MeterSt) : (meterPut s x).core = s.core := rfl
@[simp] theorem meterPut_disp (s : State) (x : MeterSt) : (meterPut s x).disp = s.disp := rfl
@[simp] theorem meterPut_eca (s : State) (x : MeterSt) : (meterPut s x).eca = s.eca := rfl
@[simp] theorem meterPut_rsf (s : State) (x : MeterSt) : (meterPut s x).rsf = s.rsf := rfl
@[simp] theorem meterPut_qmgr (s : State) (x : MeterSt) : (meterPut s x).qmgr = s.qmgr := rfl
@[simp] theorem meterPut_chan (s : State) (x : MeterSt) : (meterPut s x).chan = s.chan := rfl
@[simp] theorem meterPut_pkt (s : State) (x : MeterSt) : (meterPut s x).pkt = s.pkt := rfl
@[simp] theorem meterPut_mac (s : State) (x : MeterSt) : (meterPut s x).mac = s.mac := rfl
@[simp] theorem meterPut_ciph (s : State) (x : MeterSt) : (meterPut s x).ciph = s.ciph := rfl
@[simp] theorem meterPut_cruc (s : State) (x : MeterSt) : (meterPut s x).cruc = s.cruc := rfl
@[simp] theorem meterPut_meter (s : State) (x : MeterSt) : (meterPut s x).meter = x := rfl
@[simp] theorem meterPut_nand (s : State) (x : MeterSt) : (meterPut s x).nand = s.nand := rfl
@[simp] theorem meterPut_mirr (s : State) (x : MeterSt) : (meterPut s x).mirr = s.mirr := rfl
@[simp] theorem meterPut_host (s : State) (x : MeterSt) : (meterPut s x).host = s.host := rfl
@[simp] theorem meterPut_usb (s : State) (x : MeterSt) : (meterPut s x).usb = s.usb := rfl
@[simp] theorem meterPut_dev (s : State) (x : MeterSt) : (meterPut s x).dev = s.dev := rfl
@[simp] theorem meterPut_assay (s : State) (x : MeterSt) : (meterPut s x).assay = s.assay := rfl
@[simp] theorem meterPut_hvs (s : State) (x : MeterSt) : (meterPut s x).hvs = s.hvs := rfl
@[simp] theorem meterPut_busRead (s : State) (x : MeterSt) : (meterPut s x).busRead = s.busRead := rfl
@[simp] theorem meterPut_free (s : State) (x : MeterSt) : (meterPut s x).free = s.free := rfl

/-! ## nandPut -/

@[simp] theorem nandPut_pending (s : State) (x : NandSt) : (nandPut s x).pending = s.pending := rfl
@[simp] theorem nandPut_variantH (s : State) (x : NandSt) : (nandPut s x).variantH = s.variantH := rfl
@[simp] theorem nandPut_csr (s : State) (x : NandSt) : (nandPut s x).csr = s.csr := rfl
@[simp] theorem nandPut_cnt (s : State) (x : NandSt) : (nandPut s x).cnt = s.cnt := rfl
@[simp] theorem nandPut_mem (s : State) (x : NandSt) : (nandPut s x).mem = s.mem := rfl
@[simp] theorem nandPut_poison (s : State) (x : NandSt) : (nandPut s x).poison = s.poison := rfl
@[simp] theorem nandPut_soft (s : State) (x : NandSt) : (nandPut s x).soft = s.soft := rfl
@[simp] theorem nandPut_time (s : State) (x : NandSt) : (nandPut s x).time = s.time := rfl
@[simp] theorem nandPut_core (s : State) (x : NandSt) : (nandPut s x).core = s.core := rfl
@[simp] theorem nandPut_disp (s : State) (x : NandSt) : (nandPut s x).disp = s.disp := rfl
@[simp] theorem nandPut_eca (s : State) (x : NandSt) : (nandPut s x).eca = s.eca := rfl
@[simp] theorem nandPut_rsf (s : State) (x : NandSt) : (nandPut s x).rsf = s.rsf := rfl
@[simp] theorem nandPut_qmgr (s : State) (x : NandSt) : (nandPut s x).qmgr = s.qmgr := rfl
@[simp] theorem nandPut_chan (s : State) (x : NandSt) : (nandPut s x).chan = s.chan := rfl
@[simp] theorem nandPut_pkt (s : State) (x : NandSt) : (nandPut s x).pkt = s.pkt := rfl
@[simp] theorem nandPut_mac (s : State) (x : NandSt) : (nandPut s x).mac = s.mac := rfl
@[simp] theorem nandPut_ciph (s : State) (x : NandSt) : (nandPut s x).ciph = s.ciph := rfl
@[simp] theorem nandPut_cruc (s : State) (x : NandSt) : (nandPut s x).cruc = s.cruc := rfl
@[simp] theorem nandPut_meter (s : State) (x : NandSt) : (nandPut s x).meter = s.meter := rfl
@[simp] theorem nandPut_nand (s : State) (x : NandSt) : (nandPut s x).nand = x := rfl
@[simp] theorem nandPut_mirr (s : State) (x : NandSt) : (nandPut s x).mirr = s.mirr := rfl
@[simp] theorem nandPut_host (s : State) (x : NandSt) : (nandPut s x).host = s.host := rfl
@[simp] theorem nandPut_usb (s : State) (x : NandSt) : (nandPut s x).usb = s.usb := rfl
@[simp] theorem nandPut_dev (s : State) (x : NandSt) : (nandPut s x).dev = s.dev := rfl
@[simp] theorem nandPut_assay (s : State) (x : NandSt) : (nandPut s x).assay = s.assay := rfl
@[simp] theorem nandPut_hvs (s : State) (x : NandSt) : (nandPut s x).hvs = s.hvs := rfl
@[simp] theorem nandPut_busRead (s : State) (x : NandSt) : (nandPut s x).busRead = s.busRead := rfl
@[simp] theorem nandPut_free (s : State) (x : NandSt) : (nandPut s x).free = s.free := rfl

/-! ## mirrPut -/

@[simp] theorem mirrPut_pending (s : State) (x : MirrSt) : (mirrPut s x).pending = s.pending := rfl
@[simp] theorem mirrPut_variantH (s : State) (x : MirrSt) : (mirrPut s x).variantH = s.variantH := rfl
@[simp] theorem mirrPut_csr (s : State) (x : MirrSt) : (mirrPut s x).csr = s.csr := rfl
@[simp] theorem mirrPut_cnt (s : State) (x : MirrSt) : (mirrPut s x).cnt = s.cnt := rfl
@[simp] theorem mirrPut_mem (s : State) (x : MirrSt) : (mirrPut s x).mem = s.mem := rfl
@[simp] theorem mirrPut_poison (s : State) (x : MirrSt) : (mirrPut s x).poison = s.poison := rfl
@[simp] theorem mirrPut_soft (s : State) (x : MirrSt) : (mirrPut s x).soft = s.soft := rfl
@[simp] theorem mirrPut_time (s : State) (x : MirrSt) : (mirrPut s x).time = s.time := rfl
@[simp] theorem mirrPut_core (s : State) (x : MirrSt) : (mirrPut s x).core = s.core := rfl
@[simp] theorem mirrPut_disp (s : State) (x : MirrSt) : (mirrPut s x).disp = s.disp := rfl
@[simp] theorem mirrPut_eca (s : State) (x : MirrSt) : (mirrPut s x).eca = s.eca := rfl
@[simp] theorem mirrPut_rsf (s : State) (x : MirrSt) : (mirrPut s x).rsf = s.rsf := rfl
@[simp] theorem mirrPut_qmgr (s : State) (x : MirrSt) : (mirrPut s x).qmgr = s.qmgr := rfl
@[simp] theorem mirrPut_chan (s : State) (x : MirrSt) : (mirrPut s x).chan = s.chan := rfl
@[simp] theorem mirrPut_pkt (s : State) (x : MirrSt) : (mirrPut s x).pkt = s.pkt := rfl
@[simp] theorem mirrPut_mac (s : State) (x : MirrSt) : (mirrPut s x).mac = s.mac := rfl
@[simp] theorem mirrPut_ciph (s : State) (x : MirrSt) : (mirrPut s x).ciph = s.ciph := rfl
@[simp] theorem mirrPut_cruc (s : State) (x : MirrSt) : (mirrPut s x).cruc = s.cruc := rfl
@[simp] theorem mirrPut_meter (s : State) (x : MirrSt) : (mirrPut s x).meter = s.meter := rfl
@[simp] theorem mirrPut_nand (s : State) (x : MirrSt) : (mirrPut s x).nand = s.nand := rfl
@[simp] theorem mirrPut_mirr (s : State) (x : MirrSt) : (mirrPut s x).mirr = x := rfl
@[simp] theorem mirrPut_host (s : State) (x : MirrSt) : (mirrPut s x).host = s.host := rfl
@[simp] theorem mirrPut_usb (s : State) (x : MirrSt) : (mirrPut s x).usb = s.usb := rfl
@[simp] theorem mirrPut_dev (s : State) (x : MirrSt) : (mirrPut s x).dev = s.dev := rfl
@[simp] theorem mirrPut_assay (s : State) (x : MirrSt) : (mirrPut s x).assay = s.assay := rfl
@[simp] theorem mirrPut_hvs (s : State) (x : MirrSt) : (mirrPut s x).hvs = s.hvs := rfl
@[simp] theorem mirrPut_busRead (s : State) (x : MirrSt) : (mirrPut s x).busRead = s.busRead := rfl
@[simp] theorem mirrPut_free (s : State) (x : MirrSt) : (mirrPut s x).free = s.free := rfl

/-! ## hostPut -/

@[simp] theorem hostPut_pending (s : State) (x : HostSt) : (hostPut s x).pending = s.pending := rfl
@[simp] theorem hostPut_variantH (s : State) (x : HostSt) : (hostPut s x).variantH = s.variantH := rfl
@[simp] theorem hostPut_csr (s : State) (x : HostSt) : (hostPut s x).csr = s.csr := rfl
@[simp] theorem hostPut_cnt (s : State) (x : HostSt) : (hostPut s x).cnt = s.cnt := rfl
@[simp] theorem hostPut_mem (s : State) (x : HostSt) : (hostPut s x).mem = s.mem := rfl
@[simp] theorem hostPut_poison (s : State) (x : HostSt) : (hostPut s x).poison = s.poison := rfl
@[simp] theorem hostPut_soft (s : State) (x : HostSt) : (hostPut s x).soft = s.soft := rfl
@[simp] theorem hostPut_time (s : State) (x : HostSt) : (hostPut s x).time = s.time := rfl
@[simp] theorem hostPut_core (s : State) (x : HostSt) : (hostPut s x).core = s.core := rfl
@[simp] theorem hostPut_disp (s : State) (x : HostSt) : (hostPut s x).disp = s.disp := rfl
@[simp] theorem hostPut_eca (s : State) (x : HostSt) : (hostPut s x).eca = s.eca := rfl
@[simp] theorem hostPut_rsf (s : State) (x : HostSt) : (hostPut s x).rsf = s.rsf := rfl
@[simp] theorem hostPut_qmgr (s : State) (x : HostSt) : (hostPut s x).qmgr = s.qmgr := rfl
@[simp] theorem hostPut_chan (s : State) (x : HostSt) : (hostPut s x).chan = s.chan := rfl
@[simp] theorem hostPut_pkt (s : State) (x : HostSt) : (hostPut s x).pkt = s.pkt := rfl
@[simp] theorem hostPut_mac (s : State) (x : HostSt) : (hostPut s x).mac = s.mac := rfl
@[simp] theorem hostPut_ciph (s : State) (x : HostSt) : (hostPut s x).ciph = s.ciph := rfl
@[simp] theorem hostPut_cruc (s : State) (x : HostSt) : (hostPut s x).cruc = s.cruc := rfl
@[simp] theorem hostPut_meter (s : State) (x : HostSt) : (hostPut s x).meter = s.meter := rfl
@[simp] theorem hostPut_nand (s : State) (x : HostSt) : (hostPut s x).nand = s.nand := rfl
@[simp] theorem hostPut_mirr (s : State) (x : HostSt) : (hostPut s x).mirr = s.mirr := rfl
@[simp] theorem hostPut_host (s : State) (x : HostSt) : (hostPut s x).host = x := rfl
@[simp] theorem hostPut_usb (s : State) (x : HostSt) : (hostPut s x).usb = s.usb := rfl
@[simp] theorem hostPut_dev (s : State) (x : HostSt) : (hostPut s x).dev = s.dev := rfl
@[simp] theorem hostPut_assay (s : State) (x : HostSt) : (hostPut s x).assay = s.assay := rfl
@[simp] theorem hostPut_hvs (s : State) (x : HostSt) : (hostPut s x).hvs = s.hvs := rfl
@[simp] theorem hostPut_busRead (s : State) (x : HostSt) : (hostPut s x).busRead = s.busRead := rfl
@[simp] theorem hostPut_free (s : State) (x : HostSt) : (hostPut s x).free = s.free := rfl

/-! ## usbPut -/

@[simp] theorem usbPut_pending (s : State) (x : UsbSt) : (usbPut s x).pending = s.pending := rfl
@[simp] theorem usbPut_variantH (s : State) (x : UsbSt) : (usbPut s x).variantH = s.variantH := rfl
@[simp] theorem usbPut_csr (s : State) (x : UsbSt) : (usbPut s x).csr = s.csr := rfl
@[simp] theorem usbPut_cnt (s : State) (x : UsbSt) : (usbPut s x).cnt = s.cnt := rfl
@[simp] theorem usbPut_mem (s : State) (x : UsbSt) : (usbPut s x).mem = s.mem := rfl
@[simp] theorem usbPut_poison (s : State) (x : UsbSt) : (usbPut s x).poison = s.poison := rfl
@[simp] theorem usbPut_soft (s : State) (x : UsbSt) : (usbPut s x).soft = s.soft := rfl
@[simp] theorem usbPut_time (s : State) (x : UsbSt) : (usbPut s x).time = s.time := rfl
@[simp] theorem usbPut_core (s : State) (x : UsbSt) : (usbPut s x).core = s.core := rfl
@[simp] theorem usbPut_disp (s : State) (x : UsbSt) : (usbPut s x).disp = s.disp := rfl
@[simp] theorem usbPut_eca (s : State) (x : UsbSt) : (usbPut s x).eca = s.eca := rfl
@[simp] theorem usbPut_rsf (s : State) (x : UsbSt) : (usbPut s x).rsf = s.rsf := rfl
@[simp] theorem usbPut_qmgr (s : State) (x : UsbSt) : (usbPut s x).qmgr = s.qmgr := rfl
@[simp] theorem usbPut_chan (s : State) (x : UsbSt) : (usbPut s x).chan = s.chan := rfl
@[simp] theorem usbPut_pkt (s : State) (x : UsbSt) : (usbPut s x).pkt = s.pkt := rfl
@[simp] theorem usbPut_mac (s : State) (x : UsbSt) : (usbPut s x).mac = s.mac := rfl
@[simp] theorem usbPut_ciph (s : State) (x : UsbSt) : (usbPut s x).ciph = s.ciph := rfl
@[simp] theorem usbPut_cruc (s : State) (x : UsbSt) : (usbPut s x).cruc = s.cruc := rfl
@[simp] theorem usbPut_meter (s : State) (x : UsbSt) : (usbPut s x).meter = s.meter := rfl
@[simp] theorem usbPut_nand (s : State) (x : UsbSt) : (usbPut s x).nand = s.nand := rfl
@[simp] theorem usbPut_mirr (s : State) (x : UsbSt) : (usbPut s x).mirr = s.mirr := rfl
@[simp] theorem usbPut_host (s : State) (x : UsbSt) : (usbPut s x).host = s.host := rfl
@[simp] theorem usbPut_usb (s : State) (x : UsbSt) : (usbPut s x).usb = x := rfl
@[simp] theorem usbPut_dev (s : State) (x : UsbSt) : (usbPut s x).dev = s.dev := rfl
@[simp] theorem usbPut_assay (s : State) (x : UsbSt) : (usbPut s x).assay = s.assay := rfl
@[simp] theorem usbPut_hvs (s : State) (x : UsbSt) : (usbPut s x).hvs = s.hvs := rfl
@[simp] theorem usbPut_busRead (s : State) (x : UsbSt) : (usbPut s x).busRead = s.busRead := rfl
@[simp] theorem usbPut_free (s : State) (x : UsbSt) : (usbPut s x).free = s.free := rfl

/-! ## devPut -/

@[simp] theorem devPut_pending (s : State) (x : DevSt) : (devPut s x).pending = s.pending := rfl
@[simp] theorem devPut_variantH (s : State) (x : DevSt) : (devPut s x).variantH = s.variantH := rfl
@[simp] theorem devPut_csr (s : State) (x : DevSt) : (devPut s x).csr = s.csr := rfl
@[simp] theorem devPut_cnt (s : State) (x : DevSt) : (devPut s x).cnt = s.cnt := rfl
@[simp] theorem devPut_mem (s : State) (x : DevSt) : (devPut s x).mem = s.mem := rfl
@[simp] theorem devPut_poison (s : State) (x : DevSt) : (devPut s x).poison = s.poison := rfl
@[simp] theorem devPut_soft (s : State) (x : DevSt) : (devPut s x).soft = s.soft := rfl
@[simp] theorem devPut_time (s : State) (x : DevSt) : (devPut s x).time = s.time := rfl
@[simp] theorem devPut_core (s : State) (x : DevSt) : (devPut s x).core = s.core := rfl
@[simp] theorem devPut_disp (s : State) (x : DevSt) : (devPut s x).disp = s.disp := rfl
@[simp] theorem devPut_eca (s : State) (x : DevSt) : (devPut s x).eca = s.eca := rfl
@[simp] theorem devPut_rsf (s : State) (x : DevSt) : (devPut s x).rsf = s.rsf := rfl
@[simp] theorem devPut_qmgr (s : State) (x : DevSt) : (devPut s x).qmgr = s.qmgr := rfl
@[simp] theorem devPut_chan (s : State) (x : DevSt) : (devPut s x).chan = s.chan := rfl
@[simp] theorem devPut_pkt (s : State) (x : DevSt) : (devPut s x).pkt = s.pkt := rfl
@[simp] theorem devPut_mac (s : State) (x : DevSt) : (devPut s x).mac = s.mac := rfl
@[simp] theorem devPut_ciph (s : State) (x : DevSt) : (devPut s x).ciph = s.ciph := rfl
@[simp] theorem devPut_cruc (s : State) (x : DevSt) : (devPut s x).cruc = s.cruc := rfl
@[simp] theorem devPut_meter (s : State) (x : DevSt) : (devPut s x).meter = s.meter := rfl
@[simp] theorem devPut_nand (s : State) (x : DevSt) : (devPut s x).nand = s.nand := rfl
@[simp] theorem devPut_mirr (s : State) (x : DevSt) : (devPut s x).mirr = s.mirr := rfl
@[simp] theorem devPut_host (s : State) (x : DevSt) : (devPut s x).host = s.host := rfl
@[simp] theorem devPut_usb (s : State) (x : DevSt) : (devPut s x).usb = s.usb := rfl
@[simp] theorem devPut_dev (s : State) (x : DevSt) : (devPut s x).dev = x := rfl
@[simp] theorem devPut_assay (s : State) (x : DevSt) : (devPut s x).assay = s.assay := rfl
@[simp] theorem devPut_hvs (s : State) (x : DevSt) : (devPut s x).hvs = s.hvs := rfl
@[simp] theorem devPut_busRead (s : State) (x : DevSt) : (devPut s x).busRead = s.busRead := rfl
@[simp] theorem devPut_free (s : State) (x : DevSt) : (devPut s x).free = s.free := rfl

/-! ## assayPut -/

@[simp] theorem assayPut_pending (s : State) (x : AssaySt) : (assayPut s x).pending = s.pending := rfl
@[simp] theorem assayPut_variantH (s : State) (x : AssaySt) : (assayPut s x).variantH = s.variantH := rfl
@[simp] theorem assayPut_csr (s : State) (x : AssaySt) : (assayPut s x).csr = s.csr := rfl
@[simp] theorem assayPut_cnt (s : State) (x : AssaySt) : (assayPut s x).cnt = s.cnt := rfl
@[simp] theorem assayPut_mem (s : State) (x : AssaySt) : (assayPut s x).mem = s.mem := rfl
@[simp] theorem assayPut_poison (s : State) (x : AssaySt) : (assayPut s x).poison = s.poison := rfl
@[simp] theorem assayPut_soft (s : State) (x : AssaySt) : (assayPut s x).soft = s.soft := rfl
@[simp] theorem assayPut_time (s : State) (x : AssaySt) : (assayPut s x).time = s.time := rfl
@[simp] theorem assayPut_core (s : State) (x : AssaySt) : (assayPut s x).core = s.core := rfl
@[simp] theorem assayPut_disp (s : State) (x : AssaySt) : (assayPut s x).disp = s.disp := rfl
@[simp] theorem assayPut_eca (s : State) (x : AssaySt) : (assayPut s x).eca = s.eca := rfl
@[simp] theorem assayPut_rsf (s : State) (x : AssaySt) : (assayPut s x).rsf = s.rsf := rfl
@[simp] theorem assayPut_qmgr (s : State) (x : AssaySt) : (assayPut s x).qmgr = s.qmgr := rfl
@[simp] theorem assayPut_chan (s : State) (x : AssaySt) : (assayPut s x).chan = s.chan := rfl
@[simp] theorem assayPut_pkt (s : State) (x : AssaySt) : (assayPut s x).pkt = s.pkt := rfl
@[simp] theorem assayPut_mac (s : State) (x : AssaySt) : (assayPut s x).mac = s.mac := rfl
@[simp] theorem assayPut_ciph (s : State) (x : AssaySt) : (assayPut s x).ciph = s.ciph := rfl
@[simp] theorem assayPut_cruc (s : State) (x : AssaySt) : (assayPut s x).cruc = s.cruc := rfl
@[simp] theorem assayPut_meter (s : State) (x : AssaySt) : (assayPut s x).meter = s.meter := rfl
@[simp] theorem assayPut_nand (s : State) (x : AssaySt) : (assayPut s x).nand = s.nand := rfl
@[simp] theorem assayPut_mirr (s : State) (x : AssaySt) : (assayPut s x).mirr = s.mirr := rfl
@[simp] theorem assayPut_host (s : State) (x : AssaySt) : (assayPut s x).host = s.host := rfl
@[simp] theorem assayPut_usb (s : State) (x : AssaySt) : (assayPut s x).usb = s.usb := rfl
@[simp] theorem assayPut_dev (s : State) (x : AssaySt) : (assayPut s x).dev = s.dev := rfl
@[simp] theorem assayPut_assay (s : State) (x : AssaySt) : (assayPut s x).assay = x := rfl
@[simp] theorem assayPut_hvs (s : State) (x : AssaySt) : (assayPut s x).hvs = s.hvs := rfl
@[simp] theorem assayPut_busRead (s : State) (x : AssaySt) : (assayPut s x).busRead = s.busRead := rfl
@[simp] theorem assayPut_free (s : State) (x : AssaySt) : (assayPut s x).free = s.free := rfl

/-! ## hvsPut -/

@[simp] theorem hvsPut_pending (s : State) (x : HvsSt) : (hvsPut s x).pending = s.pending := rfl
@[simp] theorem hvsPut_variantH (s : State) (x : HvsSt) : (hvsPut s x).variantH = s.variantH := rfl
@[simp] theorem hvsPut_csr (s : State) (x : HvsSt) : (hvsPut s x).csr = s.csr := rfl
@[simp] theorem hvsPut_cnt (s : State) (x : HvsSt) : (hvsPut s x).cnt = s.cnt := rfl
@[simp] theorem hvsPut_mem (s : State) (x : HvsSt) : (hvsPut s x).mem = s.mem := rfl
@[simp] theorem hvsPut_poison (s : State) (x : HvsSt) : (hvsPut s x).poison = s.poison := rfl
@[simp] theorem hvsPut_soft (s : State) (x : HvsSt) : (hvsPut s x).soft = s.soft := rfl
@[simp] theorem hvsPut_time (s : State) (x : HvsSt) : (hvsPut s x).time = s.time := rfl
@[simp] theorem hvsPut_core (s : State) (x : HvsSt) : (hvsPut s x).core = s.core := rfl
@[simp] theorem hvsPut_disp (s : State) (x : HvsSt) : (hvsPut s x).disp = s.disp := rfl
@[simp] theorem hvsPut_eca (s : State) (x : HvsSt) : (hvsPut s x).eca = s.eca := rfl
@[simp] theorem hvsPut_rsf (s : State) (x : HvsSt) : (hvsPut s x).rsf = s.rsf := rfl
@[simp] theorem hvsPut_qmgr (s : State) (x : HvsSt) : (hvsPut s x).qmgr = s.qmgr := rfl
@[simp] theorem hvsPut_chan (s : State) (x : HvsSt) : (hvsPut s x).chan = s.chan := rfl
@[simp] theorem hvsPut_pkt (s : State) (x : HvsSt) : (hvsPut s x).pkt = s.pkt := rfl
@[simp] theorem hvsPut_mac (s : State) (x : HvsSt) : (hvsPut s x).mac = s.mac := rfl
@[simp] theorem hvsPut_ciph (s : State) (x : HvsSt) : (hvsPut s x).ciph = s.ciph := rfl
@[simp] theorem hvsPut_cruc (s : State) (x : HvsSt) : (hvsPut s x).cruc = s.cruc := rfl
@[simp] theorem hvsPut_meter (s : State) (x : HvsSt) : (hvsPut s x).meter = s.meter := rfl
@[simp] theorem hvsPut_nand (s : State) (x : HvsSt) : (hvsPut s x).nand = s.nand := rfl
@[simp] theorem hvsPut_mirr (s : State) (x : HvsSt) : (hvsPut s x).mirr = s.mirr := rfl
@[simp] theorem hvsPut_host (s : State) (x : HvsSt) : (hvsPut s x).host = s.host := rfl
@[simp] theorem hvsPut_usb (s : State) (x : HvsSt) : (hvsPut s x).usb = s.usb := rfl
@[simp] theorem hvsPut_dev (s : State) (x : HvsSt) : (hvsPut s x).dev = s.dev := rfl
@[simp] theorem hvsPut_assay (s : State) (x : HvsSt) : (hvsPut s x).assay = s.assay := rfl
@[simp] theorem hvsPut_hvs (s : State) (x : HvsSt) : (hvsPut s x).hvs = x := rfl
@[simp] theorem hvsPut_busRead (s : State) (x : HvsSt) : (hvsPut s x).busRead = s.busRead := rfl
@[simp] theorem hvsPut_free (s : State) (x : HvsSt) : (hvsPut s x).free = s.free := rfl

end Sys2Proof.Machine
end

