-- ==== Sys2Proof/Laws/Events.lean ====
section
/-! SUPPORT. What raising an event, pushing an item and taking or giving a cell leave alone:
everything but registers, counters, memory, the queues and the draws of free values. -/

namespace Sys2Proof.Machine

/-- `t` differs from `s` at most in what queue and event operations touch. -/
structure QueueOnly (s t : State) : Prop where
  pending : t.pending = s.pending
  variantH : t.variantH = s.variantH
  time : t.time = s.time
  core : t.core = s.core
  disp : t.disp = s.disp
  eca : t.eca = s.eca
  rsf : t.rsf = s.rsf
  chan : t.chan = s.chan
  pkt : t.pkt = s.pkt
  mac : t.mac = s.mac
  ciph : t.ciph = s.ciph
  cruc : t.cruc = s.cruc
  meter : t.meter = s.meter
  nand : t.nand = s.nand
  mirr : t.mirr = s.mirr
  host : t.host = s.host
  usb : t.usb = s.usb
  dev : t.dev = s.dev
  assay : t.assay = s.assay
  hvs : t.hvs = s.hvs
  busRead : t.busRead = s.busRead
  csr : ∀ o, o ≠ offQmgrClrHwm → o ≠ offDevFsum → csrGet t o = csrGet s o

theorem QueueOnly.refl (s : State) : QueueOnly s s := by constructor <;> simp

theorem QueueOnly.step {s0 s t : State} (h : QueueOnly s0 s) (p : t.pending = s.pending)
    (v : t.variantH = s.variantH) (ti : t.time = s.time) (co : t.core = s.core) (di : t.disp = s.disp)
    (ec : t.eca = s.eca) (rs : t.rsf = s.rsf) (ch : t.chan = s.chan) (pk : t.pkt = s.pkt) (ma : t.mac = s.mac)
    (ci : t.ciph = s.ciph) (cr : t.cruc = s.cruc) (me : t.meter = s.meter) (na : t.nand = s.nand)
    (mi : t.mirr = s.mirr) (ho : t.host = s.host) (us : t.usb = s.usb) (de : t.dev = s.dev)
    (as_ : t.assay = s.assay) (hv : t.hvs = s.hvs) (bu : t.busRead = s.busRead)
    (cs : ∀ o, o ≠ offQmgrClrHwm → o ≠ offDevFsum → csrGet t o = csrGet s o) : QueueOnly s0 t :=
  ⟨p.trans h.pending, v.trans h.variantH, ti.trans h.time, co.trans h.core, di.trans h.disp, ec.trans h.eca,
    rs.trans h.rsf, ch.trans h.chan, pk.trans h.pkt, ma.trans h.mac, ci.trans h.ciph, cr.trans h.cruc,
    me.trans h.meter, na.trans h.nand, mi.trans h.mirr, ho.trans h.host, us.trans h.usb, de.trans h.dev,
    as_.trans h.assay, hv.trans h.hvs, bu.trans h.busRead, fun o a b => (cs o a b).trans (h.csr o a b)⟩

theorem cntAdd_queueOnly {s0 s : State} (o n : Nat) (h : QueueOnly s0 s) : QueueOnly s0 (cntAdd s o n) :=
  h.step rfl rfl rfl rfl rfl rfl rfl rfl rfl rfl rfl rfl rfl rfl rfl rfl rfl rfl rfl rfl rfl fun _ _ _ => rfl

theorem bump_queueOnly {s0 s : State} (o : Nat) (h : QueueOnly s0 s) : QueueOnly s0 (bump s o) :=
  cntAdd_queueOnly o 1 h

theorem memWrite_queueOnly {s0 s : State} (a : Nat) (bs : List Byte) (h : QueueOnly s0 s) :
    QueueOnly s0 (memWrite s a bs) :=
  h.step rfl rfl rfl rfl rfl rfl rfl rfl rfl rfl rfl rfl rfl rfl rfl rfl rfl rfl rfl rfl rfl fun _ _ _ => rfl

theorem qmgr_queueOnly {s0 s : State} (q : QmgrSt) (h : QueueOnly s0 s) : QueueOnly s0 { s with qmgr := q } :=
  h.step rfl rfl rfl rfl rfl rfl rfl rfl rfl rfl rfl rfl rfl rfl rfl rfl rfl rfl rfl rfl rfl fun _ _ _ => rfl

theorem free_queueOnly {s0 s : State} (n : Nat) (h : QueueOnly s0 s) : QueueOnly s0 { s with free := n } :=
  h.step rfl rfl rfl rfl rfl rfl rfl rfl rfl rfl rfl rfl rfl rfl rfl rfl rfl rfl rfl rfl rfl fun _ _ _ => rfl

theorem csrHwm_queueOnly {s0 s : State} (v : Word) (h : QueueOnly s0 s) :
    QueueOnly s0 (csrPut s offQmgrClrHwm v) :=
  h.step rfl rfl rfl rfl rfl rfl rfl rfl rfl rfl rfl rfl rfl rfl rfl rfl rfl rfl rfl rfl rfl
    fun _ a _ => csrGet_put_other s v a

theorem csrFsum_queueOnly {s0 s : State} (v : Word) (h : QueueOnly s0 s) :
    QueueOnly s0 (csrPut s offDevFsum v) :=
  h.step rfl rfl rfl rfl rfl rfl rfl rfl rfl rfl rfl rfl rfl rfl rfl rfl rfl rfl rfl rfl rfl
    fun _ _ b => csrGet_put_other s v b

theorem queuePut_queueOnly {s0 s : State} (q : Nat) (v : Queue) (h : QueueOnly s0 s) :
    QueueOnly s0 (queuePut s q v) := qmgr_queueOnly _ h

theorem giveCells_queueOnly {s0 s : State} (cs : List Nat) (h : QueueOnly s0 s) :
    QueueOnly s0 (giveCells s cs) := qmgr_queueOnly _ h

theorem freeItem_queueOnly {s0 s : State} (i : Item) (h : QueueOnly s0 s) : QueueOnly s0 (freeItem s i) :=
  giveCells_queueOnly _ h

theorem takeCell_queueOnly {s0 s : State} (h : QueueOnly s0 s) :
    ∀ c t, takeCell s = some (c, t) → QueueOnly s0 t := by
  intro c t e
  unfold takeCell at e
  split at e
  · cases e
  · cases e
    exact csrHwm_queueOnly _ (qmgr_queueOnly _ (free_queueOnly _ h))

theorem takeCells_queueOnly {s0 s : State} (n : Nat) (h : QueueOnly s0 s) :
    ∀ cs t, takeCells n s = some (cs, t) → QueueOnly s0 t := by
  induction n generalizing s with
  | zero => intro cs t e; cases e; exact h
  | succ n ih =>
    intro cs t e
    unfold takeCells at e
    split at e
    · cases e
    · next c s1 e1 =>
      split at e
      · cases e
      · next cs' s2 e2 =>
        cases e
        exact ih (takeCell_queueOnly h _ _ e1) _ _ e2

theorem writeChain_queueOnly {s0 s : State} (stamp flags : Nat) (cs : List Nat) (parts : List (List Byte))
    (h : QueueOnly s0 s) : QueueOnly s0 (writeChain s stamp flags cs parts) := by
  induction cs generalizing s stamp flags parts with
  | nil => exact h
  | cons c r ih => exact ih 0 0 _ (memWrite_queueOnly _ _ h)

theorem buildItem_queueOnly {s0 s : State} (stamp flags : Nat) (bs : List Byte) (h : QueueOnly s0 s) :
    ∀ i t, buildItem s stamp flags bs = some (i, t) → QueueOnly s0 t := by
  intro i t e
  unfold buildItem at e
  dsimp only at e
  split at e
  · cases e
  · split at e
    · cases e
    · next cs s1 e1 =>
      cases e
      exact writeChain_queueOnly _ _ _ _ (takeCells_queueOnly _ h _ _ e1)

theorem dropOldest_queueOnly {s0 s : State} (q : Nat) (h : QueueOnly s0 s) : QueueOnly s0 (dropOldest s q) := by
  unfold dropOldest; grind [bump_queueOnly, queuePut_queueOnly, freeItem_queueOnly]

theorem pushItem_queueOnly {s0 s : State} (q : Nat) (i : Item) (src : Nat) (h : QueueOnly s0 s) :
    QueueOnly s0 (pushItem s q i src) := by
  unfold pushItem; grind [bump_queueOnly, queuePut_queueOnly, freeItem_queueOnly, dropOldest_queueOnly]

theorem placeEvent_queueOnly {s0 s : State} (q src : Nat) (rec : List Byte) (h : QueueOnly s0 s) :
    QueueOnly s0 (placeEvent s q src rec) := by
  unfold placeEvent
  dsimp only
  split
  · next c s1 e => exact pushItem_queueOnly _ _ _ (memWrite_queueOnly _ _ (takeCell_queueOnly h _ _ e))
  · split
    · exact queuePut_queueOnly _ _ h
    · split
      · next c s2 e =>
        exact pushItem_queueOnly _ _ _ (memWrite_queueOnly _ _
          (takeCell_queueOnly (dropOldest_queueOnly _ h) _ _ e))
      · exact dropOldest_queueOnly _ h

theorem noteFault_queueOnly {s0 s : State} (src code flags : Nat) (data : List Byte) (h : QueueOnly s0 s) :
    QueueOnly s0 (noteFault s src code flags data) := by
  unfold noteFault csrSetBit; split
  · exact csrFsum_queueOnly _ h
  · exact h

theorem routeEvent_queueOnly {s0 s : State} (src code chan flags : Nat) (data : List Byte) (h : QueueOnly s0 s) :
    QueueOnly s0 (routeEvent s src code chan flags data) := by
  unfold routeEvent; grind [placeEvent_queueOnly, bump_queueOnly]

theorem clearingCheck_queueOnly {s0 s : State} (h : QueueOnly s0 s) : QueueOnly s0 (clearingCheck s) := by
  unfold clearingCheck; grind [routeEvent_queueOnly, qmgr_queueOnly]

/-- All that raising an event can do. -/
theorem raise_queueOnly {s0 s : State} (src code chan flags : Nat) (data : List Byte) (h : QueueOnly s0 s) :
    QueueOnly s0 (raise s src code chan flags data) :=
  clearingCheck_queueOnly (routeEvent_queueOnly _ _ _ _ _ (noteFault_queueOnly _ _ _ _ h))

theorem raise0_queueOnly {s0 s : State} (src code flags : Nat) (data : List Byte) (h : QueueOnly s0 s) :
    QueueOnly s0 (raise0 s src code flags data) := raise_queueOnly _ _ _ _ _ h

theorem pushBytes_queueOnly {s0 s : State} (q src stamp flags : Nat) (bs : List Byte) (h : QueueOnly s0 s) :
    ∀ t, pushBytes s q src stamp flags bs = some t → QueueOnly s0 t := by
  unfold pushBytes; grind [buildItem_queueOnly, clearingCheck_queueOnly, pushItem_queueOnly]

theorem popQueue_queueOnly {s0 s : State} (q : Nat) (h : QueueOnly s0 s) : QueueOnly s0 (popQueue s q).2 := by
  unfold popQueue; grind [queuePut_queueOnly, bump_queueOnly, qmgr_queueOnly]

/-! ## The fields one by one -/

@[simp] theorem raise_pending (s : State) (src code chan flags : Nat) (data : List Byte) :
    (raise s src code chan flags data).pending = s.pending := (raise_queueOnly _ _ _ _ _ (.refl s)).pending

@[simp] theorem raise0_pending (s : State) (src code flags : Nat) (data : List Byte) :
    (raise0 s src code flags data).pending = s.pending := (raise_queueOnly _ _ _ _ _ (.refl s)).pending

@[simp] theorem clearingCheck_pending (s : State) : (clearingCheck s).pending = s.pending :=
  (clearingCheck_queueOnly (.refl s)).pending

@[simp] theorem pushItem_pending (s : State) (q : Nat) (i : Item) (src : Nat) :
    (pushItem s q i src).pending = s.pending := (pushItem_queueOnly q i src (.refl s)).pending

@[simp] theorem raise_variantH (s : State) (src code chan flags : Nat) (data : List Byte) :
    (raise s src code chan flags data).variantH = s.variantH := (raise_queueOnly _ _ _ _ _ (.refl s)).variantH

@[simp] theorem raise0_variantH (s : State) (src code flags : Nat) (data : List Byte) :
    (raise0 s src code flags data).variantH = s.variantH := (raise_queueOnly _ _ _ _ _ (.refl s)).variantH

@[simp] theorem clearingCheck_variantH (s : State) : (clearingCheck s).variantH = s.variantH :=
  (clearingCheck_queueOnly (.refl s)).variantH

@[simp] theorem pushItem_variantH (s : State) (q : Nat) (i : Item) (src : Nat) :
    (pushItem s q i src).variantH = s.variantH := (pushItem_queueOnly q i src (.refl s)).variantH

@[simp] theorem raise_time (s : State) (src code chan flags : Nat) (data : List Byte) :
    (raise s src code chan flags data).time = s.time := (raise_queueOnly _ _ _ _ _ (.refl s)).time

@[simp] theorem raise0_time (s : State) (src code flags : Nat) (data : List Byte) :
    (raise0 s src code flags data).time = s.time := (raise_queueOnly _ _ _ _ _ (.refl s)).time

@[simp] theorem clearingCheck_time (s : State) : (clearingCheck s).time = s.time :=
  (clearingCheck_queueOnly (.refl s)).time

@[simp] theorem pushItem_time (s : State) (q : Nat) (i : Item) (src : Nat) :
    (pushItem s q i src).time = s.time := (pushItem_queueOnly q i src (.refl s)).time

@[simp] theorem raise_core (s : State) (src code chan flags : Nat) (data : List Byte) :
    (raise s src code chan flags data).core = s.core := (raise_queueOnly _ _ _ _ _ (.refl s)).core

@[simp] theorem raise0_core (s : State) (src code flags : Nat) (data : List Byte) :
    (raise0 s src code flags data).core = s.core := (raise_queueOnly _ _ _ _ _ (.refl s)).core

@[simp] theorem clearingCheck_core (s : State) : (clearingCheck s).core = s.core :=
  (clearingCheck_queueOnly (.refl s)).core

@[simp] theorem pushItem_core (s : State) (q : Nat) (i : Item) (src : Nat) :
    (pushItem s q i src).core = s.core := (pushItem_queueOnly q i src (.refl s)).core

@[simp] theorem raise_disp (s : State) (src code chan flags : Nat) (data : List Byte) :
    (raise s src code chan flags data).disp = s.disp := (raise_queueOnly _ _ _ _ _ (.refl s)).disp

@[simp] theorem raise0_disp (s : State) (src code flags : Nat) (data : List Byte) :
    (raise0 s src code flags data).disp = s.disp := (raise_queueOnly _ _ _ _ _ (.refl s)).disp

@[simp] theorem clearingCheck_disp (s : State) : (clearingCheck s).disp = s.disp :=
  (clearingCheck_queueOnly (.refl s)).disp

@[simp] theorem pushItem_disp (s : State) (q : Nat) (i : Item) (src : Nat) :
    (pushItem s q i src).disp = s.disp := (pushItem_queueOnly q i src (.refl s)).disp

@[simp] theorem raise_eca (s : State) (src code chan flags : Nat) (data : List Byte) :
    (raise s src code chan flags data).eca = s.eca := (raise_queueOnly _ _ _ _ _ (.refl s)).eca

@[simp] theorem raise0_eca (s : State) (src code flags : Nat) (data : List Byte) :
    (raise0 s src code flags data).eca = s.eca := (raise_queueOnly _ _ _ _ _ (.refl s)).eca

@[simp] theorem clearingCheck_eca (s : State) : (clearingCheck s).eca = s.eca :=
  (clearingCheck_queueOnly (.refl s)).eca

@[simp] theorem pushItem_eca (s : State) (q : Nat) (i : Item) (src : Nat) :
    (pushItem s q i src).eca = s.eca := (pushItem_queueOnly q i src (.refl s)).eca

@[simp] theorem raise_rsf (s : State) (src code chan flags : Nat) (data : List Byte) :
    (raise s src code chan flags data).rsf = s.rsf := (raise_queueOnly _ _ _ _ _ (.refl s)).rsf

@[simp] theorem raise0_rsf (s : State) (src code flags : Nat) (data : List Byte) :
    (raise0 s src code flags data).rsf = s.rsf := (raise_queueOnly _ _ _ _ _ (.refl s)).rsf

@[simp] theorem clearingCheck_rsf (s : State) : (clearingCheck s).rsf = s.rsf :=
  (clearingCheck_queueOnly (.refl s)).rsf

@[simp] theorem pushItem_rsf (s : State) (q : Nat) (i : Item) (src : Nat) :
    (pushItem s q i src).rsf = s.rsf := (pushItem_queueOnly q i src (.refl s)).rsf

@[simp] theorem raise_chan (s : State) (src code chan flags : Nat) (data : List Byte) :
    (raise s src code chan flags data).chan = s.chan := (raise_queueOnly _ _ _ _ _ (.refl s)).chan

@[simp] theorem raise0_chan (s : State) (src code flags : Nat) (data : List Byte) :
    (raise0 s src code flags data).chan = s.chan := (raise_queueOnly _ _ _ _ _ (.refl s)).chan

@[simp] theorem clearingCheck_chan (s : State) : (clearingCheck s).chan = s.chan :=
  (clearingCheck_queueOnly (.refl s)).chan

@[simp] theorem pushItem_chan (s : State) (q : Nat) (i : Item) (src : Nat) :
    (pushItem s q i src).chan = s.chan := (pushItem_queueOnly q i src (.refl s)).chan

@[simp] theorem raise_pkt (s : State) (src code chan flags : Nat) (data : List Byte) :
    (raise s src code chan flags data).pkt = s.pkt := (raise_queueOnly _ _ _ _ _ (.refl s)).pkt

@[simp] theorem raise0_pkt (s : State) (src code flags : Nat) (data : List Byte) :
    (raise0 s src code flags data).pkt = s.pkt := (raise_queueOnly _ _ _ _ _ (.refl s)).pkt

@[simp] theorem clearingCheck_pkt (s : State) : (clearingCheck s).pkt = s.pkt :=
  (clearingCheck_queueOnly (.refl s)).pkt

@[simp] theorem pushItem_pkt (s : State) (q : Nat) (i : Item) (src : Nat) :
    (pushItem s q i src).pkt = s.pkt := (pushItem_queueOnly q i src (.refl s)).pkt

@[simp] theorem raise_mac (s : State) (src code chan flags : Nat) (data : List Byte) :
    (raise s src code chan flags data).mac = s.mac := (raise_queueOnly _ _ _ _ _ (.refl s)).mac

@[simp] theorem raise0_mac (s : State) (src code flags : Nat) (data : List Byte) :
    (raise0 s src code flags data).mac = s.mac := (raise_queueOnly _ _ _ _ _ (.refl s)).mac

@[simp] theorem clearingCheck_mac (s : State) : (clearingCheck s).mac = s.mac :=
  (clearingCheck_queueOnly (.refl s)).mac

@[simp] theorem pushItem_mac (s : State) (q : Nat) (i : Item) (src : Nat) :
    (pushItem s q i src).mac = s.mac := (pushItem_queueOnly q i src (.refl s)).mac

@[simp] theorem raise_ciph (s : State) (src code chan flags : Nat) (data : List Byte) :
    (raise s src code chan flags data).ciph = s.ciph := (raise_queueOnly _ _ _ _ _ (.refl s)).ciph

@[simp] theorem raise0_ciph (s : State) (src code flags : Nat) (data : List Byte) :
    (raise0 s src code flags data).ciph = s.ciph := (raise_queueOnly _ _ _ _ _ (.refl s)).ciph

@[simp] theorem clearingCheck_ciph (s : State) : (clearingCheck s).ciph = s.ciph :=
  (clearingCheck_queueOnly (.refl s)).ciph

@[simp] theorem pushItem_ciph (s : State) (q : Nat) (i : Item) (src : Nat) :
    (pushItem s q i src).ciph = s.ciph := (pushItem_queueOnly q i src (.refl s)).ciph

@[simp] theorem raise_cruc (s : State) (src code chan flags : Nat) (data : List Byte) :
    (raise s src code chan flags data).cruc = s.cruc := (raise_queueOnly _ _ _ _ _ (.refl s)).cruc

@[simp] theorem raise0_cruc (s : State) (src code flags : Nat) (data : List Byte) :
    (raise0 s src code flags data).cruc = s.cruc := (raise_queueOnly _ _ _ _ _ (.refl s)).cruc

@[simp] theorem clearingCheck_cruc (s : State) : (clearingCheck s).cruc = s.cruc :=
  (clearingCheck_queueOnly (.refl s)).cruc

@[simp] theorem pushItem_cruc (s : State) (q : Nat) (i : Item) (src : Nat) :
    (pushItem s q i src).cruc = s.cruc := (pushItem_queueOnly q i src (.refl s)).cruc

@[simp] theorem raise_meter (s : State) (src code chan flags : Nat) (data : List Byte) :
    (raise s src code chan flags data).meter = s.meter := (raise_queueOnly _ _ _ _ _ (.refl s)).meter

@[simp] theorem raise0_meter (s : State) (src code flags : Nat) (data : List Byte) :
    (raise0 s src code flags data).meter = s.meter := (raise_queueOnly _ _ _ _ _ (.refl s)).meter

@[simp] theorem clearingCheck_meter (s : State) : (clearingCheck s).meter = s.meter :=
  (clearingCheck_queueOnly (.refl s)).meter

@[simp] theorem pushItem_meter (s : State) (q : Nat) (i : Item) (src : Nat) :
    (pushItem s q i src).meter = s.meter := (pushItem_queueOnly q i src (.refl s)).meter

@[simp] theorem raise_nand (s : State) (src code chan flags : Nat) (data : List Byte) :
    (raise s src code chan flags data).nand = s.nand := (raise_queueOnly _ _ _ _ _ (.refl s)).nand

@[simp] theorem raise0_nand (s : State) (src code flags : Nat) (data : List Byte) :
    (raise0 s src code flags data).nand = s.nand := (raise_queueOnly _ _ _ _ _ (.refl s)).nand

@[simp] theorem clearingCheck_nand (s : State) : (clearingCheck s).nand = s.nand :=
  (clearingCheck_queueOnly (.refl s)).nand

@[simp] theorem pushItem_nand (s : State) (q : Nat) (i : Item) (src : Nat) :
    (pushItem s q i src).nand = s.nand := (pushItem_queueOnly q i src (.refl s)).nand

@[simp] theorem raise_mirr (s : State) (src code chan flags : Nat) (data : List Byte) :
    (raise s src code chan flags data).mirr = s.mirr := (raise_queueOnly _ _ _ _ _ (.refl s)).mirr

@[simp] theorem raise0_mirr (s : State) (src code flags : Nat) (data : List Byte) :
    (raise0 s src code flags data).mirr = s.mirr := (raise_queueOnly _ _ _ _ _ (.refl s)).mirr

@[simp] theorem clearingCheck_mirr (s : State) : (clearingCheck s).mirr = s.mirr :=
  (clearingCheck_queueOnly (.refl s)).mirr

@[simp] theorem pushItem_mirr (s : State) (q : Nat) (i : Item) (src : Nat) :
    (pushItem s q i src).mirr = s.mirr := (pushItem_queueOnly q i src (.refl s)).mirr

@[simp] theorem raise_host (s : State) (src code chan flags : Nat) (data : List Byte) :
    (raise s src code chan flags data).host = s.host := (raise_queueOnly _ _ _ _ _ (.refl s)).host

@[simp] theorem raise0_host (s : State) (src code flags : Nat) (data : List Byte) :
    (raise0 s src code flags data).host = s.host := (raise_queueOnly _ _ _ _ _ (.refl s)).host

@[simp] theorem clearingCheck_host (s : State) : (clearingCheck s).host = s.host :=
  (clearingCheck_queueOnly (.refl s)).host

@[simp] theorem pushItem_host (s : State) (q : Nat) (i : Item) (src : Nat) :
    (pushItem s q i src).host = s.host := (pushItem_queueOnly q i src (.refl s)).host

@[simp] theorem raise_usb (s : State) (src code chan flags : Nat) (data : List Byte) :
    (raise s src code chan flags data).usb = s.usb := (raise_queueOnly _ _ _ _ _ (.refl s)).usb

@[simp] theorem raise0_usb (s : State) (src code flags : Nat) (data : List Byte) :
    (raise0 s src code flags data).usb = s.usb := (raise_queueOnly _ _ _ _ _ (.refl s)).usb

@[simp] theorem clearingCheck_usb (s : State) : (clearingCheck s).usb = s.usb :=
  (clearingCheck_queueOnly (.refl s)).usb

@[simp] theorem pushItem_usb (s : State) (q : Nat) (i : Item) (src : Nat) :
    (pushItem s q i src).usb = s.usb := (pushItem_queueOnly q i src (.refl s)).usb

@[simp] theorem raise_dev (s : State) (src code chan flags : Nat) (data : List Byte) :
    (raise s src code chan flags data).dev = s.dev := (raise_queueOnly _ _ _ _ _ (.refl s)).dev

@[simp] theorem raise0_dev (s : State) (src code flags : Nat) (data : List Byte) :
    (raise0 s src code flags data).dev = s.dev := (raise_queueOnly _ _ _ _ _ (.refl s)).dev

@[simp] theorem clearingCheck_dev (s : State) : (clearingCheck s).dev = s.dev :=
  (clearingCheck_queueOnly (.refl s)).dev

@[simp] theorem pushItem_dev (s : State) (q : Nat) (i : Item) (src : Nat) :
    (pushItem s q i src).dev = s.dev := (pushItem_queueOnly q i src (.refl s)).dev

@[simp] theorem raise_assay (s : State) (src code chan flags : Nat) (data : List Byte) :
    (raise s src code chan flags data).assay = s.assay := (raise_queueOnly _ _ _ _ _ (.refl s)).assay

@[simp] theorem raise0_assay (s : State) (src code flags : Nat) (data : List Byte) :
    (raise0 s src code flags data).assay = s.assay := (raise_queueOnly _ _ _ _ _ (.refl s)).assay

@[simp] theorem clearingCheck_assay (s : State) : (clearingCheck s).assay = s.assay :=
  (clearingCheck_queueOnly (.refl s)).assay

@[simp] theorem pushItem_assay (s : State) (q : Nat) (i : Item) (src : Nat) :
    (pushItem s q i src).assay = s.assay := (pushItem_queueOnly q i src (.refl s)).assay

@[simp] theorem raise_hvs (s : State) (src code chan flags : Nat) (data : List Byte) :
    (raise s src code chan flags data).hvs = s.hvs := (raise_queueOnly _ _ _ _ _ (.refl s)).hvs

@[simp] theorem raise0_hvs (s : State) (src code flags : Nat) (data : List Byte) :
    (raise0 s src code flags data).hvs = s.hvs := (raise_queueOnly _ _ _ _ _ (.refl s)).hvs

@[simp] theorem clearingCheck_hvs (s : State) : (clearingCheck s).hvs = s.hvs :=
  (clearingCheck_queueOnly (.refl s)).hvs

@[simp] theorem pushItem_hvs (s : State) (q : Nat) (i : Item) (src : Nat) :
    (pushItem s q i src).hvs = s.hvs := (pushItem_queueOnly q i src (.refl s)).hvs

@[simp] theorem raise_busRead (s : State) (src code chan flags : Nat) (data : List Byte) :
    (raise s src code chan flags data).busRead = s.busRead := (raise_queueOnly _ _ _ _ _ (.refl s)).busRead

@[simp] theorem raise0_busRead (s : State) (src code flags : Nat) (data : List Byte) :
    (raise0 s src code flags data).busRead = s.busRead := (raise_queueOnly _ _ _ _ _ (.refl s)).busRead

@[simp] theorem clearingCheck_busRead (s : State) : (clearingCheck s).busRead = s.busRead :=
  (clearingCheck_queueOnly (.refl s)).busRead

@[simp] theorem pushItem_busRead (s : State) (q : Nat) (i : Item) (src : Nat) :
    (pushItem s q i src).busRead = s.busRead := (pushItem_queueOnly q i src (.refl s)).busRead

theorem csrGet_raise (s : State) (src code chan flags : Nat) (data : List Byte) {o : Nat}
    (a : o ≠ offQmgrClrHwm) (b : o ≠ offDevFsum) : csrGet (raise s src code chan flags data) o = csrGet s o :=
  (raise_queueOnly _ _ _ _ _ (.refl s)).csr o a b

theorem csrGet_raise0 (s : State) (src code flags : Nat) (data : List Byte) {o : Nat}
    (a : o ≠ offQmgrClrHwm) (b : o ≠ offDevFsum) : csrGet (raise0 s src code flags data) o = csrGet s o :=
  csrGet_raise s src code 0xFFFF flags data a b

end Sys2Proof.Machine
end

