-- ==== Sys2Proof/WellFormed.lean ====
section
/-! DEFINITION. Well-formed commands: every operand that names an engine, a context, a port,
a queue, an offset or a place lies in its range.  An operand of bits is always in its range. -/

namespace Sys2Proof

/-- A request that R488 lists, which has a row of its own. -/
def vendorRow (type req : Nat) : Bool :=
  (type == 0xC0 && (req == 1 || req == 4 || req == 6)) || (type == 0x40 && (req == 2 || req == 3 || req == 5 || req == 7))

/-- A read of the endpoint: one of BAR4 lies in it (R33). -/
def pcieReadWf (r : PcieRead) : Bool :=
  match r with
  | .bar4 o n => decide (o + n ≤ 0x10000)
  | _ => true

/-- A portal: the host's, or that of one of the 544 contexts (R296). -/
def portalWf (p : Option Nat) : Bool := p.all fun k => decide (k < 544)

/-- Whether a command's operands lie in their ranges. -/
def wellFormed (i : Instr) : Bool :=
  match i with
  | .registerWrite _ o _ => decide (o < 0x1000000) && o % 4 == 0
  | .rcRegisterRead a => decide (a.o < 0x1000000) && a.o % 4 == 0
  | .counterLoRead a => decide (a.o < 0x1000000) && a.o % 4 == 0
  | .deviceReset _ => true
  | .resetRelease _ _ => true
  | .tick => true
  | .timeFreqWrite _ => true
  | .timePhaseAdjWrite _ => true
  | .phaseClr => true
  | .step => true
  | .modeCmdFreerun => true
  | .modeCmdLocking => true
  | .modeCmdLocked => true
  | .modeCmdHoldover => true
  | .watchdogExpiry => true
  | .phaseSlewEnd => true
  | .nfnAlignmentChange => true
  | .fsrcWrite _ => true
  | .clk10Fallback => true
  | .clk10Restore => true
  | .timeNfnLoRead => true
  | .tsInCapture pin _ _ => decide (pin < 4)
  | .ppsRise => true
  | .ppsFall => true
  | .add e _ _ _ => decide (e < 136)
  | .adds e _ _ _ => decide (e < 136)
  | .sub e _ _ _ => decide (e < 136)
  | .subs e _ _ _ => decide (e < 136)
  | .cmp e _ _ => decide (e < 136)
  | .and e _ _ _ => decide (e < 136)
  | .or e _ _ _ => decide (e < 136)
  | .xor e _ _ _ => decide (e < 136)
  | .andn e _ _ _ => decide (e < 136)
  | .tst e _ _ => decide (e < 136)
  | .shl e _ _ _ => decide (e < 136)
  | .shr e _ _ _ => decide (e < 136)
  | .sar e _ _ _ => decide (e < 136)
  | .min e _ _ _ => decide (e < 136)
  | .max e _ _ _ => decide (e < 136)
  | .neg e _ _ => decide (e < 136)
  | .abs e _ _ => decide (e < 136)
  | .clz e _ _ => decide (e < 136)
  | .mul e _ _ _ => decide (e < 136)
  | .sexh e _ _ => decide (e < 136)
  | .addi e _ _ _ => decide (e < 136)
  | .andi e _ _ _ => decide (e < 136)
  | .ori e _ _ _ => decide (e < 136)
  | .xori e _ _ _ => decide (e < 136)
  | .cmpi e _ _ => decide (e < 136)
  | .shli e _ _ _ => decide (e < 136)
  | .shri e _ _ _ => decide (e < 136)
  | .sari e _ _ _ => decide (e < 136)
  | .movi e _ _ _ => decide (e < 136)
  | .movhi e _ _ _ => decide (e < 136)
  | .mov e _ _ _ _ => decide (e < 136)
  | .movh e _ _ _ => decide (e < 136)
  | .movw e _ _ => decide (e < 136)
  | .movx e _ _ => decide (e < 136)
  | .adda e _ _ => decide (e < 136)
  | .suba e _ _ => decide (e < 136)
  | .ash e _ _ _ => decide (e < 136)
  | .aneg e _ _ => decide (e < 136)
  | .mac e _ _ _ _ _ _ _ => decide (e < 136)
  | .msu e _ _ _ _ _ _ _ => decide (e < 136)
  | .mpy e _ _ _ _ _ _ _ => decide (e < 136)
  | .aclr e _ _ _ => decide (e < 136)
  | .fet e _ _ => decide (e < 136)
  | .ldh e _ _ _ _ => decide (e < 136)
  | .ldhu e _ _ _ _ => decide (e < 136)
  | .ldw e _ _ _ _ _ => decide (e < 136)
  | .lda e _ _ _ _ => decide (e < 136)
  | .sth e _ _ _ _ _ _ => decide (e < 136)
  | .stw e _ _ _ _ _ => decide (e < 136)
  | .sta e _ _ _ _ => decide (e < 136)
  | .aadd e _ _ _ => decide (e < 136)
  | .acas e _ _ _ => decide (e < 136)
  | .b e _ _ _ => decide (e < 136)
  | .call e _ _ => decide (e < 136)
  | .jr e _ _ _ => decide (e < 136)
  | .ret e _ => decide (e < 136)
  | .callr e _ _ => decide (e < 136)
  | .loopImmediate e _ _ => decide (e < 136)
  | .loopRegister e _ _ => decide (e < 136)
  | .nop e => decide (e < 136)
  | .fence e => decide (e < 136)
  | .hold e => decide (e < 136)
  | .unhold e => decide (e < 136)
  | .yield e => decide (e < 136)
  | .rte e => decide (e < 136)
  | .trap e _ => decide (e < 136)
  | .take e _ => decide (e < 136)
  | .done e => decide (e < 136)
  | .doneDeliver e _ _ => decide (e < 136)
  | .signal e _ _ => decide (e < 136)
  | .waitevt e _ => decide (e < 136)
  | .cpx e _ _ => decide (e < 136)
  | .mfc e _ _ _ _ => decide (e < 136)
  | .mtc e _ _ _ _ => decide (e < 136)
  | .undefinedInstruction e _ => decide (e < 136)
  | .farLoadReturn k => decide (k < 544)
  | .farStorePerformed k => decide (k < 544)
  | .fenceComplete e c => decide (e < 136) && decide (c < 4)
  | .contextSwitch e => decide (e < 136)
  | .holdTimeout e => decide (e < 136)
  | .contextStart e c => decide (e < 136) && decide (c < 4)
  | .contextStop e c => decide (e < 136) && decide (c < 4)
  | .pcWrite e c _ => decide (e < 136) && decide (c < 4)
  | .loadUnitGo g _ => decide (g < 17)
  | .loadUnitDone g => decide (g < 17)
  | .tmplInstall => true
  | .tmplRead => true
  | .tmplRemove => true
  | .operandPlace k => decide (k < 544)
  | .instanceList entry => decide (entry < 65536)
  | .taskHand => true
  | .doneComplete k => decide (k < 544)
  | .timerFire t => decide (t < 32)
  | .waitevtWake k => decide (k < 544)
  | .waitevtTimeout k => decide (k < 544)
  | .taskFree _ => true
  | .channelPurge n => decide (n < 16384)
  | .deadlockDetect => true
  | .matchingStoreError entry => decide (entry < 65536)
  | .ecaBlock => true
  | .ecaInit => true
  | .ecaSave => true
  | .ecaRestore => true
  | .ecaReset => true
  | .ecaSetcfg => true
  | .ecaCompletionDeliver _ => true
  | .rsfRun => true
  | .rsfInit => true
  | .rsfLoadbank => true
  | .rsfSetdelay => true
  | .rsfSetratio => true
  | .rsfSave => true
  | .rsfRestore => true
  | .rsfCompletionDeliver _ => true
  | .channelEnableWrite n _ => decide (n < 16384)
  | .consistencyCheck => true
  | .channelCloseWrite n _ => decide (n < 16384)
  | .hwlCellWrite _ => true
  | .queuePop p => portalWf p
  | .cellAlloc p => portalWf p
  | .cellFree p _ => portalWf p
  | .queuePush p _ => portalWf p
  | .queueConfigWrite _ => true
  | .noticeDeliver q => decide (q < 65536)
  | .queueDescError q => decide (q < 65536)
  | .pktReceive n => decide (n < 4)
  | .pktTxTake => true
  | .pktDeparture => true
  | .cesPacketBuild p => decide (p < 65536)
  | .bundleDeparture b => decide (b < 65536)
  | .flowWrite => true
  | .flowRead => true
  | .flowInvalidate => true
  | .templateWrite => true
  | .templateRead => true
  | .flowTableError _ j => decide (j < 65536)
  | .macEnable n _ => decide (n < 5)
  | .macDisable n _ => decide (n < 5)
  | .linkUp n => decide (n < 5)
  | .linkDown n _ _ _ => decide (n < 5)
  | .macFrameReceive n _ _ _ _ _ => decide (n < 5)
  | .pfcPauseExpire n p => decide (n < 5) && decide (p < 8)
  | .pfcHoldDiscard n => decide (n < 5)
  | .pfcXoff n => decide (n < 5)
  | .pfcRepeat n => decide (n < 5)
  | .pfcXon n => decide (n < 5)
  | .macFrameTransmit n _ => decide (n < 5)
  | .preemptVerify n => decide (n < 5)
  | .macCounterRead n c => decide (n < 5) && decide (c < 25)
  | .macUngate n => decide (n < 5)
  | .ciphProtect _ => true
  | .ciphProtectRtcp _ => true
  | .ciphUnprotect _ => true
  | .ciphUnprotectRtcp _ => true
  | .ciphImport => true
  | .ciphErase => true
  | .ciphRetire => true
  | .ciphImpImport => true
  | .ciphImpErase => true
  | .ciphImpRetire => true
  | .ciphRxUnprotect _ => true
  | .kekDerive => true
  | .kekDeriveDone => true
  | .ciphCompletionDeliver _ => true
  | .crucCompress => true
  | .crucDecompress => true
  | .crucInit => true
  | .crucSave => true
  | .crucRestore => true
  | .crucHostGo => true
  | .crucCompletionDeliver _ => true
  | .meterCmdGo => true
  | .callStart => true
  | .callEnd => true
  | .callAdopt => true
  | .param => true
  | .commit => true
  | .discard => true
  | .release => true
  | .flush => true
  | .selftest _ => true
  | .meterStatusRefresh => true
  | .meterLinkSilent => true
  | .meterTick n _ => decide (n < 2 ^ 64)
  | .meterNoref => true
  | .meterPartial n => decide (n < 16384)
  | .meterHandover => true
  | .meterPowerFail => true
  | .meterPowerReturn _ _ _ => true
  | .meterPeriodicSelftest _ => true
  | .meterArm _ => true
  | .meterSeal _ => true
  | .sealRegisterWrite o _ => decide (0xF0000 ≤ o ∧ o < 0x100000) && o % 4 == 0
  | .meterTnsRead => true
  | .nandCmdGo => true
  | .append j _ => decide (j < 32)
  | .read j _ => decide (j < 32)
  | .trim j _ => decide (j < 32)
  | .erasepart j _ => decide (j < 32)
  | .readrec j _ => decide (j < 32)
  | .rawread j _ => decide (j < 32)
  | .patrol j => decide (j < 32)
  | .sync j => decide (j < 32)
  | .setpart j _ => decide (j < 32)
  | .nandMount ts => decide (ts.length ≤ 4)
  | .nandHandover _ => true
  | .nandParamImage _ => true
  | .nandCompact _ => true
  | .nandWlMove p _ => decide (p < 16)
  | .nandRefresh g _ => decide (g < 65536)
  | .nandPatrolRead _ => true
  | .startActive => true
  | .startStandby => true
  | .startStandbyTimeout => true
  | .promote _ => true
  | .demote => true
  | .rejoin => true
  | .mirrSync => true
  | .demoteTimeout => true
  | .mirrDisable _ => true
  | .heartbeatSend => true
  | .peerHbPulse _ => true
  | .peerSlotJudge => true
  | .mirrRxHeartbeat => true
  | .mirrRxAck => true
  | .mirrRxRole => true
  | .mirrRxDesc => true
  | .mirrRxDescres => true
  | .mirrRxCall => true
  | .mirrRxSyncend => true
  | .mirrRxState => true
  | .mirrRxEcrec => true
  | .mirrRxHorizon => true
  | .mirrRxFinger => true
  | .mirrRxUser => true
  | .retxTimeout => true
  | .ackSend => true
  | .stateSnapshot ns => decide (ns.length ≤ 3) && (ns.all fun n => decide (n < 16384))
  | .mirrEcrecSend r => decide (r < 65536)
  | .fingerSend => true
  | .sleepWake => true
  | .sleepResync => true
  | .bar2Read o n => decide (o + n ≤ 0x10000000)
  | .bar2Write o bs => decide (o + bs.length ≤ 0x10000000)
  | .bar0PartialWrite => true
  | .ringDoorbell r _ => decide (r < 16)
  | .ringH2dMsg r d _ _ _ => decide (r < 16) && decide (d.length = 32)
  | .ringH2dWrite r d _ _ _ => decide (r < 16) && decide (d.length = 32)
  | .ringH2dRead r d _ _ => decide (r < 16) && decide (d.length = 32)
  | .ringD2hMsg r d _ _ => decide (r < 16) && decide (d.length = 32)
  | .signalDoorbell k _ => decide (k < 64)
  | .msixSend v => decide (v < 64)
  | .pcieHotReset => true
  | .pcieLinkDown => true
  | .pcieFlr => true
  | .pcieLinkChange speed width c => decide (speed < 8) && decide (width < 8) && c.read.all pcieReadWf
  | .usbAttach _ => true
  | .usbBusReset _ => true
  | .usbStandardRequest type req value len => decide (type < 256) && decide (req < 256) && decide (value < 65536)
      && decide (len < 65536) && ! vendorRow type req
  | .getInfo len => decide (len < 65536)
  | .imgBegin target n len => decide (target < 65536) && decide (n < 65536) && decide (len < 2 ^ 32)
  | .imgEnd w => decide (w.len < 65536)
  | .getStatus len => decide (len < 65536)
  | .regWrite n _ _ => decide (n < 65536)
  | .regWriteCommit => true
  | .regRead index len => decide (index < 65536) && decide (len < 65536)
  | .regAddr n _ => decide (n < 65536)
  | .usbConsoleOut _ => true
  | .usbConsoleIn => true
  | .usbImageData _ => true
  | .usbAlmgo => true
  | .usbAlarmIn => true
  | .usbSuspend => true
  | .usbResume => true
  | .usbRemoteWake _ => true
  | .bootSelect _ => true
  | .bootGo => true
  | .quickAssay engs banks => (engs.all fun x => decide (x.1 < 136)) && (banks.all fun x => decide (x.1 < 16 ∧ x.2 < 5))
  | .fullAssay engs banks => (engs.all fun x => decide (x.1 < 136)) && (banks.all fun x => decide (x.1 < 16 ∧ x.2 < 5))
  | .runSet => true
  | .runCheck => true
  | .runClear => true
  | .otpProgram _ => true
  | .otpRevoke _ => true
  | .otpRaiseMin => true
  | .cfgkeyApply _ => true
  | .cfgRecomputeDone => true
  | .cfgdigRead => true
  | .reflectorEnter => true
  | .reflectorLinkTry => true
  | .reflectorDhcp _ => true
  | .twampReflect => true
  | .reflectorChannelOpen => true
  | .reflectorChannelClose c => decide (c < 1000)
  | .reflectorRtcp c => decide (c < 1000)
  | .reflectorStatusLine => true
  | .engineTest fail => decide (fail < 5)
  | .groveSliceTest g slice => decide (g < 16) && decide (slice < 128)
  | .bankMigrate at_ _ => at_.all fun x => decide (x.group < 16 ∧ x.bank < 5)
  | .assayUnlock _ => true
  | .assayUnlockExpire => true
  | .hvsFeedSample a b => decide (a < 4096) && decide (b < 4096)
  | .hvsIslandFrame => true
  | .hvsLinkLost => true
  | .hvsLinkRestored => true
  | .hvsLossCrit => true
  | .hvsAlmoutWrite _ => true
  | .outputLimitShutdown n => decide (n < 3)
  | .outputThermalShutdown n => decide (n < 3)
  | .outputRetry n => decide (n < 3)
  | .outputRecovered n => decide (n < 3)
  | .alarmInputChange k _ _ => decide (k < 2)
  | .islandPower _ => true
  | .c10OkChange _ _ => true
  | .pcsBlockLock n => decide (n < 5)
  | .meterArmExpire => true
  | .mirrUserSend => true
  | .pcieEndpointEnable => true
  | .outputCurrentLimit n _ => decide (n < 3)
  | .thermalLimitCleared n => decide (n < 3)

end Sys2Proof
end

