-- ==== Sys2Proof/Laws/PerInstr.lean ====
section
/-! SUPPORT. A fact about every command: the engine it names.  The device has 128 voice
engines and eight supervisors, numbered 0 to 135 here; a well-formed command names one of them. -/

namespace Sys2Proof.Laws

/-- The engine a command names, if it names one. -/
def engineOf (i : Instr) : Option Nat :=
  match i with
  | .registerWrite _ _ _ => none
  | .rcRegisterRead _ => none
  | .counterLoRead _ => none
  | .deviceReset _ => none
  | .resetRelease _ _ => none
  | .tick => none
  | .timeFreqWrite _ => none
  | .timePhaseAdjWrite _ => none
  | .phaseClr => none
  | .step => none
  | .modeCmdFreerun => none
  | .modeCmdLocking => none
  | .modeCmdLocked => none
  | .modeCmdHoldover => none
  | .watchdogExpiry => none
  | .phaseSlewEnd => none
  | .nfnAlignmentChange => none
  | .fsrcWrite _ => none
  | .clk10Fallback => none
  | .clk10Restore => none
  | .timeNfnLoRead => none
  | .tsInCapture _ _ _ => none
  | .ppsRise => none
  | .ppsFall => none
  | .add e _ _ _ => some e
  | .adds e _ _ _ => some e
  | .sub e _ _ _ => some e
  | .subs e _ _ _ => some e
  | .cmp e _ _ => some e
  | .and e _ _ _ => some e
  | .or e _ _ _ => some e
  | .xor e _ _ _ => some e
  | .andn e _ _ _ => some e
  | .tst e _ _ => some e
  | .shl e _ _ _ => some e
  | .shr e _ _ _ => some e
  | .sar e _ _ _ => some e
  | .min e _ _ _ => some e
  | .max e _ _ _ => some e
  | .neg e _ _ => some e
  | .abs e _ _ => some e
  | .clz e _ _ => some e
  | .mul e _ _ _ => some e
  | .sexh e _ _ => some e
  | .addi e _ _ _ => some e
  | .andi e _ _ _ => some e
  | .ori e _ _ _ => some e
  | .xori e _ _ _ => some e
  | .cmpi e _ _ => some e
  | .shli e _ _ _ => some e
  | .shri e _ _ _ => some e
  | .sari e _ _ _ => some e
  | .movi e _ _ _ => some e
  | .movhi e _ _ _ => some e
  | .mov e _ _ _ _ => some e
  | .movh e _ _ _ => some e
  | .movw e _ _ => some e
  | .movx e _ _ => some e
  | .adda e _ _ => some e
  | .suba e _ _ => some e
  | .ash e _ _ _ => some e
  | .aneg e _ _ => some e
  | .mac e _ _ _ _ _ _ _ => some e
  | .msu e _ _ _ _ _ _ _ => some e
  | .mpy e _ _ _ _ _ _ _ => some e
  | .aclr e _ _ _ => some e
  | .fet e _ _ => some e
  | .ldh e _ _ _ _ => some e
  | .ldhu e _ _ _ _ => some e
  | .ldw e _ _ _ _ _ => some e
  | .lda e _ _ _ _ => some e
  | .sth e _ _ _ _ _ _ => some e
  | .stw e _ _ _ _ _ => some e
  | .sta e _ _ _ _ => some e
  | .aadd e _ _ _ => some e
  | .acas e _ _ _ => some e
  | .b e _ _ _ => some e
  | .call e _ _ => some e
  | .jr e _ _ _ => some e
  | .ret e _ => some e
  | .callr e _ _ => some e
  | .loopImmediate e _ _ => some e
  | .loopRegister e _ _ => some e
  | .nop e => some e
  | .fence e => some e
  | .hold e => some e
  | .unhold e => some e
  | .yield e => some e
  | .rte e => some e
  | .trap e _ => some e
  | .take e _ => some e
  | .done e => some e
  | .doneDeliver e _ _ => some e
  | .signal e _ _ => some e
  | .waitevt e _ => some e
  | .cpx e _ _ => some e
  | .mfc e _ _ _ _ => some e
  | .mtc e _ _ _ _ => some e
  | .undefinedInstruction e _ => some e
  | .farLoadReturn _ => none
  | .farStorePerformed _ => none
  | .fenceComplete e _ => some e
  | .contextSwitch e => some e
  | .holdTimeout e => some e
  | .contextStart e _ => some e
  | .contextStop e _ => some e
  | .pcWrite e _ _ => some e
  | .loadUnitGo _ _ => none
  | .loadUnitDone _ => none
  | .tmplInstall => none
  | .tmplRead => none
  | .tmplRemove => none
  | .operandPlace _ => none
  | .instanceList _ => none
  | .taskHand => none
  | .doneComplete _ => none
  | .timerFire _ => none
  | .waitevtWake _ => none
  | .waitevtTimeout _ => none
  | .taskFree _ => none
  | .channelPurge _ => none
  | .deadlockDetect => none
  | .matchingStoreError _ => none
  | .ecaBlock => none
  | .ecaInit => none
  | .ecaSave => none
  | .ecaRestore => none
  | .ecaReset => none
  | .ecaSetcfg => none
  | .ecaCompletionDeliver _ => none
  | .rsfRun => none
  | .rsfInit => none
  | .rsfLoadbank => none
  | .rsfSetdelay => none
  | .rsfSetratio => none
  | .rsfSave => none
  | .rsfRestore => none
  | .rsfCompletionDeliver _ => none
  | .channelEnableWrite _ _ => none
  | .consistencyCheck => none
  | .channelCloseWrite _ _ => none
  | .hwlCellWrite _ => none
  | .queuePop _ => none
  | .cellAlloc _ => none
  | .cellFree _ _ => none
  | .queuePush _ _ => none
  | .queueConfigWrite _ => none
  | .noticeDeliver _ => none
  | .queueDescError _ => none
  | .pktReceive _ => none
  | .pktTxTake => none
  | .pktDeparture => none
  | .cesPacketBuild _ => none
  | .bundleDeparture _ => none
  | .flowWrite => none
  | .flowRead => none
  | .flowInvalidate => none
  | .templateWrite => none
  | .templateRead => none
  | .flowTableError _ _ => none
  | .macEnable _ _ => none
  | .macDisable _ _ => none
  | .linkUp _ => none
  | .linkDown _ _ _ _ => none
  | .macFrameReceive _ _ _ _ _ _ => none
  | .pfcPauseExpire _ _ => none
  | .pfcHoldDiscard _ => none
  | .pfcXoff _ => none
  | .pfcRepeat _ => none
  | .pfcXon _ => none
  | .macFrameTransmit _ _ => none
  | .preemptVerify _ => none
  | .macCounterRead _ _ => none
  | .macUngate _ => none
  | .ciphProtect _ => none
  | .ciphProtectRtcp _ => none
  | .ciphUnprotect _ => none
  | .ciphUnprotectRtcp _ => none
  | .ciphImport => none
  | .ciphErase => none
  | .ciphRetire => none
  | .ciphImpImport => none
  | .ciphImpErase => none
  | .ciphImpRetire => none
  | .ciphRxUnprotect _ => none
  | .kekDerive => none
  | .kekDeriveDone => none
  | .ciphCompletionDeliver _ => none
  | .crucCompress => none
  | .crucDecompress => none
  | .crucInit => none
  | .crucSave => none
  | .crucRestore => none
  | .crucHostGo => none
  | .crucCompletionDeliver _ => none
  | .meterCmdGo => none
  | .callStart => none
  | .callEnd => none
  | .callAdopt => none
  | .param => none
  | .commit => none
  | .discard => none
  | .release => none
  | .flush => none
  | .selftest _ => none
  | .meterStatusRefresh => none
  | .meterLinkSilent => none
  | .meterTick _ _ => none
  | .meterNoref => none
  | .meterPartial _ => none
  | .meterHandover => none
  | .meterPowerFail => none
  | .meterPowerReturn _ _ _ => none
  | .meterPeriodicSelftest _ => none
  | .meterArm _ => none
  | .meterSeal _ => none
  | .sealRegisterWrite _ _ => none
  | .meterTnsRead => none
  | .nandCmdGo => none
  | .append _ _ => none
  | .read _ _ => none
  | .trim _ _ => none
  | .erasepart _ _ => none
  | .readrec _ _ => none
  | .rawread _ _ => none
  | .patrol _ => none
  | .sync _ => none
  | .setpart _ _ => none
  | .nandMount _ => none
  | .nandHandover _ => none
  | .nandParamImage _ => none
  | .nandCompact _ => none
  | .nandWlMove _ _ => none
  | .nandRefresh _ _ => none
  | .nandPatrolRead _ => none
  | .startActive => none
  | .startStandby => none
  | .startStandbyTimeout => none
  | .promote _ => none
  | .demote => none
  | .rejoin => none
  | .mirrSync => none
  | .demoteTimeout => none
  | .mirrDisable _ => none
  | .heartbeatSend => none
  | .peerHbPulse _ => none
  | .peerSlotJudge => none
  | .mirrRxHeartbeat => none
  | .mirrRxAck => none
  | .mirrRxRole => none
  | .mirrRxDesc => none
  | .mirrRxDescres => none
  | .mirrRxCall => none
  | .mirrRxSyncend => none
  | .mirrRxState => none
  | .mirrRxEcrec => none
  | .mirrRxHorizon => none
  | .mirrRxFinger => none
  | .mirrRxUser => none
  | .retxTimeout => none
  | .ackSend => none
  | .stateSnapshot _ => none
  | .mirrEcrecSend _ => none
  | .fingerSend => none
  | .sleepWake => none
  | .sleepResync => none
  | .bar2Read _ _ => none
  | .bar2Write _ _ => none
  | .bar0PartialWrite => none
  | .ringDoorbell _ _ => none
  | .ringH2dMsg _ _ _ _ _ => none
  | .ringH2dWrite _ _ _ _ _ => none
  | .ringH2dRead _ _ _ _ => none
  | .ringD2hMsg _ _ _ _ => none
  | .signalDoorbell _ _ => none
  | .msixSend _ => none
  | .pcieHotReset => none
  | .pcieLinkDown => none
  | .pcieFlr => none
  | .pcieLinkChange _ _ _ => none
  | .usbAttach _ => none
  | .usbBusReset _ => none
  | .usbStandardRequest _ _ _ _ => none
  | .getInfo _ => none
  | .imgBegin _ _ _ => none
  | .imgEnd _ => none
  | .getStatus _ => none
  | .regWrite _ _ _ => none
  | .regWriteCommit => none
  | .regRead _ _ => none
  | .regAddr _ _ => none
  | .usbConsoleOut _ => none
  | .usbConsoleIn => none
  | .usbImageData _ => none
  | .usbAlmgo => none
  | .usbAlarmIn => none
  | .usbSuspend => none
  | .usbResume => none
  | .usbRemoteWake _ => none
  | .bootSelect _ => none
  | .bootGo => none
  | .quickAssay _ _ => none
  | .fullAssay _ _ => none
  | .runSet => none
  | .runCheck => none
  | .runClear => none
  | .otpProgram _ => none
  | .otpRevoke _ => none
  | .otpRaiseMin => none
  | .cfgkeyApply _ => none
  | .cfgRecomputeDone => none
  | .cfgdigRead => none
  | .reflectorEnter => none
  | .reflectorLinkTry => none
  | .reflectorDhcp _ => none
  | .twampReflect => none
  | .reflectorChannelOpen => none
  | .reflectorChannelClose _ => none
  | .reflectorRtcp _ => none
  | .reflectorStatusLine => none
  | .engineTest _ => none
  | .groveSliceTest _ _ => none
  | .bankMigrate _ _ => none
  | .assayUnlock _ => none
  | .assayUnlockExpire => none
  | .hvsFeedSample _ _ => none
  | .hvsIslandFrame => none
  | .hvsLinkLost => none
  | .hvsLinkRestored => none
  | .hvsLossCrit => none
  | .hvsAlmoutWrite _ => none
  | .outputLimitShutdown _ => none
  | .outputThermalShutdown _ => none
  | .outputRetry _ => none
  | .outputRecovered _ => none
  | .alarmInputChange _ _ _ => none
  | .islandPower _ => none
  | .c10OkChange _ _ => none
  | .pcsBlockLock _ => none
  | .meterArmExpire => none
  | .mirrUserSend => none
  | .pcieEndpointEnable => none
  | .outputCurrentLimit _ _ => none
  | .thermalLimitCleared _ => none

/-- A well-formed command that names an engine names one of the 136. -/
def Wf.Statement (i : Instr) : Prop :=
  ∀ e, engineOf i = some e → wellFormed i = true → e < 136

theorem noEngine {i : Instr} (h : engineOf i = none) : Wf.Statement i :=
  fun _ g => absurd (h.symm.trans g) (Option.some_ne_none _).symm

theorem oneEngine {i : Instr} {e : Nat} (h : engineOf i = some e) (w : wellFormed i = true → e < 136) : Wf.Statement i :=
  fun _ g v => Option.some.inj (h.symm.trans g) ▸ w v

theorem firstCheck {a : Nat} {q : Bool} (h : (decide (a < 136) && q) = true) : a < 136 :=
  of_decide_eq_true (Bool.and_eq_true_iff.mp h).1

theorem Wf.registerWrite (host : Bool) (o : Nat) (v : Word) : Wf.Statement (.registerWrite host o v) := noEngine rfl
theorem Wf.rcRegisterRead (a : RegRead) : Wf.Statement (.rcRegisterRead a) := noEngine rfl
theorem Wf.counterLoRead (a : RegRead) : Wf.Statement (.counterLoRead a) := noEngine rfl
theorem Wf.deviceReset (ns : Nat) : Wf.Statement (.deviceReset ns) := noEngine rfl
theorem Wf.resetRelease (mode : BitVec 2) (pairId : Bool) : Wf.Statement (.resetRelease mode pairId) := noEngine rfl
theorem Wf.tick : Wf.Statement (.tick) := noEngine rfl
theorem Wf.timeFreqWrite (v : Word) : Wf.Statement (.timeFreqWrite v) := noEngine rfl
theorem Wf.timePhaseAdjWrite (v : Word) : Wf.Statement (.timePhaseAdjWrite v) := noEngine rfl
theorem Wf.phaseClr : Wf.Statement (.phaseClr) := noEngine rfl
theorem Wf.step : Wf.Statement (.step) := noEngine rfl
theorem Wf.modeCmdFreerun : Wf.Statement (.modeCmdFreerun) := noEngine rfl
theorem Wf.modeCmdLocking : Wf.Statement (.modeCmdLocking) := noEngine rfl
theorem Wf.modeCmdLocked : Wf.Statement (.modeCmdLocked) := noEngine rfl
theorem Wf.modeCmdHoldover : Wf.Statement (.modeCmdHoldover) := noEngine rfl
theorem Wf.watchdogExpiry : Wf.Statement (.watchdogExpiry) := noEngine rfl
theorem Wf.phaseSlewEnd : Wf.Statement (.phaseSlewEnd) := noEngine rfl
theorem Wf.nfnAlignmentChange : Wf.Statement (.nfnAlignmentChange) := noEngine rfl
theorem Wf.fsrcWrite (v : Word) : Wf.Statement (.fsrcWrite v) := noEngine rfl
theorem Wf.clk10Fallback : Wf.Statement (.clk10Fallback) := noEngine rfl
theorem Wf.clk10Restore : Wf.Statement (.clk10Restore) := noEngine rfl
theorem Wf.timeNfnLoRead : Wf.Statement (.timeNfnLoRead) := noEngine rfl
theorem Wf.tsInCapture (pin : Nat) (rising : Bool) (width : Nat) : Wf.Statement (.tsInCapture pin rising width) := noEngine rfl
theorem Wf.ppsRise : Wf.Statement (.ppsRise) := noEngine rfl
theorem Wf.ppsFall : Wf.Statement (.ppsFall) := noEngine rfl
theorem Wf.add (e : Nat) (rd : BitVec 4) (rs : BitVec 4) (rt : BitVec 4) : Wf.Statement (.add e rd rs rt) := oneEngine rfl of_decide_eq_true
theorem Wf.adds (e : Nat) (rd : BitVec 4) (rs : BitVec 4) (rt : BitVec 4) : Wf.Statement (.adds e rd rs rt) := oneEngine rfl of_decide_eq_true
theorem Wf.sub (e : Nat) (rd : BitVec 4) (rs : BitVec 4) (rt : BitVec 4) : Wf.Statement (.sub e rd rs rt) := oneEngine rfl of_decide_eq_true
theorem Wf.subs (e : Nat) (rd : BitVec 4) (rs : BitVec 4) (rt : BitVec 4) : Wf.Statement (.subs e rd rs rt) := oneEngine rfl of_decide_eq_true
theorem Wf.cmp (e : Nat) (rs : BitVec 4) (rt : BitVec 4) : Wf.Statement (.cmp e rs rt) := oneEngine rfl of_decide_eq_true
theorem Wf.and (e : Nat) (rd : BitVec 4) (rs : BitVec 4) (rt : BitVec 4) : Wf.Statement (.and e rd rs rt) := oneEngine rfl of_decide_eq_true
theorem Wf.or (e : Nat) (rd : BitVec 4) (rs : BitVec 4) (rt : BitVec 4) : Wf.Statement (.or e rd rs rt) := oneEngine rfl of_decide_eq_true
theorem Wf.xor (e : Nat) (rd : BitVec 4) (rs : BitVec 4) (rt : BitVec 4) : Wf.Statement (.xor e rd rs rt) := oneEngine rfl of_decide_eq_true
theorem Wf.andn (e : Nat) (rd : BitVec 4) (rs : BitVec 4) (rt : BitVec 4) : Wf.Statement (.andn e rd rs rt) := oneEngine rfl of_decide_eq_true
theorem Wf.tst (e : Nat) (rs : BitVec 4) (rt : BitVec 4) : Wf.Statement (.tst e rs rt) := oneEngine rfl of_decide_eq_true
theorem Wf.shl (e : Nat) (rd : BitVec 4) (rs : BitVec 4) (rt : BitVec 4) : Wf.Statement (.shl e rd rs rt) := oneEngine rfl of_decide_eq_true
theorem Wf.shr (e : Nat) (rd : BitVec 4) (rs : BitVec 4) (rt : BitVec 4) : Wf.Statement (.shr e rd rs rt) := oneEngine rfl of_decide_eq_true
theorem Wf.sar (e : Nat) (rd : BitVec 4) (rs : BitVec 4) (rt : BitVec 4) : Wf.Statement (.sar e rd rs rt) := oneEngine rfl of_decide_eq_true
theorem Wf.min (e : Nat) (rd : BitVec 4) (rs : BitVec 4) (rt : BitVec 4) : Wf.Statement (.min e rd rs rt) := oneEngine rfl of_decide_eq_true
theorem Wf.max (e : Nat) (rd : BitVec 4) (rs : BitVec 4) (rt : BitVec 4) : Wf.Statement (.max e rd rs rt) := oneEngine rfl of_decide_eq_true
theorem Wf.neg (e : Nat) (rd : BitVec 4) (rs : BitVec 4) : Wf.Statement (.neg e rd rs) := oneEngine rfl of_decide_eq_true
theorem Wf.abs (e : Nat) (rd : BitVec 4) (rs : BitVec 4) : Wf.Statement (.abs e rd rs) := oneEngine rfl of_decide_eq_true
theorem Wf.clz (e : Nat) (rd : BitVec 4) (rs : BitVec 4) : Wf.Statement (.clz e rd rs) := oneEngine rfl of_decide_eq_true
theorem Wf.mul (e : Nat) (rd : BitVec 4) (rs : BitVec 4) (rt : BitVec 4) : Wf.Statement (.mul e rd rs rt) := oneEngine rfl of_decide_eq_true
theorem Wf.sexh (e : Nat) (rd : BitVec 4) (rs : BitVec 4) : Wf.Statement (.sexh e rd rs) := oneEngine rfl of_decide_eq_true
theorem Wf.addi (e : Nat) (rd : BitVec 4) (rs : BitVec 4) (imm : BitVec 16) : Wf.Statement (.addi e rd rs imm) := oneEngine rfl of_decide_eq_true
theorem Wf.andi (e : Nat) (rd : BitVec 4) (rs : BitVec 4) (imm : BitVec 16) : Wf.Statement (.andi e rd rs imm) := oneEngine rfl of_decide_eq_true
theorem Wf.ori (e : Nat) (rd : BitVec 4) (rs : BitVec 4) (imm : BitVec 16) : Wf.Statement (.ori e rd rs imm) := oneEngine rfl of_decide_eq_true
theorem Wf.xori (e : Nat) (rd : BitVec 4) (rs : BitVec 4) (imm : BitVec 16) : Wf.Statement (.xori e rd rs imm) := oneEngine rfl of_decide_eq_true
theorem Wf.cmpi (e : Nat) (rs : BitVec 4) (imm : BitVec 16) : Wf.Statement (.cmpi e rs imm) := oneEngine rfl of_decide_eq_true
theorem Wf.shli (e : Nat) (rd : BitVec 4) (rs : BitVec 4) (sh : BitVec 5) : Wf.Statement (.shli e rd rs sh) := oneEngine rfl of_decide_eq_true
theorem Wf.shri (e : Nat) (rd : BitVec 4) (rs : BitVec 4) (sh : BitVec 5) : Wf.Statement (.shri e rd rs sh) := oneEngine rfl of_decide_eq_true
theorem Wf.sari (e : Nat) (rd : BitVec 4) (rs : BitVec 4) (sh : BitVec 5) : Wf.Statement (.sari e rd rs sh) := oneEngine rfl of_decide_eq_true
theorem Wf.movi (e : Nat) (rd : BitVec 4) (cl : BitVec 3) (imm : BitVec 16) : Wf.Statement (.movi e rd cl imm) := oneEngine rfl of_decide_eq_true
theorem Wf.movhi (e : Nat) (rd : BitVec 4) (cl : BitVec 3) (imm : BitVec 16) : Wf.Statement (.movhi e rd cl imm) := oneEngine rfl of_decide_eq_true
theorem Wf.mov (e : Nat) (rd : BitVec 4) (dcl : BitVec 3) (rs : BitVec 4) (scl : BitVec 3) : Wf.Statement (.mov e rd dcl rs scl) := oneEngine rfl of_decide_eq_true
theorem Wf.movh (e : Nat) (rd : BitVec 4) (as_ : BitVec 2) (rnd : Bool) : Wf.Statement (.movh e rd as_ rnd) := oneEngine rfl of_decide_eq_true
theorem Wf.movw (e : Nat) (rd : BitVec 4) (as_ : BitVec 2) : Wf.Statement (.movw e rd as_) := oneEngine rfl of_decide_eq_true
theorem Wf.movx (e : Nat) (rd : BitVec 4) (as_ : BitVec 2) : Wf.Statement (.movx e rd as_) := oneEngine rfl of_decide_eq_true
theorem Wf.adda (e : Nat) (ad : BitVec 2) (as_ : BitVec 2) : Wf.Statement (.adda e ad as_) := oneEngine rfl of_decide_eq_true
theorem Wf.suba (e : Nat) (ad : BitVec 2) (as_ : BitVec 2) : Wf.Statement (.suba e ad as_) := oneEngine rfl of_decide_eq_true
theorem Wf.ash (e : Nat) (ad : BitVec 2) (as_ : BitVec 2) (sh : BitVec 6) : Wf.Statement (.ash e ad as_ sh) := oneEngine rfl of_decide_eq_true
theorem Wf.aneg (e : Nat) (ad : BitVec 2) (as_ : BitVec 2) : Wf.Statement (.aneg e ad as_) := oneEngine rfl of_decide_eq_true
theorem Wf.mac (e : Nat) (ad : BitVec 2) (gs : BitVec 4) (gt : BitVec 4) (hs : Bool) (ht : Bool) (x : Option Fetch) (y : Option Fetch) : Wf.Statement (.mac e ad gs gt hs ht x y) := oneEngine rfl of_decide_eq_true
theorem Wf.msu (e : Nat) (ad : BitVec 2) (gs : BitVec 4) (gt : BitVec 4) (hs : Bool) (ht : Bool) (x : Option Fetch) (y : Option Fetch) : Wf.Statement (.msu e ad gs gt hs ht x y) := oneEngine rfl of_decide_eq_true
theorem Wf.mpy (e : Nat) (ad : BitVec 2) (gs : BitVec 4) (gt : BitVec 4) (hs : Bool) (ht : Bool) (x : Option Fetch) (y : Option Fetch) : Wf.Statement (.mpy e ad gs gt hs ht x y) := oneEngine rfl of_decide_eq_true
theorem Wf.aclr (e : Nat) (ad : BitVec 2) (x : Option Fetch) (y : Option Fetch) : Wf.Statement (.aclr e ad x y) := oneEngine rfl of_decide_eq_true
theorem Wf.fet (e : Nat) (x : Option Fetch) (y : Option Fetch) : Wf.Statement (.fet e x y) := oneEngine rfl of_decide_eq_true
theorem Wf.ldh (e : Nat) (rd : BitVec 4) (pn : BitVec 3) (md : Bool) (ofs : BitVec 14) : Wf.Statement (.ldh e rd pn md ofs) := oneEngine rfl of_decide_eq_true
theorem Wf.ldhu (e : Nat) (rd : BitVec 4) (pn : BitVec 3) (md : Bool) (ofs : BitVec 14) : Wf.Statement (.ldhu e rd pn md ofs) := oneEngine rfl of_decide_eq_true
theorem Wf.ldw (e : Nat) (rd : BitVec 4) (cl : BitVec 2) (pn : BitVec 3) (md : Bool) (ofs : BitVec 14) : Wf.Statement (.ldw e rd cl pn md ofs) := oneEngine rfl of_decide_eq_true
theorem Wf.lda (e : Nat) (rd : BitVec 4) (pn : BitVec 3) (md : Bool) (ofs : BitVec 14) : Wf.Statement (.lda e rd pn md ofs) := oneEngine rfl of_decide_eq_true
theorem Wf.sth (e : Nat) (rs : BitVec 4) (cl : BitVec 2) (rnd : Bool) (pn : BitVec 3) (md : Bool) (ofs : BitVec 14) : Wf.Statement (.sth e rs cl rnd pn md ofs) := oneEngine rfl of_decide_eq_true
theorem Wf.stw (e : Nat) (rs : BitVec 4) (cl : BitVec 2) (pn : BitVec 3) (md : Bool) (ofs : BitVec 14) : Wf.Statement (.stw e rs cl pn md ofs) := oneEngine rfl of_decide_eq_true
theorem Wf.sta (e : Nat) (rs : BitVec 4) (pn : BitVec 3) (md : Bool) (ofs : BitVec 14) : Wf.Statement (.sta e rs pn md ofs) := oneEngine rfl of_decide_eq_true
theorem Wf.aadd (e : Nat) (rd : BitVec 4) (rs : BitVec 4) (pn : BitVec 3) : Wf.Statement (.aadd e rd rs pn) := oneEngine rfl of_decide_eq_true
theorem Wf.acas (e : Nat) (rd : BitVec 4) (rs : BitVec 4) (pn : BitVec 3) : Wf.Statement (.acas e rd rs pn) := oneEngine rfl of_decide_eq_true
theorem Wf.b (e : Nat) (cond : BitVec 4) (an : Bool) (ofs : BitVec 20) : Wf.Statement (.b e cond an ofs) := oneEngine rfl of_decide_eq_true
theorem Wf.call (e : Nat) (an : Bool) (ofs : BitVec 20) : Wf.Statement (.call e an ofs) := oneEngine rfl of_decide_eq_true
theorem Wf.jr (e : Nat) (cond : BitVec 4) (an : Bool) (rs : BitVec 4) : Wf.Statement (.jr e cond an rs) := oneEngine rfl of_decide_eq_true
theorem Wf.ret (e : Nat) (an : Bool) : Wf.Statement (.ret e an) := oneEngine rfl of_decide_eq_true
theorem Wf.callr (e : Nat) (an : Bool) (rs : BitVec 4) : Wf.Statement (.callr e an rs) := oneEngine rfl of_decide_eq_true
theorem Wf.loopImmediate (e : Nat) (count : BitVec 16) (body : BitVec 9) : Wf.Statement (.loopImmediate e count body) := oneEngine rfl of_decide_eq_true
theorem Wf.loopRegister (e : Nat) (rs : BitVec 4) (body : BitVec 15) : Wf.Statement (.loopRegister e rs body) := oneEngine rfl of_decide_eq_true
theorem Wf.nop (e : Nat) : Wf.Statement (.nop e) := oneEngine rfl of_decide_eq_true
theorem Wf.fence (e : Nat) : Wf.Statement (.fence e) := oneEngine rfl of_decide_eq_true
theorem Wf.hold (e : Nat) : Wf.Statement (.hold e) := oneEngine rfl of_decide_eq_true
theorem Wf.unhold (e : Nat) : Wf.Statement (.unhold e) := oneEngine rfl of_decide_eq_true
theorem Wf.yield (e : Nat) : Wf.Statement (.yield e) := oneEngine rfl of_decide_eq_true
theorem Wf.rte (e : Nat) : Wf.Statement (.rte e) := oneEngine rfl of_decide_eq_true
theorem Wf.trap (e : Nat) (n : BitVec 16) : Wf.Statement (.trap e n) := oneEngine rfl of_decide_eq_true
theorem Wf.take (e : Nat) (mask : BitVec 8) : Wf.Statement (.take e mask) := oneEngine rfl of_decide_eq_true
theorem Wf.done (e : Nat) : Wf.Statement (.done e) := oneEngine rfl of_decide_eq_true
theorem Wf.doneDeliver (e : Nat) (gt : BitVec 4) (gv : BitVec 4) : Wf.Statement (.doneDeliver e gt gv) := oneEngine rfl of_decide_eq_true
theorem Wf.signal (e : Nat) (gt : BitVec 4) (gv : BitVec 4) : Wf.Statement (.signal e gt gv) := oneEngine rfl of_decide_eq_true
theorem Wf.waitevt (e : Nat) (tmo : BitVec 12) : Wf.Statement (.waitevt e tmo) := oneEngine rfl of_decide_eq_true
theorem Wf.cpx (e : Nat) (unit : BitVec 2) (ga : BitVec 2) : Wf.Statement (.cpx e unit ga) := oneEngine rfl of_decide_eq_true
theorem Wf.mfc (e : Nat) (rg : BitVec 4) (cl : BitVec 3) (rn : BitVec 4) (cx : BitVec 2) : Wf.Statement (.mfc e rg cl rn cx) := oneEngine rfl of_decide_eq_true
theorem Wf.mtc (e : Nat) (rg : BitVec 4) (cl : BitVec 3) (rn : BitVec 4) (cx : BitVec 2) : Wf.Statement (.mtc e rg cl rn cx) := oneEngine rfl of_decide_eq_true
theorem Wf.undefinedInstruction (e : Nat) (w : Word) : Wf.Statement (.undefinedInstruction e w) := oneEngine rfl of_decide_eq_true
theorem Wf.farLoadReturn (k : Nat) : Wf.Statement (.farLoadReturn k) := noEngine rfl
theorem Wf.farStorePerformed (k : Nat) : Wf.Statement (.farStorePerformed k) := noEngine rfl
theorem Wf.fenceComplete (e : Nat) (c : Nat) : Wf.Statement (.fenceComplete e c) := oneEngine rfl firstCheck
theorem Wf.contextSwitch (e : Nat) : Wf.Statement (.contextSwitch e) := oneEngine rfl of_decide_eq_true
theorem Wf.holdTimeout (e : Nat) : Wf.Statement (.holdTimeout e) := oneEngine rfl of_decide_eq_true
theorem Wf.contextStart (e : Nat) (c : Nat) : Wf.Statement (.contextStart e c) := oneEngine rfl firstCheck
theorem Wf.contextStop (e : Nat) (c : Nat) : Wf.Statement (.contextStop e c) := oneEngine rfl firstCheck
theorem Wf.pcWrite (e : Nat) (c : Nat) (v : Word) : Wf.Statement (.pcWrite e c v) := oneEngine rfl firstCheck
theorem Wf.loadUnitGo (g : Nat) (v : Word) : Wf.Statement (.loadUnitGo g v) := noEngine rfl
theorem Wf.loadUnitDone (g : Nat) : Wf.Statement (.loadUnitDone g) := noEngine rfl
theorem Wf.tmplInstall : Wf.Statement (.tmplInstall) := noEngine rfl
theorem Wf.tmplRead : Wf.Statement (.tmplRead) := noEngine rfl
theorem Wf.tmplRemove : Wf.Statement (.tmplRemove) := noEngine rfl
theorem Wf.operandPlace (k : Nat) : Wf.Statement (.operandPlace k) := noEngine rfl
theorem Wf.instanceList (entry : Nat) : Wf.Statement (.instanceList entry) := noEngine rfl
theorem Wf.taskHand : Wf.Statement (.taskHand) := noEngine rfl
theorem Wf.doneComplete (k : Nat) : Wf.Statement (.doneComplete k) := noEngine rfl
theorem Wf.timerFire (t : Nat) : Wf.Statement (.timerFire t) := noEngine rfl
theorem Wf.waitevtWake (k : Nat) : Wf.Statement (.waitevtWake k) := noEngine rfl
theorem Wf.waitevtTimeout (k : Nat) : Wf.Statement (.waitevtTimeout k) := noEngine rfl
theorem Wf.taskFree (w : Word) : Wf.Statement (.taskFree w) := noEngine rfl
theorem Wf.channelPurge (n : Nat) : Wf.Statement (.channelPurge n) := noEngine rfl
theorem Wf.deadlockDetect : Wf.Statement (.deadlockDetect) := noEngine rfl
theorem Wf.matchingStoreError (entry : Nat) : Wf.Statement (.matchingStoreError entry) := noEngine rfl
theorem Wf.ecaBlock : Wf.Statement (.ecaBlock) := noEngine rfl
theorem Wf.ecaInit : Wf.Statement (.ecaInit) := noEngine rfl
theorem Wf.ecaSave : Wf.Statement (.ecaSave) := noEngine rfl
theorem Wf.ecaRestore : Wf.Statement (.ecaRestore) := noEngine rfl
theorem Wf.ecaReset : Wf.Statement (.ecaReset) := noEngine rfl
theorem Wf.ecaSetcfg : Wf.Statement (.ecaSetcfg) := noEngine rfl
theorem Wf.ecaCompletionDeliver (i : Nat) : Wf.Statement (.ecaCompletionDeliver i) := noEngine rfl
theorem Wf.rsfRun : Wf.Statement (.rsfRun) := noEngine rfl
theorem Wf.rsfInit : Wf.Statement (.rsfInit) := noEngine rfl
theorem Wf.rsfLoadbank : Wf.Statement (.rsfLoadbank) := noEngine rfl
theorem Wf.rsfSetdelay : Wf.Statement (.rsfSetdelay) := noEngine rfl
theorem Wf.rsfSetratio : Wf.Statement (.rsfSetratio) := noEngine rfl
theorem Wf.rsfSave : Wf.Statement (.rsfSave) := noEngine rfl
theorem Wf.rsfRestore : Wf.Statement (.rsfRestore) := noEngine rfl
theorem Wf.rsfCompletionDeliver (i : Nat) : Wf.Statement (.rsfCompletionDeliver i) := noEngine rfl
theorem Wf.channelEnableWrite (n : Nat) (v : Word) : Wf.Statement (.channelEnableWrite n v) := noEngine rfl
theorem Wf.consistencyCheck : Wf.Statement (.consistencyCheck) := noEngine rfl
theorem Wf.channelCloseWrite (n : Nat) (v : Word) : Wf.Statement (.channelCloseWrite n v) := noEngine rfl
theorem Wf.hwlCellWrite (v : Word) : Wf.Statement (.hwlCellWrite v) := noEngine rfl
theorem Wf.queuePop (p : Option Nat) : Wf.Statement (.queuePop p) := noEngine rfl
theorem Wf.cellAlloc (p : Option Nat) : Wf.Statement (.cellAlloc p) := noEngine rfl
theorem Wf.cellFree (p : Option Nat) (w : Word) : Wf.Statement (.cellFree p w) := noEngine rfl
theorem Wf.queuePush (p : Option Nat) (w : Word) : Wf.Statement (.queuePush p w) := noEngine rfl
theorem Wf.queueConfigWrite (v : Word) : Wf.Statement (.queueConfigWrite v) := noEngine rfl
theorem Wf.noticeDeliver (q : Nat) : Wf.Statement (.noticeDeliver q) := noEngine rfl
theorem Wf.queueDescError (q : Nat) : Wf.Statement (.queueDescError q) := noEngine rfl
theorem Wf.pktReceive (n : Nat) : Wf.Statement (.pktReceive n) := noEngine rfl
theorem Wf.pktTxTake : Wf.Statement (.pktTxTake) := noEngine rfl
theorem Wf.pktDeparture : Wf.Statement (.pktDeparture) := noEngine rfl
theorem Wf.cesPacketBuild (p : Nat) : Wf.Statement (.cesPacketBuild p) := noEngine rfl
theorem Wf.bundleDeparture (b : Nat) : Wf.Statement (.bundleDeparture b) := noEngine rfl
theorem Wf.flowWrite : Wf.Statement (.flowWrite) := noEngine rfl
theorem Wf.flowRead : Wf.Statement (.flowRead) := noEngine rfl
theorem Wf.flowInvalidate : Wf.Statement (.flowInvalidate) := noEngine rfl
theorem Wf.templateWrite : Wf.Statement (.templateWrite) := noEngine rfl
theorem Wf.templateRead : Wf.Statement (.templateRead) := noEngine rfl
theorem Wf.flowTableError (tmpl : Bool) (i : Nat) : Wf.Statement (.flowTableError tmpl i) := noEngine rfl
theorem Wf.macEnable (n : Nat) (v : Word) : Wf.Statement (.macEnable n v) := noEngine rfl
theorem Wf.macDisable (n : Nat) (v : Word) : Wf.Statement (.macDisable n v) := noEngine rfl
theorem Wf.linkUp (n : Nat) : Wf.Statement (.linkUp n) := noEngine rfl
theorem Wf.linkDown (n : Nat) (lost : Bool) (loc : Bool) (rem : Bool) : Wf.Statement (.linkDown n lost loc rem) := noEngine rfl
theorem Wf.macFrameReceive (n : Nat) (kind : MPacket) (sym : Nat) (corr : Nat) (unc : Nat) (f : List Byte) : Wf.Statement (.macFrameReceive n kind sym corr unc f) := noEngine rfl
theorem Wf.pfcPauseExpire (n : Nat) (p : Nat) : Wf.Statement (.pfcPauseExpire n p) := noEngine rfl
theorem Wf.pfcHoldDiscard (n : Nat) : Wf.Statement (.pfcHoldDiscard n) := noEngine rfl
theorem Wf.pfcXoff (n : Nat) : Wf.Statement (.pfcXoff n) := noEngine rfl
theorem Wf.pfcRepeat (n : Nat) : Wf.Statement (.pfcRepeat n) := noEngine rfl
theorem Wf.pfcXon (n : Nat) : Wf.Statement (.pfcXon n) := noEngine rfl
theorem Wf.macFrameTransmit (n : Nat) (part : Nat) : Wf.Statement (.macFrameTransmit n part) := noEngine rfl
theorem Wf.preemptVerify (n : Nat) : Wf.Statement (.preemptVerify n) := noEngine rfl
theorem Wf.macCounterRead (n : Nat) (c : Nat) : Wf.Statement (.macCounterRead n c) := noEngine rfl
theorem Wf.macUngate (n : Nat) : Wf.Statement (.macUngate n) := noEngine rfl
theorem Wf.ciphProtect (par : Bool) : Wf.Statement (.ciphProtect par) := noEngine rfl
theorem Wf.ciphProtectRtcp (par : Bool) : Wf.Statement (.ciphProtectRtcp par) := noEngine rfl
theorem Wf.ciphUnprotect (par : Bool) : Wf.Statement (.ciphUnprotect par) := noEngine rfl
theorem Wf.ciphUnprotectRtcp (par : Bool) : Wf.Statement (.ciphUnprotectRtcp par) := noEngine rfl
theorem Wf.ciphImport : Wf.Statement (.ciphImport) := noEngine rfl
theorem Wf.ciphErase : Wf.Statement (.ciphErase) := noEngine rfl
theorem Wf.ciphRetire : Wf.Statement (.ciphRetire) := noEngine rfl
theorem Wf.ciphImpImport : Wf.Statement (.ciphImpImport) := noEngine rfl
theorem Wf.ciphImpErase : Wf.Statement (.ciphImpErase) := noEngine rfl
theorem Wf.ciphImpRetire : Wf.Statement (.ciphImpRetire) := noEngine rfl
theorem Wf.ciphRxUnprotect (par : Bool) : Wf.Statement (.ciphRxUnprotect par) := noEngine rfl
theorem Wf.kekDerive : Wf.Statement (.kekDerive) := noEngine rfl
theorem Wf.kekDeriveDone : Wf.Statement (.kekDeriveDone) := noEngine rfl
theorem Wf.ciphCompletionDeliver (i : Nat) : Wf.Statement (.ciphCompletionDeliver i) := noEngine rfl
theorem Wf.crucCompress : Wf.Statement (.crucCompress) := noEngine rfl
theorem Wf.crucDecompress : Wf.Statement (.crucDecompress) := noEngine rfl
theorem Wf.crucInit : Wf.Statement (.crucInit) := noEngine rfl
theorem Wf.crucSave : Wf.Statement (.crucSave) := noEngine rfl
theorem Wf.crucRestore : Wf.Statement (.crucRestore) := noEngine rfl
theorem Wf.crucHostGo : Wf.Statement (.crucHostGo) := noEngine rfl
theorem Wf.crucCompletionDeliver (i : Nat) : Wf.Statement (.crucCompletionDeliver i) := noEngine rfl
theorem Wf.meterCmdGo : Wf.Statement (.meterCmdGo) := noEngine rfl
theorem Wf.callStart : Wf.Statement (.callStart) := noEngine rfl
theorem Wf.callEnd : Wf.Statement (.callEnd) := noEngine rfl
theorem Wf.callAdopt : Wf.Statement (.callAdopt) := noEngine rfl
theorem Wf.param : Wf.Statement (.param) := noEngine rfl
theorem Wf.commit : Wf.Statement (.commit) := noEngine rfl
theorem Wf.discard : Wf.Statement (.discard) := noEngine rfl
theorem Wf.release : Wf.Statement (.release) := noEngine rfl
theorem Wf.flush : Wf.Statement (.flush) := noEngine rfl
theorem Wf.selftest (failed : Nat) : Wf.Statement (.selftest failed) := noEngine rfl
theorem Wf.meterStatusRefresh : Wf.Statement (.meterStatusRefresh) := noEngine rfl
theorem Wf.meterLinkSilent : Wf.Statement (.meterLinkSilent) := noEngine rfl
theorem Wf.meterTick (n : Nat) (skew : Crystal) : Wf.Statement (.meterTick n skew) := noEngine rfl
theorem Wf.meterNoref : Wf.Statement (.meterNoref) := noEngine rfl
theorem Wf.meterPartial (n : Nat) : Wf.Statement (.meterPartial n) := noEngine rfl
theorem Wf.meterHandover : Wf.Statement (.meterHandover) := noEngine rfl
theorem Wf.meterPowerFail : Wf.Statement (.meterPowerFail) := noEngine rfl
theorem Wf.meterPowerReturn (lost : Bool) (pairId : Bool) (failed : Nat) : Wf.Statement (.meterPowerReturn lost pairId failed) := noEngine rfl
theorem Wf.meterPeriodicSelftest (failed : Nat) : Wf.Statement (.meterPeriodicSelftest failed) := noEngine rfl
theorem Wf.meterArm (low : Bool) : Wf.Statement (.meterArm low) := noEngine rfl
theorem Wf.meterSeal (low : Bool) : Wf.Statement (.meterSeal low) := noEngine rfl
theorem Wf.sealRegisterWrite (o : Nat) (v : Word) : Wf.Statement (.sealRegisterWrite o v) := noEngine rfl
theorem Wf.meterTnsRead : Wf.Statement (.meterTnsRead) := noEngine rfl
theorem Wf.nandCmdGo : Wf.Statement (.nandCmdGo) := noEngine rfl
theorem Wf.append (i : Nat) (w : FlashWorld) : Wf.Statement (.append i w) := noEngine rfl
theorem Wf.read (i : Nat) (w : FlashWorld) : Wf.Statement (.read i w) := noEngine rfl
theorem Wf.trim (i : Nat) (w : FlashWorld) : Wf.Statement (.trim i w) := noEngine rfl
theorem Wf.erasepart (i : Nat) (w : FlashWorld) : Wf.Statement (.erasepart i w) := noEngine rfl
theorem Wf.readrec (i : Nat) (w : FlashWorld) : Wf.Statement (.readrec i w) := noEngine rfl
theorem Wf.rawread (i : Nat) (w : FlashWorld) : Wf.Statement (.rawread i w) := noEngine rfl
theorem Wf.patrol (i : Nat) : Wf.Statement (.patrol i) := noEngine rfl
theorem Wf.sync (i : Nat) : Wf.Statement (.sync i) := noEngine rfl
theorem Wf.setpart (i : Nat) (w : FlashWorld) : Wf.Statement (.setpart i w) := noEngine rfl
theorem Wf.nandMount (ts : List (Option NandTarget)) : Wf.Statement (.nandMount ts) := noEngine rfl
theorem Wf.nandHandover (w : FlashWorld) : Wf.Statement (.nandHandover w) := noEngine rfl
theorem Wf.nandParamImage (w : FlashWorld) : Wf.Statement (.nandParamImage w) := noEngine rfl
theorem Wf.nandCompact (w : FlashWorld) : Wf.Statement (.nandCompact w) := noEngine rfl
theorem Wf.nandWlMove (p : Nat) (w : FlashWorld) : Wf.Statement (.nandWlMove p w) := noEngine rfl
theorem Wf.nandRefresh (g : Nat) (w : FlashWorld) : Wf.Statement (.nandRefresh g w) := noEngine rfl
theorem Wf.nandPatrolRead (w : FlashWorld) : Wf.Statement (.nandPatrolRead w) := noEngine rfl
theorem Wf.startActive : Wf.Statement (.startActive) := noEngine rfl
theorem Wf.startStandby : Wf.Statement (.startStandby) := noEngine rfl
theorem Wf.startStandbyTimeout : Wf.Statement (.startStandbyTimeout) := noEngine rfl
theorem Wf.promote (force : Bool) : Wf.Statement (.promote force) := noEngine rfl
theorem Wf.demote : Wf.Statement (.demote) := noEngine rfl
theorem Wf.rejoin : Wf.Statement (.rejoin) := noEngine rfl
theorem Wf.mirrSync : Wf.Statement (.mirrSync) := noEngine rfl
theorem Wf.demoteTimeout : Wf.Statement (.demoteTimeout) := noEngine rfl
theorem Wf.mirrDisable (v : Word) : Wf.Statement (.mirrDisable v) := noEngine rfl
theorem Wf.heartbeatSend : Wf.Statement (.heartbeatSend) := noEngine rfl
theorem Wf.peerHbPulse (w : Nat) : Wf.Statement (.peerHbPulse w) := noEngine rfl
theorem Wf.peerSlotJudge : Wf.Statement (.peerSlotJudge) := noEngine rfl
theorem Wf.mirrRxHeartbeat : Wf.Statement (.mirrRxHeartbeat) := noEngine rfl
theorem Wf.mirrRxAck : Wf.Statement (.mirrRxAck) := noEngine rfl
theorem Wf.mirrRxRole : Wf.Statement (.mirrRxRole) := noEngine rfl
theorem Wf.mirrRxDesc : Wf.Statement (.mirrRxDesc) := noEngine rfl
theorem Wf.mirrRxDescres : Wf.Statement (.mirrRxDescres) := noEngine rfl
theorem Wf.mirrRxCall : Wf.Statement (.mirrRxCall) := noEngine rfl
theorem Wf.mirrRxSyncend : Wf.Statement (.mirrRxSyncend) := noEngine rfl
theorem Wf.mirrRxState : Wf.Statement (.mirrRxState) := noEngine rfl
theorem Wf.mirrRxEcrec : Wf.Statement (.mirrRxEcrec) := noEngine rfl
theorem Wf.mirrRxHorizon : Wf.Statement (.mirrRxHorizon) := noEngine rfl
theorem Wf.mirrRxFinger : Wf.Statement (.mirrRxFinger) := noEngine rfl
theorem Wf.mirrRxUser : Wf.Statement (.mirrRxUser) := noEngine rfl
theorem Wf.retxTimeout : Wf.Statement (.retxTimeout) := noEngine rfl
theorem Wf.ackSend : Wf.Statement (.ackSend) := noEngine rfl
theorem Wf.stateSnapshot (ns : List Nat) : Wf.Statement (.stateSnapshot ns) := noEngine rfl
theorem Wf.mirrEcrecSend (r : Nat) : Wf.Statement (.mirrEcrecSend r) := noEngine rfl
theorem Wf.fingerSend : Wf.Statement (.fingerSend) := noEngine rfl
theorem Wf.sleepWake : Wf.Statement (.sleepWake) := noEngine rfl
theorem Wf.sleepResync : Wf.Statement (.sleepResync) := noEngine rfl
theorem Wf.bar2Read (o : Nat) (n : Nat) : Wf.Statement (.bar2Read o n) := noEngine rfl
theorem Wf.bar2Write (o : Nat) (bs : List Byte) : Wf.Statement (.bar2Write o bs) := noEngine rfl
theorem Wf.bar0PartialWrite : Wf.Statement (.bar0PartialWrite) := noEngine rfl
theorem Wf.ringDoorbell (r : Nat) (v : Word) : Wf.Statement (.ringDoorbell r v) := noEngine rfl
theorem Wf.ringH2dMsg (r : Nat) (d : List Byte) (data : List Byte) (err : Bool) (commit : Bool) : Wf.Statement (.ringH2dMsg r d data err commit) := noEngine rfl
theorem Wf.ringH2dWrite (r : Nat) (d : List Byte) (data : List Byte) (err : Bool) (commit : Bool) : Wf.Statement (.ringH2dWrite r d data err commit) := noEngine rfl
theorem Wf.ringH2dRead (r : Nat) (d : List Byte) (err : Bool) (commit : Bool) : Wf.Statement (.ringH2dRead r d err commit) := noEngine rfl
theorem Wf.ringD2hMsg (r : Nat) (d : List Byte) (err : Bool) (commit : Bool) : Wf.Statement (.ringD2hMsg r d err commit) := noEngine rfl
theorem Wf.signalDoorbell (k : Nat) (v : Word) : Wf.Statement (.signalDoorbell k v) := noEngine rfl
theorem Wf.msixSend (v : Nat) : Wf.Statement (.msixSend v) := noEngine rfl
theorem Wf.pcieHotReset : Wf.Statement (.pcieHotReset) := noEngine rfl
theorem Wf.pcieLinkDown : Wf.Statement (.pcieLinkDown) := noEngine rfl
theorem Wf.pcieFlr : Wf.Statement (.pcieFlr) := noEngine rfl
theorem Wf.pcieLinkChange (speed : Nat) (width : Nat) (c : PcieCfg) : Wf.Statement (.pcieLinkChange speed width c) := noEngine rfl
theorem Wf.usbAttach (vbus : Bool) : Wf.Statement (.usbAttach vbus) := noEngine rfl
theorem Wf.usbBusReset (hs : Bool) : Wf.Statement (.usbBusReset hs) := noEngine rfl
theorem Wf.usbStandardRequest (type : Nat) (req : Nat) (value : Nat) (len : Nat) : Wf.Statement (.usbStandardRequest type req value len) := noEngine rfl
theorem Wf.getInfo (len : Nat) : Wf.Statement (.getInfo len) := noEngine rfl
theorem Wf.imgBegin (target : Nat) (n : Nat) (len : Nat) : Wf.Statement (.imgBegin target n len) := noEngine rfl
theorem Wf.imgEnd (w : ImgEnd) : Wf.Statement (.imgEnd w) := noEngine rfl
theorem Wf.getStatus (len : Nat) : Wf.Statement (.getStatus len) := noEngine rfl
theorem Wf.regWrite (n : Nat) (o : Word) (v : Word) : Wf.Statement (.regWrite n o v) := noEngine rfl
theorem Wf.regWriteCommit : Wf.Statement (.regWriteCommit) := noEngine rfl
theorem Wf.regRead (index : Nat) (len : Nat) : Wf.Statement (.regRead index len) := noEngine rfl
theorem Wf.regAddr (n : Nat) (o : Word) : Wf.Statement (.regAddr n o) := noEngine rfl
theorem Wf.usbConsoleOut (bs : List Byte) : Wf.Statement (.usbConsoleOut bs) := noEngine rfl
theorem Wf.usbConsoleIn : Wf.Statement (.usbConsoleIn) := noEngine rfl
theorem Wf.usbImageData (bs : List Byte) : Wf.Statement (.usbImageData bs) := noEngine rfl
theorem Wf.usbAlmgo : Wf.Statement (.usbAlmgo) := noEngine rfl
theorem Wf.usbAlarmIn : Wf.Statement (.usbAlarmIn) := noEngine rfl
theorem Wf.usbSuspend : Wf.Statement (.usbSuspend) := noEngine rfl
theorem Wf.usbResume : Wf.Statement (.usbResume) := noEngine rfl
theorem Wf.usbRemoteWake (still : Bool) : Wf.Statement (.usbRemoteWake still) := noEngine rfl
theorem Wf.bootSelect (w : FlashWorld) : Wf.Statement (.bootSelect w) := noEngine rfl
theorem Wf.bootGo : Wf.Statement (.bootGo) := noEngine rfl
theorem Wf.quickAssay (engs : List (Nat × Nat)) (banks : List (Nat × Nat)) : Wf.Statement (.quickAssay engs banks) := noEngine rfl
theorem Wf.fullAssay (engs : List (Nat × Nat)) (banks : List (Nat × Nat)) : Wf.Statement (.fullAssay engs banks) := noEngine rfl
theorem Wf.runSet : Wf.Statement (.runSet) := noEngine rfl
theorem Wf.runCheck : Wf.Statement (.runCheck) := noEngine rfl
theorem Wf.runClear : Wf.Statement (.runClear) := noEngine rfl
theorem Wf.otpProgram (slot : BitVec 2) : Wf.Statement (.otpProgram slot) := noEngine rfl
theorem Wf.otpRevoke (slot : BitVec 2) : Wf.Statement (.otpRevoke slot) := noEngine rfl
theorem Wf.otpRaiseMin : Wf.Statement (.otpRaiseMin) := noEngine rfl
theorem Wf.cfgkeyApply (v : Word) : Wf.Statement (.cfgkeyApply v) := noEngine rfl
theorem Wf.cfgRecomputeDone : Wf.Statement (.cfgRecomputeDone) := noEngine rfl
theorem Wf.cfgdigRead : Wf.Statement (.cfgdigRead) := noEngine rfl
theorem Wf.reflectorEnter : Wf.Statement (.reflectorEnter) := noEngine rfl
theorem Wf.reflectorLinkTry : Wf.Statement (.reflectorLinkTry) := noEngine rfl
theorem Wf.reflectorDhcp (hear : Bool) : Wf.Statement (.reflectorDhcp hear) := noEngine rfl
theorem Wf.twampReflect : Wf.Statement (.twampReflect) := noEngine rfl
theorem Wf.reflectorChannelOpen : Wf.Statement (.reflectorChannelOpen) := noEngine rfl
theorem Wf.reflectorChannelClose (c : Nat) : Wf.Statement (.reflectorChannelClose c) := noEngine rfl
theorem Wf.reflectorRtcp (c : Nat) : Wf.Statement (.reflectorRtcp c) := noEngine rfl
theorem Wf.reflectorStatusLine : Wf.Statement (.reflectorStatusLine) := noEngine rfl
theorem Wf.engineTest (fail : Nat) : Wf.Statement (.engineTest fail) := noEngine rfl
theorem Wf.groveSliceTest (_g : Nat) (_slice : Nat) : Wf.Statement (.groveSliceTest _g _slice) := noEngine rfl
theorem Wf.bankMigrate (at_ : Option BankHot) (fail : Bool) : Wf.Statement (.bankMigrate at_ fail) := noEngine rfl
theorem Wf.assayUnlock (v : Word) : Wf.Statement (.assayUnlock v) := noEngine rfl
theorem Wf.assayUnlockExpire : Wf.Statement (.assayUnlockExpire) := noEngine rfl
theorem Wf.hvsFeedSample (a : Nat) (b : Nat) : Wf.Statement (.hvsFeedSample a b) := noEngine rfl
theorem Wf.hvsIslandFrame : Wf.Statement (.hvsIslandFrame) := noEngine rfl
theorem Wf.hvsLinkLost : Wf.Statement (.hvsLinkLost) := noEngine rfl
theorem Wf.hvsLinkRestored : Wf.Statement (.hvsLinkRestored) := noEngine rfl
theorem Wf.hvsLossCrit : Wf.Statement (.hvsLossCrit) := noEngine rfl
theorem Wf.hvsAlmoutWrite (v : Word) : Wf.Statement (.hvsAlmoutWrite v) := noEngine rfl
theorem Wf.outputLimitShutdown (n : Nat) : Wf.Statement (.outputLimitShutdown n) := noEngine rfl
theorem Wf.outputThermalShutdown (n : Nat) : Wf.Statement (.outputThermalShutdown n) := noEngine rfl
theorem Wf.outputRetry (n : Nat) : Wf.Statement (.outputRetry n) := noEngine rfl
theorem Wf.outputRecovered (n : Nat) : Wf.Statement (.outputRecovered n) := noEngine rfl
theorem Wf.alarmInputChange (k : Nat) (on : Bool) (ms : Nat) : Wf.Statement (.alarmInputChange k on ms) := noEngine rfl
theorem Wf.islandPower (on : Bool) : Wf.Statement (.islandPower on) := noEngine rfl
theorem Wf.c10OkChange (edge : Bool) (err : Int) : Wf.Statement (.c10OkChange edge err) := noEngine rfl
theorem Wf.pcsBlockLock (n : Nat) : Wf.Statement (.pcsBlockLock n) := noEngine rfl
theorem Wf.meterArmExpire : Wf.Statement (.meterArmExpire) := noEngine rfl
theorem Wf.mirrUserSend : Wf.Statement (.mirrUserSend) := noEngine rfl
theorem Wf.pcieEndpointEnable : Wf.Statement (.pcieEndpointEnable) := noEngine rfl
theorem Wf.outputCurrentLimit (n : Nat) (on : Bool) : Wf.Statement (.outputCurrentLimit n on) := noEngine rfl
theorem Wf.thermalLimitCleared (n : Nat) : Wf.Statement (.thermalLimitCleared n) := noEngine rfl

end Sys2Proof.Laws
end

