-- ==== Sys2Proof/Tests/Slice0.lean ====
section
/-! SUPPORT. Small tests: for every statement, concrete states and operands that meet the
hypotheses of each of its clauses, and what the command leaves there; and ill-formed terms
that each check of WellFormed refuses. -/

set_option Elab.async false

namespace Sys2Proof.Tests

open Sys2Proof.Machine

/-- The command completes, and the state after it meets `p`. -/
def after (i : Instr) (s : State) (p : State → Bool) : Bool :=
  match exec i s with
  | .next t => p t
  | _ => false

/-- The check of `Issues`. -/
def issuesB (s : State) (e k : Nat) : Bool :=
  runningOf s e == some k && decide ((ctxGet s k).pc < pmSize e)
    && ! isPoison s (fetchPa e (ctxGet s k).pc)
    && (match (ctxGet s k).pend with | none => kernelAt s e (ctxGet s k).pc == none | some p => ! p.annul)
    && s.soft == []

theorem issues_of_check (s : State) (e k : Nat) (h : issuesB s e k = true) : Issues s e k := by
  simp only [issuesB, Bool.and_eq_true, beq_iff_eq, decide_eq_true_eq, Bool.not_eq_true'] at h
  refine ⟨h.1.1.1.1, h.1.1.1.2, h.1.1.2, ?_, ?_, h.2⟩
  · intro p hp
    have := h.1.2
    rw [hp] at this
    simpa using this
  · intro hp
    have := h.1.2
    rw [hp] at this
    simpa using this

/-- The check of `Settled`. -/
def settledB (c : Ctx) : Bool := c.infl.isEmpty && c.pend.isNone && ldepth c == 0

theorem settled_of_check (c : Ctx) (h : settledB c = true) : Settled c := by
  simp only [settledB, Bool.and_eq_true, List.isEmpty_iff, Option.isNone_iff_eq_none, beq_iff_eq] at h
  exact ⟨h.1.1, h.1.2, h.2⟩

/-- The check of `Names`. -/
def namesB (s : State) (k : Nat) (pn : BitVec 3) (md : Bool) (ofs : BitVec 14) (size pa : Nat) (a : Word) : Bool :=
  a == (if md then pGet (ctxGet s k) pn.toNat else pGet (ctxGet s k) pn.toNat + wordOfInt (ofs.toInt * size))
    && (! md || ofs == 0) && a.toNat % size == 0 && resolve s (k / 4) a.toNat == some pa

theorem names_of_check (s : State) (k : Nat) (pn : BitVec 3) (md : Bool) (ofs : BitVec 14) (size pa : Nat) (a : Word)
    (h : namesB s k pn md ofs size pa a = true) : Names s k pn md ofs size pa a := by
  simp only [namesB, Bool.and_eq_true, beq_iff_eq, Bool.or_eq_true, Bool.not_eq_true'] at h
  refine ⟨h.1.1.1, ?_, h.1.2, h.2⟩
  intro hm
  rcases h.1.1.2 with hf | hz
  · rw [hm] at hf; exact absurd hf (by decide)
  · exact hz

/-- States and operands that meet the hypotheses of each clause of `StepRunsFrontCommand`, and what stands after. -/
theorem witness_stepRunsFrontCommand :
  (({ State.reset with pending := [.phaseClr, .tick] } : State).pending = .phaseClr :: [.tick]
   ∧ (match step { State.reset with pending := [.phaseClr, .tick] } with
         | .next t => t.pending == [Instr.tick] | _ => false) = true) := by decide +kernel

/-- The reset state with RESET_N high. -/
def freed : State := { State.reset with dev := { DevSt.reset with held := false } }

/-- States and operands that meet the hypotheses of each clause of `IdleStepIsOneFabricCycle`, and what stands after. -/
theorem witness_idleStepIsOneFabricCycle :
  (freed.pending = [] ∧ tickReached freed.time (freed.time.fab + 1) = false ∧ freed.dev.held = false
   ∧ (match step freed with | .next t => t.time.fab == 1 | _ => false) = true)
  ∧ (State.reset.pending = [] ∧ State.reset.dev.held = true
   ∧ (match step State.reset with | .next t => t == State.reset | _ => false) = true)
  ∧ (let s := { freed with time := { freed.time with fab := 187499 } }
   s.pending = [] ∧ tickReached s.time (s.time.fab + 1) = true ∧ (match step s with | .next t => t == s | _ => false) = true) := by
  refine ⟨?_, ?_, ?_⟩ <;> decide +kernel

/-- States and operands that meet the hypotheses of each clause of `ResetPulseAndRelease`, and what stands after. -/
theorem witness_resetPulseAndRelease :
  ((999 : Nat) < 1000 ∧ (match exec (.deviceReset 999) State.reset with | .next t => t == State.reset | _ => false) = true)
  ∧ ((match exec (.deviceReset 1000) State.reset with | .fault f => f == Fault.undefinedResetPulse | _ => false) = true)
  ∧ ((match exec (.deviceReset 9999) State.reset with | .fault f => f == Fault.undefinedResetPulse | _ => false) = true)
  ∧ (let s := csrPut { State.reset with dev := { DevSt.reset with run := true, otpMin := 7 } } offTimeFreq 5
   after (.deviceReset 10000) s (fun t => t.csr == [] && ! t.dev.run && t.dev.otpMin == 7) = true)
  ∧ (State.reset.dev.held = true ∧ romCtx State.reset = some 512 ∧ after (.resetRelease 1 true) State.reset
   (fun t => ! t.dev.held && t.dev.mode == 1 && t.dev.pairId && t.dev.bootRom && t.assay.busy
        && (ctxGet t 512).state == .running) = true) := by
  refine ⟨?_, ?_, ?_, ?_, ?_⟩ <;> decide +kernel

/-- The reset state with its timebase changed. -/
def timed (f : TimeSt → TimeSt) : State := { freed with time := f freed.time }

/-- The reset state with the timebase in a mode, 1 s after reset. -/
def inMode (m : TimeMode) : State := timed fun t => { t with mode := m, cyc := 1500000000, nfn := 8000, ticks := 8000 }

/-- States and operands that meet the hypotheses of each clause of `TimebaseDisciplineWrites`, and what stands after. -/
theorem witness_timebaseDisciplineWrites :
  (let s := inMode .locked
   ¬ (s.time.mode = .holdover ∧ csrFld s offTimeCtl 17 17 = 0)
   ∧ after (.timeFreqWrite 77) s (fun t => csrGet t offTimeFreq == 77 && t.time.wdStart == 1000000000
          && t.time.mode == .locked && t.time.nfn == 8000) = true)
  ∧ (let s := timed fun t => { t with rem := 5 * nsUnit };
   -2147483648 * nsUnit ≤ remNow s.time + (2147483642 : Word).toInt * nsUnit
   ∧ remNow s.time + (2147483642 : Word).toInt * nsUnit ≤ 2147483647 * nsUnit
   ∧ after (.timePhaseAdjWrite 2147483642) s (fun t => t.time.rem == 2147483647 * nsUnit && t.csr == s.csr) = true)
  ∧ (let s := timed fun t => { t with rem := 5 * nsUnit }
   2147483647 * nsUnit < remNow s.time + (2147483643 : Word).toInt * nsUnit
   ∧ after (.timePhaseAdjWrite 2147483643) s (fun t => bitOf (csrGet t offTimeState) 14
          && t.time.rem == 2147483647 * nsUnit) = true)
  ∧ (let s := timed fun t => { t with rem := -1 * nsUnit }
   remNow s.time + (0x80000000 : Word).toInt * nsUnit < -2147483648 * nsUnit
   ∧ after (.timePhaseAdjWrite 0x80000000) s (fun t => bitOf (csrGet t offTimeState) 14
          && t.time.rem == -2147483648 * nsUnit) = true)
  ∧ (after .phaseClr (timed fun t => { t with rem := 5 }) (fun t => t.time.rem == 0 && t.csr == []) = true)
  ∧ (let s := csrPut { inMode .locked with dev := { DevSt.reset with run := true } } offTimeStepLo 9
   s.dev.run = true ∧ after .step s (fun t => t.time.ofs == 9 * nsUnit && t.time.nfn == 8000 && t.time.mode == .locked) = true)
  ∧ (let s := csrPut (inMode .locked) offTimeStepLo 125000
   s.dev.run = false ∧ after .step s (fun t => t.time.ofs == 0 && t.time.nfn == 8001 && t.csr == s.csr && t.mem == []) = true) := by
  refine ⟨?_, ?_, ?_, ?_, ?_, ?_, ?_⟩ <;> decide +kernel

/-- States and operands that meet the hypotheses of each clause of `TimebaseStatesAndSources`, and what stands after. -/
theorem witness_timebaseStatesAndSources :
  (after .modeCmdFreerun (inMode .locked) (fun t => t.time.mode == .freerun && t.time.nfn == 8000) = true)
  ∧ ((inMode .holdover).time.mode = .holdover
   ∧ after .modeCmdLocking (inMode .holdover) (fun t => t.time.mode == .locking && t.time.wdStart == 1000000000) = true)
  ∧ ((inMode .freerun).time.mode = .freerun ∧ after .modeCmdLocking (inMode .freerun) (fun t => t.time.mode == .locking) = true)
  ∧ ((inMode .locking).time.mode = .locking
   ∧ after .modeCmdLocked (inMode .locking) (fun t => t.time.mode == .locked && t.time.everLocked) = true)
  ∧ (let s := timed fun t => { t with mode := .locked, cyc := 1500000000, hist := [(0, 40)] }
   s.time.mode = .locked ∧ after .modeCmdHoldover s (fun t => t.time.mode == .holdover && t.time.avg == 40) = true)
  ∧ ((inMode .freerun).time.mode ≠ .locking ∧ after .modeCmdLocked (inMode .freerun)
   (fun t => t.time == (inMode .freerun).time && bitOf (csrGet t offTimeState) 15) = true)
  ∧ ((inMode .locking).time.mode ≠ .locked ∧ after .modeCmdHoldover (inMode .locking)
   (fun t => t.time == (inMode .locking).time && bitOf (csrGet t offTimeState) 15) = true)
  ∧ (let s := csrPut (inMode .locked) offTimeCtl 0x0A000000
   wdExpired s = true ∧ s.time.mode = .locked ∧ after .watchdogExpiry s (fun t => t.time.mode == .holdover) = true)
  ∧ (let s := csrPut (inMode .locking) offTimeCtl 0x0A000000
   wdExpired s = true ∧ s.time.mode = .locking ∧ after .watchdogExpiry s (fun t => t.time.mode == .freerun) = true)
  ∧ (let s := timed fun t => { t with rem := nsUnit, cyc := 0, fab := 150000000 }
   s.time.rem ≠ 0 ∧ remNow s.time = 0 ∧ after .phaseSlewEnd s (fun t => t.time.rem == 0 && t.csr == s.csr) = true)
  ∧ (let s := timed fun t => { t with ofs := nsUnit, nRate := 0 }
   decide (ofsNow s.time = 0) ≠ s.time.alignedTold ∧ after .nfnAlignmentChange s (fun t => ! t.time.alignedTold) = true)
  ∧ (let s := timed fun t => { t with c10Edge := true, c10Err := 50000000 }
   csrFld s offTimeCtl 16 16 = 0 ∧ fld 0x10000 16 16 = 1 ∧ c10Ok s.time = true
   ∧ after (.fsrcWrite 0x10000) s (fun t => t.time.srcNext == some 1) = true)
  ∧ (let s := csrPut State.reset offTimeCtl 0x10000
   csrFld s offTimeCtl 16 16 = 1 ∧ fld 0 16 16 = 0 ∧ after (.fsrcWrite 0) s (fun t => t.time.srcNext == some 0) = true)
  ∧ (let s := csrPut State.reset offTimeCtl 0x10000
   csrFld s offTimeCtl 16 16 = 1 ∧ c10Ok s.time = false ∧ s.time.fallback = false
   ∧ after .clk10Fallback s (fun t => t.time.fallback && t.time.srcNext == some 0) = true)
  ∧ (let s := timed fun t => { t with fallback := true, c10Edge := true, cyc := 1500000000 }
   s.time.fallback = true ∧ c10Ok s.time = true ∧ s.time.c10Since + 1000000000 ≤ elapsed s.time
   ∧ after .clk10Restore s (fun t => ! t.time.fallback && t.time.srcNext == some 1) = true)
  ∧ (after (.c10OkChange true 3) State.reset (fun t => t.time.c10Edge && t.time.c10Err == 3 && t.csr == [] && t.mem == []) = true) := by
  refine ⟨?_, ?_, ?_, ?_, ?_, ?_, ?_, ?_, ?_, ?_, ?_, ?_, ?_, ?_, ?_, ?_⟩ <;> decide +kernel

/-- States and operands that meet the hypotheses of each clause of `TickSnapshotAndPulse`, and what stands after. -/
theorem witness_tickSnapshotAndPulse :
  (after .tick (inMode .locked) (fun t => t.time.nfn == 8001 && t.time.ticks == 8001) = true)
  ∧ (after .timeNfnLoRead (timed fun t => { t with nfn := 0x100000002 }) (fun t => t.busRead == leBytes 4 2
   && csrGet t offTimeNfnHi == 1 && t.time.nfn == 0x100000002) = true)
  ∧ (let s := csrPut (inMode .locked) (offTimeTsinCtl + 8 * 3) 0x0A03
   bitOf (csrGet s (offTimeTsinCtl + 8 * 3)) 0 = true ∧ bitOf (csrGet s (offTimeTsinCtl + 8 * 3)) 1 = true
   ∧ max 10 (fld (csrGet s (offTimeTsinCtl + 8 * 3)) 15 8 * 2) ≤ 20 ∧ smapGet none s.time.tsShort 3 ≠ some false ∧ smapGet none s.time.tsLast 3 = none
   ∧ after (.tsInCapture 3 true 20) s (fun t => smapGet none t.time.tsLast 3 == some 1000000000) = true)
  ∧ (let s := csrPut (timed fun t => { t with mode := .locked, cyc := 1500000000, tsLast := [(3, some 999999900)] }) (offTimeTsinCtl + 8 * 3) 0x0003
   smapGet none s.time.tsLast 3 = some 999999900 ∧ 999999900 + 100 ≤ elapsed s.time
   ∧ after (.tsInCapture 3 true 10) s (fun t => smapGet none t.time.tsLast 3 == some 1000000000
          && csrGet t (offTimeTsinMiss + 8 * 3) == 0) = true)
  ∧ (let s := csrPut (timed fun t => { t with mode := .locked, cyc := 1500000000, tsLast := [(3, some 999999901)] }) (offTimeTsinCtl + 8 * 3) 0x0005
   bitOf (csrGet s (offTimeTsinCtl + 8 * 3)) 2 = true ∧ smapGet none s.time.tsLast 3 = some 999999901
   ∧ elapsed s.time < 999999901 + 100 ∧ fld (csrGet s (offTimeTsinMiss + 8 * 3)) 15 0 < 65535
   ∧ after (.tsInCapture 3 false 10) s (fun t => fld (csrGet t (offTimeTsinMiss + 8 * 3)) 15 0 == 1 && t.time.tsLast == s.time.tsLast
          && t.qmgr == s.qmgr) = true)
  ∧ (let s := csrPut (inMode .locked) (offTimeTsinCtl + 8 * 3) 0x0A03
   19 < max 10 (fld (csrGet s (offTimeTsinCtl + 8 * 3)) 15 8 * 2) ∧ smapGet none s.time.tsShort 3 ≠ some false
   ∧ after (.tsInCapture 3 true 19) s (fun t => smapGet none t.time.tsShort 3 == some true && t.time.tsLast == []
          && t.csr == s.csr && t.qmgr == s.qmgr) = true)
  ∧ (let s := csrPut (timed fun t => { t with tsShort := [(3, some true)] }) (offTimeTsinCtl + 8 * 3) 0x0005
   smapGet none s.time.tsShort 3 = some (! false)
   ∧ after (.tsInCapture 3 false 500) s (fun t => t.time.tsShort == [] && t.time.tsLast == [] && t.csr == s.csr) = true)
  ∧ (let s := csrPut (inMode .locked) offTimePpsCtl 0x00050001
   ppsSecond s = some 1 ∧ csrFld s offTimePpsCtl 0 0 = 1 ∧ ppsGated s = false ∧ s.time.pps = false ∧ ppsMarked s.time 1 = false
   ∧ after .ppsRise s (fun t => t.time.pps && t.time.ppsFall == 8005 * tickUnits && t.csr == s.csr) = true)
  ∧ (let s := timed fun t => { t with cyc := 1500000000, nfn := 8000, sub := 5 * nsUnit }
   ppsSecond s = none ∧ (match exec .ppsRise s with | .next t => t == s | _ => false) = true)
  ∧ (let s := timed fun t => { t with pps := true, ppsFall := 8000 * tickUnits, ticks := 8000 }
   s.time.pps = true ∧ s.time.ppsFall ≤ tickTime s.time ∧ after .ppsFall s (fun t => ! t.time.pps) = true) := by
  refine ⟨?_, ?_, ?_, ?_, ?_, ?_, ?_, ?_, ?_, ?_⟩ <;> decide +kernel

/-- The reset state with context 0 of engine 0 RUNNING and changed. -/
def running (f : Ctx → Ctx) : State := ctxPut State.reset 0 (f { Ctx.reset 0 with state := .running })

/-- Its G1 and G2 set. -/
def operands (a b : Word) : State := running fun c => { c with g := [(1, a), (2, b)] }

/-- G3 and ST after the command. -/
def leaves (i : Instr) (s : State) (v st : Word) : Bool :=
  after i s fun t => gGet (ctxGet t 0) 3 == v && (ctxGet t 0).st == st && (ctxGet t 0).pc == 4

/-- States and operands that meet the hypotheses of each clause of `AluRegisterResults`, and what stands after. -/
theorem witness_aluRegisterResults :
  (let s := operands 0x7FFFFFFF 1; issuesB s 0 0 = true ∧ settledB (ctxGet s 0) = true
   ∧ leaves (.add 0 3 1 2) s 0x80000000 0x40A = true ∧ leaves (.adds 0 3 1 2) s 0x7FFFFFFF 0x408 = true
   ∧ leaves (.sub 0 3 2 1) s 0x80000002 0x402 = true ∧ leaves (.subs 0 3 1 2) s 0x7FFFFFFE 0x404 = true
   ∧ leaves (.and 0 3 1 2) s 1 0x400 = true ∧ leaves (.or 0 3 1 2) s 0x7FFFFFFF 0x400 = true
   ∧ leaves (.xor 0 3 1 1) s 0 0x401 = true ∧ leaves (.andn 0 3 1 2) s 0x7FFFFFFE 0x400 = true
   ∧ leaves (.shl 0 3 1 2) s 0xFFFFFFFE 0x402 = true ∧ leaves (.shr 0 3 1 2) s 0x3FFFFFFF 0x400 = true
   ∧ leaves (.min 0 3 1 2) s 1 0x400 = true ∧ leaves (.max 0 3 1 2) s 0x7FFFFFFF 0x400 = true
   ∧ leaves (.mul 0 3 1 1) s 1 0x400 = true ∧ leaves (.neg 0 3 2) s 0xFFFFFFFF 0x402 = true
   ∧ leaves (.clz 0 3 2) s 31 0x400 = true ∧ leaves (.tst 0 1 2) s 0 0x400 = true ∧ leaves (.cmp 0 2 1) s 0 0x402 = true)
  ∧ (let s := operands 0x80008000 63; issuesB s 0 0 = true
   ∧ leaves (.sar 0 3 1 2) s 0xFFFFFFFF 0x402 = true ∧ leaves (.shl 0 3 1 2) s 0 0x401 = true
   ∧ leaves (.sexh 0 3 1) s 0xFFFF8000 0x402 = true ∧ leaves (.abs 0 3 1) s 0x7FFF8000 0x400 = true
   ∧ leaves (.abs 0 3 1) (operands 0x80000000 0) 0x7FFFFFFF 0x408 = true
   ∧ leaves (.neg 0 3 1) (operands 0 0) 0 0x405 = true ∧ leaves (.clz 0 3 2) (operands 0 0) 32 0x400 = true
   ∧ leaves (.adds 0 3 1 1) (operands 0x80000000 0) 0x80000000 0x40E = true) := by
  refine ⟨?_, ?_⟩ <;> decide +kernel

/-- States and operands that meet the hypotheses of each clause of `ImmediateAndMoveResults`, and what stands after. -/
theorem witness_immediateAndMoveResults :
  (let s := operands 0x80000001 9; issuesB s 0 0 = true
   ∧ leaves (.addi 0 3 1 0xFFFF) s 0x80000000 0x406 = true ∧ leaves (.andi 0 3 1 0xFFFF) s 1 0x400 = true
   ∧ leaves (.ori 0 3 1 0x10) s 0x80000011 0x402 = true ∧ leaves (.xori 0 3 1 1) s 0x80000000 0x402 = true
   ∧ leaves (.shli 0 3 1 31) s 0x80000000 0x402 = true ∧ leaves (.shri 0 3 1 31) s 1 0x400 = true
   ∧ leaves (.sari 0 3 1 31) s 0xFFFFFFFF 0x402 = true ∧ leaves (.cmpi 0 1 0xFFFF) s 0 0x402 = true
   ∧ leaves (.movi 0 3 0 0x8000) s 0x8000 0x400 = true ∧ leaves (.movhi 0 3 0 0x1234) s 0x12340000 0x400 = true
   ∧ leaves (.mov 0 3 0 1 0) s 0x80000001 0x400 = true)
  ∧ (let s := operands 5 9; issuesB s 0 0 = true ∧ gpmReg 1 7 = some (.p 7) ∧ gpmReg 2 7 = some (.m 7)
   ∧ after (.movi 0 7 1 3) s (fun t => pGet (ctxGet t 0) 7 == 3) = true
   ∧ after (.movhi 0 7 2 3) s (fun t => mGet (ctxGet t 0) 7 == 0x30000) = true
   ∧ after (.mov 0 7 1 2 0) s (fun t => pGet (ctxGet t 0) 7 == 9) = true) := by
  refine ⟨?_, ?_⟩ <;> decide +kernel

/-- States and operands that meet the hypotheses of each clause of `SpecialMoves`, and what stands after. -/
theorem witness_specialMoves :
  (let s := running fun c => { c with g := [(1, 0x80001234)], a := [(3, 0x8000000001)], sp := [(7, 0x44)] };
   issuesB s 0 0 = true ∧ settledB (ctxGet s 0) = true
   ∧ after (.mov 0 3 3 1 0) s (fun t => (ctxGet t 0).infl == [⟨2, .a 3, 0xFF80001234, false⟩]) = true
   ∧ after (.mov 0 0 3 3 3) s (fun t => (ctxGet t 0).infl == [⟨2, .a 0, 0x8000000001, false⟩]) = true
   ∧ after (.mov 0 3 0 7 4) s (fun t => gGet (ctxGet t 0) 3 == 0x44) = true
   ∧ after (.mov 0 3 4 1 0) s (fun t => spGet (ctxGet t 0) 3 == 0x1234) = true
   ∧ after (.mov 0 11 4 1 0) s (fun t => spGet (ctxGet t 0) 11 == 0x80001234) = true)
  ∧ (let s := running fun c => { c with g := [(1, 0x8000)] }; (isSup (0 / 4) = false)
   ∧ after (.mov 0 0 4 1 0) s (fun t => ! stPriv (ctxGet t 0) && (ctxGet t 0).st &&& 0x7CCF == 0) = true)
  ∧ (let s := ctxPut State.reset 515 { Ctx.reset 515 with state := .running, g := [(1, 0x7CCF)] };
   issuesB s 128 515 = true ∧ settledB (ctxGet s 515) = true ∧ isSup (515 / 4) = true ∧ stPriv (ctxGet s 515) = true
   ∧ after (.mov 128 0 4 1 0) s (fun t => ! stPriv (ctxGet t 515) && fld (ctxGet t 515).st 23 20 == 3
          && (ctxGet t 515).st &&& 0x7CCF == 0x7CCF) = true) := by
  refine ⟨?_, ?_, ?_⟩ <;> decide +kernel

/-- States and operands that meet the hypotheses of each clause of `AccumulatorResults`, and what stands after. -/
theorem witness_accumulatorResults :
  (let s := running fun c => { c with a := [(0, 0x7FFF8000), (1, 0x7FFFFFFFFF), (2, 0x8000000000)] };
   issuesB s 0 0 = true ∧ (2147483647 : Int) < (aGet (ctxGet s 0) 0).toInt + 0x8000
   ∧ after (.movh 0 3 0 true) s (fun t => gGet (ctxGet t 0) 3 == 0x7FFF && (ctxGet t 0).infl == [⟨2, .stSS, 0, false⟩]) = true
   ∧ after (.movh 0 3 0 false) s (fun t => gGet (ctxGet t 0) 3 == 0x7FFF && (ctxGet t 0).infl == []) = true
   ∧ after (.movw 0 3 1) s (fun t => gGet (ctxGet t 0) 3 == 0x7FFFFFFF && (ctxGet t 0).infl == [⟨2, .stSS, 0, false⟩]) = true
   ∧ after (.movx 0 3 2) s (fun t => gGet (ctxGet t 0) 3 == 0xFFFFFF80) = true
   ∧ after (.adda 0 1 0) s (fun t => (ctxGet t 0).infl == [⟨2, .a 1, 0x807FFF7FFF, false⟩, ⟨2, .stAV, 0, false⟩]) = true
   ∧ after (.suba 0 0 0) s (fun t => (ctxGet t 0).infl == [⟨2, .a 0, 0, false⟩]) = true
   ∧ after (.aneg 0 3 2) s (fun t => (ctxGet t 0).infl == [⟨2, .a 3, 0x8000000000, false⟩, ⟨2, .stAV, 0, false⟩]) = true)
  ∧ (let s := running fun c => { c with a := [(0, 3)] }; issuesB s 0 0 = true ∧ 0 ≤ (31 : BitVec 6).toInt ∧ (32 : BitVec 6).toInt < 0
   ∧ after (.ash 0 1 0 31) s (fun t => (ctxGet t 0).infl == [⟨2, .a 1, 0x180000000, false⟩]) = true
   ∧ after (.ash 0 1 0 0x3F) s (fun t => (ctxGet t 0).infl == [⟨2, .a 1, 1, false⟩]) = true) := by
  refine ⟨?_, ?_⟩ <;> decide +kernel

/-- States and operands that meet the hypotheses of each clause of `MacClassResults`, and what stands after. -/
theorem witness_macClassResults :
  (let s := memWrite (running fun c => { c with g := [(1, 0x80007FFF), (2, 0x00028000)], a := [(0, 5)], p := [(0, 0x10000), (4, 0x2FFFE)], m := [(0, 2), (4, 0xFFFFFFFE)] }) 0x200010000 [0x34, 0x82];
   issuesB s 0 0 = true ∧ (pGet (ctxGet s 0) (0 + (0 : BitVec 2).toNat)).toNat = 0x10000
   ∧ isPoison s (localBase 0 + 0x10000) = false ∧ isPoison s (localBase 0 + 0x2FFFE) = false
   ∧ after (.mac 0 0 1 2 true true (some ⟨7, 0⟩) (some ⟨8, 0⟩)) s (fun t => (ctxGet t 0).infl
          == [⟨2, .a 0, BitVec.ofInt 40 (5 - 131072), true⟩, ⟨3, .g 7, 0xFFFF8234, false⟩, ⟨3, .g 8, 0, false⟩]
          && pGet (ctxGet t 0) 0 == 0x10002 && pGet (ctxGet t 0) 4 == 0x2FFFC) = true
   ∧ after (.msu 0 0 1 2 true true none none) s (fun t => (ctxGet t 0).infl == [⟨2, .a 0, 131077, true⟩]) = true
   ∧ after (.mpy 0 1 1 2 false false none none) s (fun t => (ctxGet t 0).infl
          == [⟨2, .a 1, BitVec.ofInt 40 (-2147418112), true⟩]) = true
   ∧ after (.aclr 0 0 none none) s (fun t => (ctxGet t 0).infl == [⟨2, .a 0, 0, true⟩]) = true
   ∧ after (.fet 0 (some ⟨7, 0⟩) none) s (fun t => (ctxGet t 0).infl == [⟨3, .g 7, 0xFFFF8234, false⟩]) = true)
  ∧ ((aMacGet { Ctx.reset 0 with infl := [⟨1, .a 2, 9, true⟩] } 2) = 9 ∧ (aMacGet { Ctx.reset 0 with infl := [⟨1, .a 2, 9, false⟩] } 2) = 0) := by
  refine ⟨?_, ?_⟩ <;> decide +kernel

/-- States and operands that meet the hypotheses of each clause of `LocalLoadsAndStores`, and what stands after. -/
theorem witness_localLoadsAndStores :
  (let s := memWrite (running fun c => { c with p := [(1, 0x10008)], m := [(1, 8)], a := [(2, 7)], g := [(2, 0x89ABCDEF)] })
        0x200010008 [1, 0x80, 3, 4, 0xF5, 6];
   issuesB s 0 0 = true ∧ isLocal 0x200010008 = true ∧ localKind (0 / 4) 0x200010008 ≠ 0
   ∧ namesB s 0 1 true 0 2 0x200010008 0x10008 = true ∧ namesB s 0 1 true 0 4 0x200010008 0x10008 = true
   ∧ namesB s 0 1 true 0 8 0x200010008 0x10008 = true ∧ anyPoison s 0x200010008 8 = false
   ∧ after (.ldh 0 3 1 true 0) s (fun t => (ctxGet t 0).infl == [⟨3, .g 3, 0xFFFF8001, false⟩] && pGet (ctxGet t 0) 1 == 0x10010) = true
   ∧ after (.ldhu 0 3 1 true 0) s (fun t => (ctxGet t 0).infl == [⟨3, .g 3, 0x8001, false⟩]) = true
   ∧ gpmReg 2 7 = some (.m 7) ∧ after (.ldw 0 7 2 1 true 0) s (fun t => (ctxGet t 0).infl == [⟨3, .m 7, 0x04038001, false⟩]) = true
   ∧ after (.lda 0 3 1 true 0) s (fun t => (ctxGet t 0).infl == [⟨3, .a 3, 0xF504038001, false⟩]) = true
   ∧ after (.sth 0 2 0 false 1 true 0) s (fun t => memBytes t 0x200010008 4 == [0xEF, 0xCD, 3, 4] && pGet (ctxGet t 0) 1 == 0x10010) = true
   ∧ after (.sth 0 2 3 true 1 true 0) s (fun t => memBytes t 0x200010008 4 == [0, 0, 3, 4]) = true
   ∧ after (.stw 0 2 0 1 true 0) s (fun t => memBytes t 0x200010008 6 == [0xEF, 0xCD, 0xAB, 0x89, 0xF5, 6]) = true
   ∧ after (.stw 0 2 3 1 true 0) s (fun t => memBytes t 0x200010008 4 == [7, 0, 0, 0]) = true
   ∧ after (.sta 0 2 1 true 0) s (fun t => memBytes t 0x200010008 8 == [7, 0, 0, 0, 0, 0, 0, 0]) = true)
  ∧ (let s := running fun c => { c with p := [(1, 0x10008)] };
   namesB s 0 1 false 0x3FFC 2 0x200010000 0x10000 = true ∧ namesB s 0 1 false 1 2 0x20001000A 0x1000A = true) := by
  refine ⟨?_, ?_⟩ <;> decide +kernel

/-- States and operands that meet the hypotheses of each clause of `FarAccessesIssue`, and what stands after. -/
theorem witness_farAccessesIssue :
  (let s := running fun c => { c with p := [(1, 0x10000000)], g := [(2, 9), (3, 4)], m := [(1, 8)] };
   issuesB s 0 0 = true ∧ isLocal 0x10000000 = false ∧ (0x10000000 : Nat) < csrPa
   ∧ namesB s 0 1 true 0 2 0x10000000 0x10000000 = true ∧ namesB s 0 1 true 0 4 0x10000000 0x10000000 = true
   ∧ namesB s 0 1 true 0 8 0x10000000 0x10000000 = true ∧ namesB s 0 1 false 0 4 0x10000000 0x10000000 = true
   ∧ after (.ldh 0 5 1 true 0) s (fun t => (ctxGet t 0).state
          == .wait (.far (.load 2 true (.g 5) 0x10000000 0x10000000 (some (1, 0x10000008))))) = true
   ∧ after (.ldhu 0 5 1 true 0) s (fun t => (ctxGet t 0).state
          == .wait (.far (.load 2 false (.g 5) 0x10000000 0x10000000 (some (1, 0x10000008))))) = true
   ∧ after (.ldw 0 5 0 1 false 0) s (fun t => (ctxGet t 0).state == .wait (.far (.load 4 false (.g 5) 0x10000000 0x10000000 none))) = true
   ∧ after (.lda 0 3 1 false 0) s (fun t => (ctxGet t 0).state == .wait (.far (.load 8 false (.a 3) 0x10000000 0x10000000 none))) = true
   ∧ after (.aadd 0 5 2 1) s (fun t => (ctxGet t 0).state == .wait (.far (.aadd 5 9 0x10000000 0x10000000))) = true
   ∧ after (.acas 0 3 2 1) s (fun t => (ctxGet t 0).state == .wait (.far (.acas 3 4 9 0x10000000 0x10000000))) = true
   ∧ (engGet s 0).buf.length < 16
   ∧ after (.stw 0 2 0 1 false 0) s (fun t => (engGet t 0).buf == [⟨0, 0x10000000, 4, 9⟩] && t.mem == []) = true)
  ∧ (let s := engPut (running fun c => { c with p := [(1, 0x10000000)], g := [(2, 9)] }) 0
        { buf := List.replicate 16 ⟨1, 0x10000000, 4, 1⟩, last := 0, left := 0 };
   16 ≤ (engGet s (0 / 4)).buf.length ∧ issuesB s 0 0 = true
   ∧ after (.stw 0 2 0 1 false 0) s (fun t => (ctxGet t 0).state == .wait (.storeFull ⟨0, 0x10000000, 4, 9⟩)) = true)
  ∧ (let s := running fun c => { c with p := [(1, 0x80000000)] };
   namesB s 0 1 false 0 4 csrPa 0x80000000 = true ∧ issuesB s 0 0 = true ∧ isLocal csrPa = false) := by
  refine ⟨?_, ?_, ?_⟩ <;> decide +kernel

/-- States and operands that meet the hypotheses of each clause of `FarAccessesReturn`, and what stands after. -/
theorem witness_farAccessesReturn :
  (let s := memWrite (ctxPut State.reset 5 { Ctx.reset 5 with state := .wait (.far (.load 2 true (.g 3) 0x100000 0x100000000 (some (1, 0x100004)))) })
        0x100000000 [0xFE, 0xFF];
   groveBase 0 ≤ 0x100000000 ∧ (0x100000000 : Nat) + 8 ≤ groveBase 17 ∧ storesPending s 5 = false ∧ (ctxGet s 5).infl = []
   ∧ anyPoison s 0x100000000 2 = false
   ∧ after (.farLoadReturn 5) s (fun t => (ctxGet t 5).state == .ready && gGet (ctxGet t 5) 3 == 0xFFFFFFFE
          && pGet (ctxGet t 5) 1 == 0x100004) = true)
  ∧ (let s := memWrite (ctxPut State.reset 5 { Ctx.reset 5 with state := .wait (.far (.aadd 3 2 0x100000 0x100000000)), stopReq := true })
        0x100000000 [0xFF, 0xFF, 0xFF, 0xFF];
   storesPending s 5 = false ∧ anyPoison s 0x100000000 4 = false
   ∧ after (.farLoadReturn 5) s (fun t => (ctxGet t 5).state == .stopped && gGet (ctxGet t 5) 3 == 0xFFFFFFFF
          && memNat t 0x100000000 8 == 1) = true)
  ∧ (let s := memWrite (ctxPut State.reset 5 { Ctx.reset 5 with state := .wait (.far (.acas 3 7 9 0x100000 0x100000000)) })
        0x100000000 [7];
   storesPending s 5 = false ∧ anyPoison s 0x100000000 4 = false
   ∧ after (.farLoadReturn 5) s (fun t => gGet (ctxGet t 5) 3 == 7 && memNat t 0x100000000 4 == 9 && bitOf (ctxGet t 5).st 0) = true)
  ∧ (let s := memWrite (ctxPut State.reset 5 { Ctx.reset 5 with state := .wait (.far (.acas 3 8 9 0x100000 0x100000000)) })
        0x100000000 [7];
   after (.farLoadReturn 5) s (fun t => gGet (ctxGet t 5) 3 == 7 && memNat t 0x100000000 4 == 7 && ! bitOf (ctxGet t 5).st 0) = true)
  ∧ (let s := engPut State.reset 0 { buf := [⟨2, 0x100000008, 8, 0x0102030405060708⟩, ⟨1, 0, 4, 0⟩], last := 0, left := 0 };
   (engGet s (2 / 4)).buf = ⟨2, 0x100000008, 8, 0x0102030405060708⟩ :: [⟨1, 0, 4, 0⟩] ∧ 0x100000008 % 8 = 0
   ∧ groveBase 0 ≤ 0x100000008 ∧ 0x100000008 + 8 ≤ groveBase 17 ∧ anyPoison s 0x100000008 8 = false ∧ fullWait s (2 / 4) = none
   ∧ after (.farStorePerformed 2) s (fun t => (engGet t 0).buf == [⟨1, 0, 4, 0⟩]
          && memBytes t 0x100000008 8 == [8, 7, 6, 5, 4, 3, 2, 1] && t.csr == []) = true) := by
  refine ⟨?_, ?_, ?_, ?_, ?_⟩ <;> decide +kernel

/-- States and operands that meet the hypotheses of each clause of `BranchResults`, and what stands after. -/
theorem witness_branchResults :
  (let s := running fun c => { c with pc := 0x100, g := [(15, 0x80), (1, 0x40)] };
   issuesB s 0 0 = true ∧ branchBarred (ctxGet s 0) = false ∧ settledB (ctxGet s 0) = true
   ∧ condHolds 0 (ctxGet s 0).st = some true ∧ condHolds 1 (ctxGet s 0).st = some false
   ∧ after (.b 0 0 false 0xFFFFF) s (fun t => (ctxGet t 0).pend == some ⟨2, 0xFC, true, false⟩ && (ctxGet t 0).pc == 0x104) = true
   ∧ after (.b 0 1 true 5) s (fun t => (ctxGet t 0).pend == some ⟨2, 0x10C, false, true⟩) = true
   ∧ after (.call 0 false 2) s (fun t => (ctxGet t 0).pend == some ⟨2, 0x108, true, false⟩ && gGet (ctxGet t 0) 15 == 0x10C) = true
   ∧ (gGet (ctxGet s 0) 1).toNat % 4 = 0 ∧ (gGet (ctxGet s 0) 15).toNat % 4 = 0
   ∧ after (.jr 0 0 false 1) s (fun t => (ctxGet t 0).pend == some ⟨2, 0x40, true, false⟩) = true
   ∧ after (.jr 0 1 true 1) s (fun t => (ctxGet t 0).pend == some ⟨2, 0x10C, false, true⟩) = true
   ∧ after (.ret 0 false) s (fun t => (ctxGet t 0).pend == some ⟨2, 0x80, true, false⟩) = true
   ∧ after (.callr 0 false 15) s (fun t => (ctxGet t 0).pend == some ⟨2, 0x80, true, false⟩ && gGet (ctxGet t 0) 15 == 0x10C) = true) := by decide +kernel

/-- States and operands that meet the hypotheses of each clause of `LoopResultsAndEnd`, and what stands after. -/
theorem witness_loopResultsAndEnd :
  (let s := running fun c => { c with pc := 0x100, g := [(1, 7)] };
   issuesB s 0 0 = true ∧ branchBarred (ctxGet s 0) = false ∧ (ctxGet s 0).infl = [] ∧ ldepth (ctxGet s 0) < 2
   ∧ (3 : BitVec 16) ≠ 0 ∧ gGet (ctxGet s 0) 1 ≠ 0 ∧ gGet (ctxGet s 0) 2 = 0 ∧ 0x100 + 12 + 4 * 511 < 0x20000
   ∧ after (.loopImmediate 0 3 511) s (fun t => ldepth (ctxGet t 0) == 1 && spGet (ctxGet t 0) 1 == 3
          && spGet (ctxGet t 0) 2 == 0x10C && spGet (ctxGet t 0) 3 == 0x908 && (ctxGet t 0).pc == 0x104) = true
   ∧ after (.loopImmediate 0 0 0) s (fun t => ldepth (ctxGet t 0) == 0 && (ctxGet t 0).pend == some ⟨2, 0x110, true, false⟩) = true
   ∧ after (.loopRegister 0 1 1) s (fun t => spGet (ctxGet t 0) 1 == 7 && spGet (ctxGet t 0) 3 == 0x110) = true
   ∧ after (.loopRegister 0 2 1) s (fun t => (ctxGet t 0).pend == some ⟨2, 0x114, true, false⟩) = true)
  ∧ (let s := running fun c => { c with pc := 0x110, st := 0x400400, sp := [(1, 2), (2, 0x10C), (3, 0x110)] };
   issuesB s 0 0 = true ∧ (ctxGet s 0).infl = [] ∧ (ctxGet s 0).pend = none ∧ ldepth (ctxGet s 0) = 1
   ∧ (spGet (ctxGet s 0) 3).toNat = (ctxGet s 0).pc ∧ 1 < (spGet (ctxGet s 0) 1).toNat
   ∧ after (.nop 0) s (fun t => (ctxGet t 0).pc == 0x10C && spGet (ctxGet t 0) 1 == 1 && ldepth (ctxGet t 0) == 1) = true)
  ∧ (let s := running fun c => { c with pc := 0x110, st := 0x400400, sp := [(1, 1), (2, 0x10C), (3, 0x110)] };
   (spGet (ctxGet s 0) 1).toNat ≤ 1
   ∧ after (.nop 0) s (fun t => (ctxGet t 0).pc == 0x114 && ldepth (ctxGet t 0) == 0) = true) := by
  refine ⟨?_, ?_, ?_⟩ <;> decide +kernel

/-- States and operands that meet the hypotheses of each clause of `SystemGroup`, and what stands after. -/
theorem witness_systemGroup :
  (let s := ctxPut (running fun c => { c with st := 0x2400, holdCnt := 3 }) 2 { Ctx.reset 2 with state := .ready };
   issuesB s 0 0 = true ∧ settledB (ctxGet s 0) = true ∧ nextReady s 0 (0 % 4) = some 2 ∧ prioOf s 0 ≤ prioOf s 2
   ∧ after (.nop 0) s (fun t => (ctxGet t 0).pc == 4 && (ctxGet t 0).st == 0x2400) = true
   ∧ after (.fence 0) s (fun t => (ctxGet t 0).state == .wait .fence) = true
   ∧ after (.hold 0) s (fun t => stHold (ctxGet t 0) && (ctxGet t 0).pc == 4) = true
   ∧ after (.unhold 0) s (fun t => ! stHold (ctxGet t 0) && (ctxGet t 0).holdCnt == 0) = true
   ∧ after (.yield 0) s (fun t => (ctxGet t 0).state == .ready && (ctxGet t 0).pc == 4 && (ctxGet t 2).state == .running) = true)
  ∧ (let s := running id; nextReady s 0 (0 % 4) = none ∧ issuesB s 0 0 = true
   ∧ after (.yield 0) s (fun t => (ctxGet t 0).state == .running && (ctxGet t 0).pc == 4) = true) := by
  refine ⟨?_, ?_⟩ <;> decide +kernel

/-- States and operands that meet the hypotheses of each clause of `ExceptionEntry`, and what stands after. -/
theorem witness_exceptionEntry :
  (let s := csrPut (csrPut (ctxPut State.reset 512 { Ctx.reset 512 with state := .running, pc := 0x40, st := 0x2400, p := [(1, 0x10002)], g := [(3, 0x82)] })
        (engReg offGroveEngCtl 128) 0x100) (engReg offGroveEngExcv 128) 0x200;
   issuesB s 128 512 = true ∧ settledB (ctxGet s 512) = true ∧ 512 / 4 = 128 ∧ bitOf (csrGet s (engReg offGroveEngCtl 128)) 8 = true
   ∧ stExl (ctxGet s 512) = false ∧ branchBarred (ctxGet s 512) = false ∧ definedWord 0xFFFFFFFF = false
   ∧ (pGet (ctxGet s 512) 1).toNat % 4 ≠ 0
   ∧ after (.trap 128 0xFFFF) s (fun t => (ctxGet t 512).pc == 0x200 && spGet (ctxGet t 512) 7 == 0x44
          && spGet (ctxGet t 512) 10 == 6 && spGet (ctxGet t 512) 11 == 0xFFFF && spGet (ctxGet t 512) 9 == 0x2400
          && stExl (ctxGet t 512) && ! stHold (ctxGet t 512) && stPriv (ctxGet t 512)) = true
   ∧ after (.undefinedInstruction 128 0xFFFFFFFF) s (fun t => spGet (ctxGet t 512) 7 == 0x40 && spGet (ctxGet t 512) 10 == 1) = true
   ∧ after (.aadd 128 1 1 1) s (fun t => spGet (ctxGet t 512) 11 == 0x10002 && spGet (ctxGet t 512) 10 == 2) = true
   ∧ condHolds 1 (ctxGet s 512).st = some false ∧ (gGet (ctxGet s 512) 3).toNat % 4 ≠ 0
   ∧ after (.jr 128 1 false 3) s (fun t => (ctxGet t 512).pc == 0x200 && spGet (ctxGet t 512) 7 == 0x40
          && spGet (ctxGet t 512) 10 == 2 && spGet (ctxGet t 512) 11 == 0x82) = true)
  ∧ (let s := running fun c => { c with pc := 0x40 }; bitOf (csrGet s (engReg offGroveEngCtl 0)) 8 = false
   ∧ issuesB s 0 0 = true ∧ branchBarred (ctxGet s 0) = false
   ∧ after (.trap 0 1) s (fun t => (ctxGet t 0).state == .fault && (ctxGet t 0).pc == 0x44) = true
   ∧ after (.undefinedInstruction 0 0xFFFFFFFF) s (fun t => (ctxGet t 0).state == .fault && (ctxGet t 0).pc == 0x40) = true)
  ∧ (let s := csrPut (running fun c => { c with pc := 0x40, st := 0x4400 }) (engReg offGroveEngCtl 0) 0x100;
   stExl (flush (ctxGet s 0)) = true ∧ after (.trap 0 1) s (fun t => (ctxGet t 0).state == .fault) = true) := by
  refine ⟨?_, ?_, ?_⟩ <;> decide +kernel

/-- States and operands that meet the hypotheses of each clause of `ReturnFromException`, and what stands after. -/
theorem witness_returnFromException :
  (let s := running fun c => { c with pc := 0x200, st := 0x4400, sp := [(7, 0x44), (8, 0x300), (9, 0x940F), (10, 0x201)] };
   issuesB s 0 0 = true ∧ settledB (ctxGet s 0) = true ∧ stExl (ctxGet s 0) = true ∧ branchBarred (ctxGet s 0) = false
   ∧ after (.rte 0) s (fun t => (ctxGet t 0).pc == 0x44 && (ctxGet t 0).st == 0x140F
          && (ctxGet t 0).pend == some ⟨2, 0x300, true, false⟩) = true)
  ∧ (let s := running fun c => { c with pc := 0x200, st := 0xC400, sp := [(7, 0x47), (9, 0x8400)] };
   fld (spGet (ctxGet s 0) 10) 9 8 = 0 ∧ issuesB s 0 0 = true
   ∧ after (.rte 0) s (fun t => (ctxGet t 0).pc == 0x44 && (ctxGet t 0).pend == none && stPriv (ctxGet t 0)) = true) := by
  refine ⟨?_, ?_⟩ <;> decide +kernel

/-- Context 0 of engine 0 RUNNING with G1 a target word and G2 a value, context 5 changed. -/
def sending (w v : Word) (f : Ctx → Ctx) : State := ctxPut (operands w v) 5 (f (Ctx.reset 5))

/-- A signal queue of sixteen entries. -/
def fullQueue : List (Word × Word) := List.replicate 16 (1, 2)

/-- Context 0 of engine 0 with a far store of its own in the buffer. -/
def storing (s : State) : State := engPut s 0 { buf := [⟨0, 0x10000000, 4, 1⟩], last := 0, left := 0 }

/-- A HELD instance of template 3 on channel 4, with two of its slots filled. -/
def heldInst : Inst := ⟨9, 4, 3, [some 11, some 12, none, none], .held, 0x100000007, 0⟩

/-- Template 3, with slots 0 and 1 required, on list 0 in class 0, for grove 0. -/
def withTmpl (s : State) : State := tmplPut s 3 (some (0x33, 1))

/-- States and operands that meet the hypotheses of each clause of `DispatcherInstructions`, and what stands after. -/
theorem witness_dispatcherInstructions :
  (let s := sending 0x80000120 7 id; issuesB s 0 0 = true ∧ storesPending s 0 = false ∧ isKind1 0x80000120 = true
   ∧ undeliverable s 0x80000120 = none ∧ targetCtx 0x80000120 = 5 ∧ (ctxGet s 5).sigq.length < 16 ∧ (ctxGet s 0).task = none
   ∧ (ctxGet s 0).sigq = []
   ∧ after (.take 0 1) s (fun t => (ctxGet t 0).state == .wait (.take 1 0) && t.disp.takeSeq == 1) = true
   ∧ after (.done 0) s (fun t => (ctxGet t 0).state == .running) = true
   ∧ after (.signal 0 1 2) s (fun t => (ctxGet t 5).sigq == [(0, 7)] && (ctxGet t 0).state == .running) = true
   ∧ after (.doneDeliver 0 1 2) s (fun t => (ctxGet t 5).sigq == [(0, 7)] && (ctxGet t 0).task == none) = true
   ∧ after (.waitevt 0 9) s (fun t => (ctxGet t 0).state == .wait (.waitEvt (some 9))) = true
   ∧ after (.waitevt 0 0) s (fun t => (ctxGet t 0).state == .wait (.waitEvt none)) = true)
  ∧ (let s := storing (sending 0x80000120 7 fun c => { c with sigq := fullQueue });
   storesPending s 0 = true ∧ issuesB s 0 0 = true ∧ after (.done 0) s (fun t => (ctxGet t 0).state == .wait (.done none)) = true)
  ∧ (let s := sending 0x80000120 7 fun c => { c with sigq := fullQueue }; storesPending s 0 = false
   ∧ 16 ≤ (ctxGet s 5).sigq.length ∧ issuesB s 0 0 = true
   ∧ after (.signal 0 1 2) s (fun t => (ctxGet t 0).state == .wait (.signal 0x80000120 7)) = true
   ∧ after (.doneDeliver 0 1 2) s (fun t => (ctxGet t 0).state == .wait (.done (some (0x80000120, 7)))) = true)
  ∧ (let s := storing (running fun c => { c with task := some ⟨4, 3, 9, 0, 0, false, 0⟩ });
   storesPending s 0 = true ∧ (ctxGet s 0).task ≠ none ∧ issuesB s 0 0 = true
   ∧ after (.take 0 1) s (fun t => (ctxGet t 0).state == .wait (.takeEnd 1) && (ctxGet t 0).task.isSome) = true)
  ∧ (let s := running fun c => { c with sigq := [(5, 6), (7, 8)] }; issuesB s 0 0 = true
   ∧ after (.waitevt 0 9) s (fun t => gGet (ctxGet t 0) 0 == 5 && gGet (ctxGet t 0) 1 == 6 && (ctxGet t 0).sigq == [(7, 8)]) = true)
  ∧ (let s := sending 0 0 fun c => { c with state := .wait (.signal 0x80000000 7) };
   storesPending s 5 = false ∧ undeliverable s 0x80000000 = none ∧ targetCtx 0x80000000 = 0 ∧ (ctxGet s 0).sigq.length < 16
   ∧ after (.operandPlace 5) s (fun t => (ctxGet t 5).state == .ready && (ctxGet t 0).sigq == [(0x120, 7)]) = true)
  ∧ (let s := sending 0 0 fun c => { c with state := .wait (.done (some (0x80000000, 7))), stopReq := true };
   storesPending s 5 = false ∧ undeliverable s 0x80000000 = none
   ∧ after (.operandPlace 5) s (fun t => (ctxGet t 5).state == .stopped && (ctxGet t 0).sigq == [(0x120, 7)]) = true)
  ∧ (let s := withTmpl { sending 0 0 (fun c => { c with state := .wait (.signal 0x103FFFF 7) }) with
        disp := { DispSt.reset with insts := [⟨9, 0xFFFF, 3, [some 11, none, none, none], .open, 0, 0⟩] } };
   undeliverable s 0x103FFFF = none ∧ isKind1 0x103FFFF = false
   ∧ joinInst s 0xFFFF 3 1 = some ⟨9, 0xFFFF, 3, [some 11, none, none, none], .open, 0, 0⟩
   ∧ after (.operandPlace 5) s (fun t => (ctxGet t 5).state == .ready
          && t.disp.insts.any fun y => y.entry == 9 && y.val == [some 11, some 7, none, none]) = true)
  ∧ (let s := withTmpl (sending 0 0 fun c => { c with state := .wait (.signal 0x103FFFF 7) });
   undeliverable s 0x103FFFF = none ∧ joinInst s 0xFFFF 3 1 = none ∧ bpLevel s = 0
   ∧ storesPending s 5 = false ∧ (ctxGet s 5).state = .wait (.signal 0x103FFFF 7))
  ∧ (let s := csrPut (withTmpl { sending 0 0 (fun c => { c with state := .wait (.signal 0x103FFFF 7) }) with
        disp := { DispSt.reset with insts := [heldInst, { heldInst with entry := 8 }] } }) offDispBp 0xFFFF;
   undeliverable s 0x103FFFF = none ∧ joinInst s 0xFFFF 3 1 = none ∧ bpLevel s ≠ 0
   ∧ after (.operandPlace 5) s (fun t => t == s) = true)
  ∧ (let s := sending 0 0 fun c => { c with state := .wait (.done none), stopReq := true, task := some ⟨4, 3, 9, 0, 0, false, 0⟩ };
   storesPending s 5 = false ∧ after (.doneComplete 5) s (fun t => (ctxGet t 5).state == .stopped && (ctxGet t 5).task == none) = true)
  ∧ (let s := sending 0 0 fun c => { c with state := .wait (.takeEnd 3) }; storesPending s 5 = false
   ∧ after (.doneComplete 5) s (fun t => (ctxGet t 5).state == .wait (.take 3 0)) = true)
  ∧ (let s := sending 0 0 fun c => { c with state := .wait (.takeEnd 3), stopReq := true }; storesPending s 5 = false
   ∧ after (.doneComplete 5) s (fun t => (ctxGet t 5).state == .stopped && gGet (ctxGet t 5) 0 == 0xFFFFFFFF) = true)
  ∧ (let s := sending 0 0 fun c => { c with state := .wait (.waitEvt none), sigq := [(5, 6)] };
   after (.waitevtWake 5) s (fun t => (ctxGet t 5).state == .ready && gGet (ctxGet t 5) 0 == 5 && gGet (ctxGet t 5) 1 == 6) = true)
  ∧ (let s := { sending 0 0 (fun c => { c with state := .wait (.waitEvt (some 9)) }) with time := { TimeSt.reset with nfn := 9 } };
   (ctxGet s 5).sigq = [] ∧ 9 ≤ s.time.nfn.toNat
   ∧ after (.waitevtTimeout 5) s (fun t => (ctxGet t 5).state == .ready && gGet (ctxGet t 5) 0 == 0xFFFFFFFF) = true) := by
  refine ⟨?_, ?_, ?_, ?_, ?_, ?_, ?_, ?_, ?_, ?_, ?_, ?_, ?_, ?_, ?_⟩ <;> decide +kernel

/-- States and operands that meet the hypotheses of each clause of `TasksAndServices`, and what stands after. -/
theorem witness_tasksAndServices :
  (let s := withTmpl { State.reset with disp := { DispSt.reset with insts := [heldInst] } };
   s.disp.insts.find? (fun y => y.entry == 9) = some heldInst ∧ mayList s heldInst = true
   ∧ (∀ y ∈ s.disp.insts, y.entry = 9 ∨ tList (tmplA s y.tmpl) ≠ tList (tmplA s heldInst.tmpl) ∨ mayList s y = false
          ∨ heldInst.readySeq < y.readySeq)
   ∧ after (.instanceList 9) s (fun t => t.disp.insts == [{ heldInst with state := .listed }]) = true)
  ∧ (let s := withTmpl (ctxPut { State.reset with disp := { DispSt.reset with insts := [{ heldInst with state := .listed }] } } 2
        { Ctx.reset 2 with state := .wait (.take 1 0) });
   nextHand s = some (2, { heldInst with state := .listed })
   ∧ after .taskHand s (fun t => (ctxGet t 2).state == .ready && gGet (ctxGet t 2) 0 == 0x03030009 && gGet (ctxGet t 2) 1 == 4
          && gGet (ctxGet t 2) 2 == 7 && gGet (ctxGet t 2) 3 == 1 && gGet (ctxGet t 2) 4 == 11 && gGet (ctxGet t 2) 5 == 12
          && gGet (ctxGet t 2) 6 == 0 && t.disp.insts == []) = true)
  ∧ (let s := csrPut (csrPut { State.reset with dev := { DevSt.reset with run := true } } (offDispTmrTgt + 0x10 * 31) 0x80000120)
        (offDispTmrCtl + 0x10 * 31) 0x80000000;
   timerDue s 31 = true ∧ timerHeld s 31 = false ∧ csrGet s (offDispTmrTgt + 0x10 * 31) = 0x80000120 ∧ undeliverable s 0x80000120 = none
   ∧ (ctxGet s (targetCtx 0x80000120)).sigq.length < 16 ∧ smapGet none s.disp.tmr 31 = none
   ∧ after (.timerFire 31) s (fun t => (ctxGet t 5).sigq == [(0x1F8103, 0)]) = true)
  ∧ (let s := sending 0 0 fun c => { c with task := some ⟨4, 3, 9, 0, 0, false, 0⟩ }; fld 0x120 4 0 ≤ 16 ∧ engPresent s (freeCtx 0x120 / 4) = true
   ∧ (ctxGet s (freeCtx 0x120)).state = .stopped ∧ (ctxGet s (freeCtx 0x120)).task ≠ none
   ∧ after (.taskFree 0x120) s (fun t => csrGet t offDispFreeStat == 0x80000000 && (ctxGet t 5).task == none) = true)
  ∧ (let s := sending 0 0 fun c => { c with state := .fault }; engPresent s (freeCtx 0x120 / 4) = true ∧ (ctxGet s (freeCtx 0x120)).task = none
   ∧ after (.taskFree 0x120) s (fun t => csrGet t offDispFreeStat == 0x80000002) = true)
  ∧ (let s := sending 0 0 fun c => { c with state := .ready }; (ctxGet s (freeCtx 0x120)).state ≠ .stopped ∧ (ctxGet s (freeCtx 0x120)).state ≠ .fault
   ∧ after (.taskFree 0x120) s (fun t => csrGet t offDispFreeStat == 0x80000001) = true)
  ∧ (let s := withTmpl { State.reset with disp := { DispSt.reset with insts := [{ heldInst with chan := 16383 }, { heldInst with entry := 8 }] } };
   (relGet s 16383).en = false
   ∧ after (.channelPurge 16383) s (fun t => t.disp.insts.length == 1 && csrGet t offDispPurgeStat == 0x80000001) = true)
  ∧ (let s := withTmpl { State.reset with disp := { DispSt.reset with insts := [heldInst] } }; (9 : Nat) < 65536
   ∧ after (.matchingStoreError 9) s (fun t => t.disp.insts == [] && cntGet t offDispMserr == 1 && bitOf (csrGet t offDevFsum) 3) = true)
  ∧ (after (.matchingStoreError 65535) State.reset (fun t => cntGet t offDispMserr == 1) = true)
  ∧ (let s := csrPut { State.reset with disp := { DispSt.reset with blocked := [4] }, time := { TimeSt.reset with ticks := 8 } } offDispCtl 0x80000000;
   csrFld s offDispCtl 31 31 = 1 ∧ s.disp.blocked ≠ [] ∧ s.disp.dlkDirty = false ∧ s.disp.dlk = false ∧ s.disp.dlkT + 8 ≤ s.time.ticks
   ∧ after .deadlockDetect s (fun t => t.disp.dlk) = true) := by
  refine ⟨?_, ?_, ?_, ?_, ?_, ?_, ?_, ?_, ?_, ?_⟩ <;> decide +kernel

/-- States and operands that meet the hypotheses of each clause of `TemplateCommands`, and what stands after. -/
theorem witness_templateCommands :
  (let s := csrPut (csrPut (csrPut State.reset offDispTmplSel 254) offDispTmplA 0x33) offDispTmplB 0x10000;
   csrFld s offDispTmplSel 7 0 = 254 ∧ fld (csrGet s offDispTmplA) 7 4 = 3
   ∧ fld (csrGet s offDispTmplA) 7 4 &&& fld (csrGet s offDispTmplA) 3 0 = fld (csrGet s offDispTmplA) 7 4
   ∧ (∀ i, i < 4 → (fld (csrGet s offDispTmplA) 3 0).testBit i = true → (fld (csrGet s offDispTmplA) 7 4).testBit i = false
          → 2 ≤ tMode (csrGet s offDispTmplA) i)
   ∧ tmplGet s 254 = none ∧ bitOf (csrGet s offDispTmplB) 16 = true ∧ grovePresent s 16 = true
   ∧ after .tmplInstall s (fun t => csrGet t offDispTmplStat == 0x80000000 && tmplGet t 254 == some (0x33, 0x10000)) = true
   ∧ after .tmplRead s (fun t => csrGet t offDispTmplStat == 0x80000006) = true
   ∧ after .tmplRemove s (fun t => csrGet t offDispTmplStat == 0x80000006) = true)
  ∧ (let s := csrPut (withTmpl State.reset) offDispTmplSel 3; tmplGet s 3 = some (0x33, 1) ∧ tmplInUse s 3 = false
   ∧ after .tmplRead s (fun t => csrGet t offDispTmplA == 0x33 && csrGet t offDispTmplB == 1) = true
   ∧ after .tmplRemove s (fun t => csrGet t offDispTmplStat == 0x80000000 && tmplGet t 3 == none) = true)
  ∧ (let s := csrPut State.reset offDispTmplSel 255; csrFld s offDispTmplSel 7 0 = 255
   ∧ after .tmplInstall s (fun t => csrGet t offDispTmplStat == 0x80000001) = true
   ∧ after .tmplRead s (fun t => csrGet t offDispTmplStat == 0x80000001) = true
   ∧ after .tmplRemove s (fun t => csrGet t offDispTmplStat == 0x80000001) = true)
  ∧ (let s := State.reset; csrFld s offDispTmplSel 7 0 ≠ 255 ∧ fld (csrGet s offDispTmplA) 7 4 = 0
   ∧ after .tmplInstall s (fun t => csrGet t offDispTmplStat == 0x80000002) = true) := by
  refine ⟨?_, ?_, ?_, ?_⟩ <;> decide +kernel

/-- States and operands that meet the hypotheses of each clause of `ContextControlAndLoads`, and what stands after. -/
theorem witness_contextControlAndLoads :
  (let s := ctxPut State.reset 3 { Ctx.reset 3 with state := .ready }; runningOf s 0 = none ∧ nextReady s 0 (engGet s 0).left = some 3
   ∧ after (.contextSwitch 0) s (fun t => (ctxGet t 3).state == .running) = true)
  ∧ (let s := csrPut (ctxPut (running id) 3 { Ctx.reset 3 with state := .ready }) (engReg offGroveEngCtl 0) 0x00C00000;
   runningOf s 0 = some 0 ∧ stHold (ctxGet s 0) = false ∧ (ctxGet s 0).stopReq = false ∧ nextReady s 0 (0 % 4) = some 3 ∧ prioOf s 0 < prioOf s 3
   ∧ after (.contextSwitch 0) s (fun t => (ctxGet t 0).state == .ready && (ctxGet t 3).state == .running) = true)
  ∧ (let s := csrPut (running fun c => { c with st := 0x2400, holdCnt := 8193, pc := 0x40 }) (engReg offGroveEngCtl 0) 0x100;
   stHold (ctxGet s 0) = true ∧ holdLimit s 0 < (ctxGet s 0).holdCnt ∧ settledB (ctxGet s 0) = true ∧ runningOf s 0 = some 0
   ∧ bitOf (csrGet s (engReg offGroveEngCtl 0)) 8 = true ∧ stExl (ctxGet s 0) = false
   ∧ after (.holdTimeout 0) s (fun t => ! stHold (ctxGet t 0) && spGet (ctxGet t 0) 10 == 5 && spGet (ctxGet t 0) 7 == 0x40) = true
   ∧ (ctxGet s 0).state = .running ∧ after (.contextStop 0 0) s (fun t => (ctxGet t 0).state == .running && (ctxGet t 0).stopReq) = true)
  ∧ (engPresent State.reset 135 = true ∧ clockGated State.reset 135 = false ∧ (ctxGet State.reset 543).state = .stopped
   ∧ after (.contextStart 135 3) State.reset (fun t => (ctxGet t 543).state == .ready) = true
   ∧ after (.pcWrite 135 3 0xFFFFFFFF) State.reset (fun t => (ctxGet t 543).pc == 0x1FFFC) = true)
  ∧ (let s := running fun c => { c with pc := 0x40 }; (ctxGet s 0).state = .running ∧ stHold (ctxGet s 0) = false
   ∧ after (.contextStop 0 0) s (fun t => (ctxGet t 0).state == .stopped && (ctxGet t 0).pc == 0x40) = true)
  ∧ (let s := running fun c => { c with state := .wait .fence }; storesPending s 0 = false ∧ (ctxGet s 0).state = .wait .fence
   ∧ after (.fenceComplete 0 0) s (fun t => (ctxGet t 0).state == .ready) = true)
  ∧ (let s := csrPut (csrPut (csrPut State.reset (groveReg offGroveLdSrc 16) 0x19FFFFFC) (groveReg offGroveLdDst 16) 0x10000) (groveReg offGroveLdLen 16) 4;
   grovePresent s 16 = true ∧ smapGet none s.core.load 16 = none ∧ ldCode s 16 ⟨0x19FFFFFC, 0x10000, 4, false, false, 8 * 16 + fld 7 2 0⟩ = 0
   ∧ csrFld s (groveReg offGroveLdLen 16) 19 0 = 4 ∧ after (.loadUnitGo 16 7) s (fun t => bitOf (csrGet t (groveReg offGroveLdStat 16)) 0
          && smapGet none t.core.load 16 == some ⟨0x19FFFFFC, 0x10000, 4, false, false, 135⟩) = true)
  ∧ (let s := memWrite { State.reset with core := { CoreSt.reset with load := [(16, some ⟨0x19FFFFFC, 0x2FFFC, 4, false, false, 135⟩)] } } 0x19FFFFFC [1, 2, 3, 4];
   smapGet none s.core.load 16 = some ⟨0x19FFFFFC, 0x2FFFC, 4, false, false, 135⟩ ∧ 0x19FFFFFC + 4 ≤ hwEnd ∧ 0x2FFFC + 4 ≤ 0x30000
   ∧ engPresent s 135 = true ∧ ldBad s 0x19FFFFFC 4 = none
   ∧ after (.loadUnitDone 16) s (fun t => csrGet t (groveReg offGroveLdStat 16) == 2 && memBytes t (localBase 135 + 0x2FFFC) 4 == [1, 2, 3, 4]) = true) := by
  refine ⟨?_, ?_, ?_, ?_, ?_, ?_, ?_, ?_⟩ <;> decide +kernel

/-- States and operands that meet the hypotheses of each clause of `CoprocessorAndPrivilegedMoves`, and what stands after. -/
theorem witness_coprocessorAndPrivilegedMoves :
  (let s := running fun c => { c with g := [(0, 6), (1, 21), (2, 22), (3, 23), (8, 7)] };
   issuesB s 0 0 = true ∧ settledB (ctxGet s 0) = true ∧ (engGet s (0 / 4)).buf = [] ∧ s.eca.unit.q.length < 512
   ∧ s.eca.unit.q.head? = none ∧ s.rsf.unit.q.head? = none ∧ s.ciph.unit.q.head? = none
   ∧ after (.cpx 0 0 0) s (fun t => t.eca.unit.q == [⟨6, 21, 22, 23, 0, false⟩] && bitOf (ctxGet t 0).st 2) = true
   ∧ after (.cpx 0 1 2) s (fun t => t.rsf.unit.q == [⟨7, 0, 0, 0, 0, false⟩] && bitOf (ctxGet t 0).st 2) = true
   ∧ after (.cpx 0 2 2) s (fun t => t.ciph.unit.q == [⟨7, 0, 0, 0, 0, false⟩]) = true)
  ∧ (let full : List UnitCmd := List.replicate 512 ⟨0, 0, 0, 0, 0, false⟩;
   let s := { running (fun c => { c with st := 4 }) with eca := { unit := ⟨full, []⟩, busy := [] }, ciph := { CiphSt.reset with unit := ⟨full.take 256, []⟩ } };
   512 ≤ s.eca.unit.q.length ∧ 256 ≤ s.ciph.unit.q.length ∧ issuesB s 0 0 = true
   ∧ after (.cpx 0 0 0) s (fun t => ! bitOf (ctxGet t 0).st 2) = true ∧ after (.cpx 0 2 0) s (fun t => ! bitOf (ctxGet t 0).st 2) = true)
  ∧ (let s := ctxPut (ctxPut State.reset 512 { Ctx.reset 512 with state := .running, g := [(1, 99)] }) 515 { Ctx.reset 515 with m := [(7, 5)] };
   issuesB s 128 512 = true ∧ isSup (512 / 4) = true ∧ stPriv (ctxGet s 512) = true ∧ gpmReg 2 7 = some (.m 7) ∧ mfcAllowed s 512 (4 * 128 + 3) = true
   ∧ after (.mfc 128 3 2 7 3) s (fun t => gGet (ctxGet t 512) 3 == 5 && bitOf (ctxGet t 512).st 2) = true
   ∧ after (.mtc 128 1 2 7 3) s (fun t => mGet (ctxGet t 515) 7 == 99) = true
   ∧ mfcAllowed s 512 (4 * 128 + 0) = false
   ∧ after (.mfc 128 1 2 7 0) s (fun t => gGet (ctxGet t 512) 1 == 0 && ! bitOf (ctxGet t 512).st 2) = true
   ∧ after (.mtc 128 1 2 7 0) s (fun t => mGet (ctxGet t 512) 7 == 0) = true)
  ∧ (let s := csrPut (running fun c => { c with pc := 0x40 }) (engReg offGroveEngCtl 0) 0x100;
   isSup (0 / 4) = false ∧ stExl (ctxGet s 0) = false ∧ issuesB s 0 0 = true
   ∧ after (.mfc 0 3 2 7 3) s (fun t => spGet (ctxGet t 0) 10 == 1 && spGet (ctxGet t 0) 7 == 0x40) = true
   ∧ after (.mtc 0 3 2 7 3) s (fun t => spGet (ctxGet t 0) 10 == 1) = true) := by
  refine ⟨?_, ?_, ?_, ?_⟩ <;> decide +kernel

/-- Memory with EC record 0 fresh, owned by channel 6, in mode 1 with CFG 0x41. -/
def ecReady : State := memWrite State.reset 0x14000E00 ([0x43, 0x45, 6, 0, 0x41, 0, 0, 0, 0, 0, 0, 0, 0, 0, 0, 0]
    ++ [0xFF, 0xFF, 0, 0, 0, 0, 0, 0, 0xFF, 0xFF, 0, 0, 0, 0, 0, 0, 0xFF, 0xFF, 0, 0, 0, 0, 0, 0]
    ++ [0, 0, 0, 0, 0x80, 0, 0, 0])

/-- A command at the head of the ECA's queue. -/
def ecaCmd (s : State) (w0 w2 w3 : Word) : State :=
  { s with eca := { unit := ⟨[⟨w0, 0x80000120, w2, w3, 0, false⟩], []⟩, busy := [] } }

/-- The completion the ECA has left. -/
def ecaLeft (i : Instr) (s : State) (v : Word) (key : Nat) : Bool :=
  after i s fun t => t.eca.unit.q == [] && t.eca.busy == [0] && t.eca.unit.done == [⟨0x80000120, v, key⟩]

/-- Memory with an RSF state block at 0x10000000, owned by channel 6, both rates 8 kHz, no filter. -/
def rsfBlock : List Byte := [0x53, 0x52, 6, 0, 0, 0, 0, 0, 0, 0, 0, 0x11]

/-- Such a block whose output goes to the reference of EC record 0. -/
def rsfToRec : List Byte := [0x53, 0x52, 6, 0, 0, 2, 0, 0, 0, 0, 0, 0]

/-- A command at the head of the RSF's queue. -/
def rsfCmd (s : State) (w0 w2 w3 : Word) : State :=
  { s with rsf := { unit := ⟨[⟨w0, 0x80000120, w2, w3, 0, false⟩], []⟩, busy := [], side := [] } }

/-- The completion the RSF has left. -/
def rsfLeft (i : Instr) (s : State) : Bool :=
  after i s fun t => t.rsf.unit.q == [] && t.rsf.busy == [0] && t.rsf.unit.done == [⟨0x80000120, 0x500, 0x10000000⟩]

/-- States and operands that meet the hypotheses of each clause of `EcaCommands`, and what stands after. -/
theorem witness_ecaCommands :
  (let s := ecaCmd ecReady 0x00060001 0x00010000 0x10000000; ecaFree s = some 0 ∧ s.eca.unit.q.length = 1
   ∧ ecaFieldsOk ⟨0x00060001, 0x80000120, 0x00010000, 0x10000000, 0, false⟩ = true
   ∧ (ecaFind s ⟨0x00060001, 0x80000120, 0x00010000, 0x10000000, 0, false⟩).1 = 0 ∧ inHeartwood 0x10000000 80 = true
   ∧ 0x10000000 + 80 ≤ ecAddr s 0
   ∧ (ecBlock (ecRegs s 0) (ecOf (ecHeadBytes s (ecRefOf s 0)) []) 1 (samplesOf (memBytes s 0x10000000 80)) s.free).isSome = true)
  ∧ (let s := ecaCmd (memWrite ecReady 0x14000E2C [0]) 0x00060001 0x80000000 0x10000000;
   (ecBlock (ecRegs s 0) (ecOf (ecHeadBytes s (ecRefOf s 0)) []) 0x8000 (samplesOf (memBytes s 0x10000000 80)) s.free).isNone = true
   ∧ ecaLeft .ecaBlock s 0x40A 0 = true)
  ∧ (let s := ecaCmd State.reset 0x00060002 0x00003FFF 0x41;
   ecaFieldsOk ⟨0x00060002, 0x80000120, 0x00003FFF, 0x41, 0, false⟩ = true ∧ 0x3FFF < ecCount s ∧ fld (0x41 : Word) 2 0 = 1 ∧ ecCfgOk 0x41 = true
   ∧ ecaLeft .ecaInit s 0x400 0x3FFF3FFF = true)
  ∧ (let s := ecaCmd ecReady 0x00060003 0 0x10001000; (ecaFind s ⟨0x00060003, 0x80000120, 0, 0x10001000, 0, false⟩).1 = 0
   ∧ ecAreaOk s (ecRefOf s 0) 0x10001000 = true ∧ (ecRefOf s 0).mode = 1
   ∧ ecaFieldsOk ⟨0x00060003, 0x80000120, 0, 0x10001000, 0, false⟩ = true)
  ∧ (let s := ecaCmd (memWrite ecReady 0x10001E00 (memBytes ecReady 0x14000E00 0x30)) 0x00060004 0 0x10001000;
   let head := memBytes s 0x10001000 0x1000;
   ecaFieldsOk ⟨0x00060004, 0x80000120, 0, 0x10001000, 0, false⟩ = true ∧ anyPoison s 0x10001000 0x1000 = false
   ∧ leAt head 0xE00 2 = 0x4543 ∧ fld (wordOf (leAt head 0xE04 4)) 2 0 = 1 ∧ leAt head 0xE08 2 = 0 ∧ leAt head 0xE02 2 = 6
   ∧ fld (wordOf (leAt head 0xE2C 4)) 1 0 ≠ 3 ∧ fld (wordOf (leAt head 0xE2C 4)) 31 8 = 0
   ∧ winsOk 1 [leAt head 0xE10 2, leAt head 0xE18 2, leAt head 0xE20 2] = true)
  ∧ (let s := ecaCmd ecReady 0x00060005 0 0; ecaFieldsOk ⟨0x00060005, 0x80000120, 0, 0, 0, false⟩ = true
   ∧ (ecaFind s ⟨0x00060005, 0x80000120, 0, 0, 0, false⟩).1 = 0 ∧ ecaLeft .ecaReset s 0x400 0 = true)
  ∧ (let s := ecaCmd ecReady 0x00060006 0 0x21; ecaFieldsOk ⟨0x00060006, 0x80000120, 0, 0x21, 0, false⟩ = true ∧ ecCfgOk 0x21 = true
   ∧ (ecaFind s ⟨0x00060006, 0x80000120, 0, 0x21, 0, false⟩).1 = 0 ∧ (ecOf (ecHeadBytes s (ecRefOf s 0)) []).tone ≠ 2
   ∧ ecaLeft .ecaSetcfg s 0x400 0 = true)
  ∧ (let s := ecaCmd State.reset 0x00060005 0x4000 0; (ecaFind s ⟨0x00060005, 0x80000120, 0x4000, 0, 0, false⟩).1 = 2
   ∧ ecaFieldsOk ⟨0x00060005, 0x80000120, 0x4000, 0, 0, false⟩ = true
   ∧ ecaLeft .ecaReset s 0x402 0x40004000 = true)
  ∧ (let s := ecaCmd State.reset 0x00060003 0 0; (ecaFind s ⟨0x00060003, 0x80000120, 0, 0, 0, false⟩).1 = 3
   ∧ ecaLeft .ecaSave s 0x403 0 = true)
  ∧ (let s := ecaCmd ecReady 0x00070003 0 0; (ecaFind s ⟨0x00070003, 0x80000120, 0, 0, 0, false⟩).1 = 4
   ∧ ecaLeft .ecaSave s 0x404 0 = true) := by
  refine ⟨?_, ?_, ?_, ?_, ?_, ?_, ?_, ?_, ?_, ?_⟩ <;> decide +kernel

/-- States and operands that meet the hypotheses of each clause of `RsfCommandsAndCompletions`, and what stands after. -/
theorem witness_rsfCommandsAndCompletions :
  (let s := memWrite (rsfCmd (memWrite State.reset 0x10000000 rsfBlock) 0x00060001 0x10000000 0x10001000) 0x10001000 [0, 0, 3];
   let c : UnitCmd := ⟨0x00060001, 0x80000120, 0x10000000, 0x10001000, 0, false⟩;
   rsfFree s = some 0 ∧ rsfFieldsOk c = true ∧ blockAddrOk s 0x10000000 = true ∧ firstBad s 0x10000000 1024 = none
   ∧ (chainOf (memBytes s 0x10000000 1024)).magic = 0x5253 ∧ (chainOf (memBytes s 0x10000000 1024)).owner = fld c.w0 31 16
   ∧ outN (chainOf (memBytes s 0x10000000 1024)).cfg ≠ 0 ∧ inHeartwood 0x10001000 16 = true
   ∧ destRec (chainOf (memBytes s 0x10000000 1024)).cfg = false
   ∧ leAt (memBytes s 0x10001000 16) 0 2 ≤ 480 ∧ byteAt (memBytes s 0x10001000 16) 2 = 3 ∧ byteAt (memBytes s 0x10001000 16) 3 = 0)
  ∧ (let s := memWrite (rsfCmd (memWrite ecReady 0x10000000 rsfToRec) 0x00060001 0x10000000 0x10001000) 0x10001000 [0, 0, 0];
   let x := chainOf (memBytes s 0x10000000 1024);
   destRec x.cfg = true ∧ meets (regionOf s offDevHwlEc) (regionOf s offDevHwlCell) = false ∧ x.magic = 0x5253 ∧ x.owner = 6
   ∧ fld x.dest 15 0 = 0 ∧ 0 < ecCount s ∧ ecMagic s 0 = 0x4543 ∧ (ecRefOf s 0).owner = x.owner ∧ outN x.cfg = 40
   ∧ (ecRefOf s 0).mode = 1)
  ∧ (let s := memWrite (rsfCmd (memWrite State.reset 0x10000000 rsfToRec) 0x00060001 0x10000000 0x10001000) 0x10001000 [0, 0, 0];
   destRec (chainOf (memBytes s 0x10000000 1024)).cfg = true ∧ ecMagic s 0 ≠ 0x4543)
  ∧ (let s := rsfCmd (memWrite State.reset 0x10000400 rsfBlock) 0x00060002 0x10000000 0x10000400; rsfImage 0x10000400 1024 1024 = true
   ∧ anyPoison s 0x10000400 1024 = false ∧ chainOk (chainOf (memBytes s 0x10000400 1024)) = true
   ∧ rsfLeft .rsfInit s = true)
  ∧ (let s := rsfCmd (memWrite State.reset 0x10000000 rsfBlock) 0x00060003 0x10000000 0x10000408; rsfImage 0x10000408 8 184 = true
   ∧ (chainOf (memBytes s 0x10000000 1024)).xfkind ≠ 1 ∧ bankOk (chainOf (memBytes s 0x10000000 1024)).cfg (memBytes s 0x10000408 184) = true
   ∧ rsfLeft .rsfLoadbank s = true)
  ∧ (let s := rsfCmd (memWrite State.reset 0x10000000 rsfBlock) 0x00060104 0x10000000 39; rsfFieldsOk ⟨0x00060104, 0, 0, 39, 0, false⟩ = true
   ∧ rsfLeft .rsfSetdelay s = true ∧ after .rsfSetdelay s (fun t => (chainOf (memBytes t 0x10000000 1024)).delayNew == 39) = true)
  ∧ (let s := rsfCmd (memWrite State.reset 0x10000000 rsfBlock) 0x00060005 0x10000000 0xFFFFFFF0; rsfLeft .rsfSetratio s = true
   ∧ after .rsfSetratio s (fun t => (chainOf (memBytes t 0x10000000 1024)).trim == -16) = true)
  ∧ (let s := rsfCmd (memWrite State.reset 0x10000000 rsfBlock) 0x00060006 0x10000000 0x10000400; rsfLeft .rsfSave s = true
   ∧ after .rsfSave s (fun t => memBytes t 0x10000400 12 == rsfBlock) = true)
  ∧ (let s := rsfCmd (memWrite State.reset 0x10000400 rsfBlock) 0x00060007 0x10000000 0x10000400;
   let y := chainOf (memBytes s 0x10000400 1024);
   y.magic = 0x5253 ∧ y.owner = 6 ∧ chainOk y = true ∧ rsfLeft .rsfRestore s = true)
  ∧ (let x : Completion := ⟨0x80000120, 9, 0⟩; let u : UnitSt := ⟨[], [x]⟩;
   let s := { State.reset with eca := { unit := u, busy := [2] }, rsf := { unit := u, busy := [1], side := [] }, ciph := { CiphSt.reset with unit := u } };
   s.eca.unit.q.head? = none ∧ s.rsf.unit.q.head? = none ∧ s.ciph.unit.q.head? = none ∧ isKind1 x.target = true ∧ undeliverable s x.target = none ∧ (ctxGet s (targetCtx x.target)).sigq.length < 16
   ∧ after (.ecaCompletionDeliver 0) s (fun t => (ctxGet t 5).sigq == [(0x8004, 9)] && t.eca.unit.done == [] && t.eca.busy == []) = true
   ∧ after (.rsfCompletionDeliver 0) s (fun t => (ctxGet t 5).sigq == [(0x8005, 9)] && t.rsf.busy == []) = true
   ∧ after (.ciphCompletionDeliver 0) s (fun t => (ctxGet t 5).sigq == [(0x800D, 9)]) = true)
  ∧ (let y : CrucDone := ⟨0x80000120, 9, 0, 0⟩; let s := { State.reset with cruc := { CrucSt.reset with done := [y] } };
   y.queue ≠ 2 ∧ crucInOrder s y = true ∧ after (.crucCompletionDeliver 0) s (fun t => (ctxGet t 5).sigq == [(0x800E, 9)] && t.cruc.done == []) = true) := by
  refine ⟨?_, ?_, ?_, ?_, ?_, ?_, ?_, ?_, ?_, ?_, ?_⟩ <;> decide +kernel

/-- Cell `c` out of the clearing, alone in an item that holds `bs`. -/
def cellItem (s : State) (c : Nat) (bs : List Byte) : State :=
  let s1 := memWrite s (cellAddr s c) (cellHeader 0 true 0 bs.length 0 ++ bs)
  { s1 with qmgr := { s1.qmgr with used := insertRising s1.qmgr.used c } }

/-- Channel 6 accepted with two queues, two flow entries and the given records and slots. -/
def bound6 (ec keys : List Nat) : Binding := ⟨ec, keys, 1, 10, 11, 12, 13, false, 4, 0, 0, []⟩

/-- Key slot 7 LOADED with zero keys, for sending or receiving, of channel 6. -/
def withSlot (s : State) (send : Bool) : State :=
  bindPut (keySlotPut s 7 { KeySlot.reset with
    state := .loaded, profile := 1, send := send, ssrc := 0xDEADBEEF, key := zeros 16, salt := zeros 12
    ckey := zeros 16, csalt := zeros 12 }) 6 (some (bound6 [] [7]))

/-- A command at the head of the cipher engine's queue. -/
def ciphCmd (s : State) (w0 w2 w3 : Word) (priv : Bool) : State :=
  { s with ciph := { s.ciph with unit := ⟨[⟨w0, 0x80000120, w2, w3, 0, priv⟩], []⟩ } }

/-- The completion the cipher engine has left, and what holds of the state. -/
def ciphLeft (i : Instr) (s : State) (v : Word) (key : Nat) (p : State → Bool) : Bool :=
  after i s fun t => t.ciph.unit.q == [] && t.ciph.unit.done == [⟨0x80000120, v, key⟩] && p t

/-- An RTP packet of three bytes under SSRC 0xDEADBEEF, and what protection makes of it. -/
def rtpPlain : List Byte := zeros 16 ++ [128, 0, 0, 0, 0, 0, 0, 0, 222, 173, 190, 239, 1, 2, 3]
def rtpSealed : List Byte := zeros 16 ++ [128, 0, 0, 0, 0, 0, 0, 0, 222, 173, 190, 239, 243, 194, 252, 126, 146, 245, 239,
  255, 64, 66, 149, 144, 46, 77, 224, 67, 104, 76, 144]

/-- An RTCP packet with one byte past its header, and what protection makes of it. -/
def rtcpPlain : List Byte := zeros 16 ++ [128, 200, 0, 1, 222, 173, 190, 239, 9]
def rtcpSealed : List Byte := zeros 16 ++ [128, 200, 0, 1, 222, 173, 190, 239, 251, 37, 139, 207, 247, 34, 139, 100, 175, 67,
  69, 162, 24, 207, 56, 38, 128, 128, 0, 0, 0]

/-- A key wrapped under the KEK of zeros, at the start of heartwood, and its plaintext. -/
def keyPlain : List Byte := [1, 1, 0, 0, 239, 190, 173, 222, 5, 0, 0, 0, 0, 0, 0, 0] ++ (List.range 16).map (BitVec.ofNat 8)
  ++ (List.range 12).map fun i => BitVec.ofNat 8 (64 + i)
def keyBlob : List Byte := [232, 107, 78, 238, 58, 100, 164, 46, 52, 198, 45, 7, 141, 162, 107, 33, 138, 15, 193, 191, 49, 226,
  149, 161, 33, 209, 20, 163, 56, 252, 63, 240, 164, 102, 128, 26, 13, 171, 244, 77, 110, 152, 135, 81, 154, 81, 240, 252,
  122, 29, 17, 140, 138, 120, 147, 79]
def withKek : State := { memWrite State.reset 0x10000000 keyBlob with ciph := { CiphSt.reset with kek := some (zeros 32) } }

/-- A point of P-256, its base point, in the registers of the key server. -/
def pubWords : List Word := [0x6B17D1F2, 0xE12C4247, 0xF8BCE6E5, 0x63A440F2, 0x77037D81, 0x2DEB33A0, 0xF4A13945, 0xD898C296,
  0x4FE342E2, 0xFE1A7F9B, 0x8EE7EB4A, 0x7C0F9E16, 0x2BCE3357, 0x6B315ECE, 0xCBB64068, 0x37BF51F5]
def putWords (s : State) (o : Nat) (ws : List Word) : State :=
  match ws with
  | [] => s
  | w :: r => putWords (csrPut s o w) (o + 4) r

/-- The state with the EC region cut to half, so that 0x16000000 to 0x18000000 is free. -/
def roomy : State := csrPut State.reset offDevHwlEc 0x02000400

/-- A request of the CPX queue of the crucible. -/
def crucCmd (s : State) (w0 w2 w3 : Word) : State :=
  { s with cruc := { CrucSt.reset with q := [⟨w0, 0x80000120, w2, w3, 0, 0, 0, none⟩], seq := 1 } }

/-- A context header: KIND, LEVEL and WBITS 9, owned by channel 6. -/
def ctxHead (kind level : Nat) : List Byte := [0x52, 0x43, 6, 0] ++ leBytes 1 kind ++ leBytes 1 level ++ [9, 0]

/-- A data request on the context at 0x16000000 that `head` begins, from 0x16010000 to 0x1600C000, with P1, P2
and P3 in the header. -/
def crucData (w0 : Word) (head : List Byte) (params : List Byte) (bs : List Byte) : State :=
  let s := memWrite (memWrite (memWrite roomy 0x16000000 head) 0x1600001C params) 0x16008000
    ([0, 0, 1, 0x16] ++ leBytes 4 bs.length ++ [0, 0xC0, 0, 0x16, 0, 0x40, 0, 0])
  crucCmd (memWrite s 0x16010000 bs) w0 0x16008000 0x16000000

/-- States and operands that meet the hypotheses of each clause of `CipherPackets`, and what stands after. -/
theorem witness_cipherPackets :
  (let s := ciphCmd (withSlot (cellItem State.reset 5 rtpPlain) true) 0x00060001 0x00040005 0xFFFF0007 false;
   ciphHeld s = false ∧ (keySlotGet s 7).state = .loaded ∧ slotCode s 7 6 true = 0 ∧ itemCode s 0x00040005 = 0 ∧ hasRoom s (itemOf 0x00040005) 16 = true
   ∧ 16 ≤ (itemBytes s (itemOf 0x00040005)).length ∧ (protect (keySlotGet s 7) ((itemBytes s (itemOf 0x00040005)).drop 16)).code = 0
   ∧ ciphLeft (.ciphProtect false) s 0xD00 7 (fun t => cntGet t offCiphProt == 1 && (keySlotGet t 7).idx == 1) = true
   ∧ ciphLeft (.ciphProtect true) s 0xD52 7 (fun t => (keySlotGet t 7).state == .fault) = true)
  ∧ (let s := ciphCmd (withSlot (cellItem State.reset 5 rtcpPlain) true) 0x00060002 0x00040005 0xFFFF0007 false;
   (protectRtcp (keySlotGet s 7) ((itemBytes s (itemOf 0x00040005)).drop 16)).code = 0 ∧ hasRoom s (itemOf 0x00040005) 20 = true
   ∧ ciphLeft (.ciphProtectRtcp false) s 0xD00 7 (fun t => cntGet t offCiphProt == 1 && (keySlotGet t 7).cidx == 1) = true)
  ∧ (let s := ciphCmd (withSlot (cellItem State.reset 5 rtpSealed) false) 0x00060003 0x00040005 0xFFFF0007 false;
   (unprotect (keySlotGet s 7) ((itemBytes s (itemOf 0x00040005)).drop 16)).code = 0 ∧ slotCode s 7 6 false = 0
   ∧ ciphLeft (.ciphUnprotect false) s 0xD00 7 (fun t => cntGet t offCiphUnprot == 1 && ! (keySlotGet t 7).fresh) = true)
  ∧ (let s := ciphCmd (withSlot (cellItem State.reset 5 rtcpSealed) false) 0x00060004 0x00040005 0xFFFF0007 false;
   (unprotectRtcp { keySlotGet s 7 with cwin := 0 } ((itemBytes s (itemOf 0x00040005)).drop 16)).code = 0
   ∧ ciphLeft (.ciphUnprotectRtcp false) s 0xD00 7 (fun t => cntGet t offCiphUnprot == 1) = true)
  ∧ (let s := ciphCmd State.reset 0x00060003 0x00040005 0xFFFF7FFF false; (keySlotGet s 32767).state = .empty
   ∧ ciphLeft (.ciphUnprotect false) s 0xD41 32767 (fun t => t.mem == []) = true)
  ∧ (let s := ciphCmd (keySlotPut State.reset 7 { KeySlot.reset with state := .fault }) 0x00060001 0x00040005 0xFFFF0007 false;
   (keySlotGet s 7).state = .fault ∧ ciphHeld s = false
   ∧ ciphLeft (.ciphProtect true) s 0xD42 7 (fun t => (keySlotGet t 7).state == .fault && t.csr == s.csr) = true)
  ∧ (let r : RxSecure := ⟨6, 0, ⟨5, 1⟩⟩;
   let s := { withSlot (cellItem State.reset 5 rtpSealed) false with pkt := { PktSt.reset with secure := [r] } };
   bindGet s 6 = some (bound6 [] [7]) ∧ (bound6 [] [7]).keys.headD 32768 = 7 ∧ slotCode s 7 6 false = 0 ∧ 16 ≤ (itemBytes s r.item).length
   ∧ (unprotect (keySlotGet s 7) ((itemBytes s r.item).drop 16)).code = 0
   ∧ after (.ciphRxUnprotect false) s (fun t => t.pkt.secure == [] && cntGet t offCiphUnprot == 1) = true)
  ∧ (let r : RxSecure := ⟨6, 0, ⟨5, 1⟩⟩;
   let s := { withSlot (cellItem State.reset 5 rtpPlain) false with pkt := { PktSt.reset with secure := [r] } };
   (unprotect (keySlotGet s 7) ((itemBytes s r.item).drop 16)).code ≠ 0
   ∧ after (.ciphRxUnprotect false) s (fun t => t.pkt.secure == [] && cntGet t offCiphUnprot == 0) = true) := by
  refine ⟨?_, ?_, ?_, ?_, ?_, ?_, ?_, ?_⟩ <;> decide +kernel

/-- States and operands that meet the hypotheses of each clause of `KeySlotCommands`, and what stands after. -/
theorem witness_keySlotCommands :
  (let s := ciphCmd withKek 0x00060005 0x10000000 0x00387FFF true; slotBound s 32767 = none ∧ (56 : Nat) = fld (0x00387FFF : Word) 23 16
   ∧ inHeartwood 0x10000000 56 = true ∧ anyPoison s 0x10000000 56 = false ∧ blobOk keyPlain = true ∧ (slotOf keyPlain).idx < 2 ^ 48 - 2 ^ 20
   ∧ s.ciph.kek = some (zeros 32) ∧ keyUnwrap (zeros 32) (memBytes s 0x10000000 56) = some keyPlain)
  ∧ (let s := ciphCmd (keySlotPut State.reset 7 { KeySlot.reset with state := .loaded }) 6 0 7 true; slotBound s 7 = none
   ∧ ciphLeft .ciphErase s 0xD00 7 (fun t => keySlotGet t 7 == KeySlot.reset) = true)
  ∧ (let s := ciphCmd (keySlotPut State.reset 7 { KeySlot.reset with state := .loaded }) 7 0 7 true; (keySlotGet s 7).state = .loaded
   ∧ ciphLeft .ciphRetire s 0xD00 7 (fun t => (keySlotGet t 7).state == .retired) = true)
  ∧ (let s0 := ciphCmd (keySlotPut State.reset 7 { KeySlot.reset with state := .loaded }) 7 0 7 true; let s := { s0 with ciph := { s0.ciph with parity := [7] } };
   (keySlotGet s 7).state = .loaded ∧ 7 ∈ s.ciph.parity ∧ ciphLeft .ciphRetire s 0xD52 7 (fun t => (keySlotGet t 7).state == .fault && t.ciph.parity == []) = true)
  ∧ (ciphLeft .ciphImport (ciphCmd State.reset 5 0 7 false) 0xD53 7 (fun t => t.ciph.slot == []) = true
   ∧ ciphLeft .ciphErase (ciphCmd State.reset 6 0 7 false) 0xD53 7 (fun t => t.ciph.slot == []) = true
   ∧ ciphLeft .ciphRetire (ciphCmd State.reset 7 0 7 false) 0xD53 7 (fun t => t.ciph.slot == []) = true)
  ∧ (let s := csrPut (csrPut (csrPut withKek offCiphImpSlot 9) offCiphImpAddr 0x10000000) offCiphImpLen 56;
   impSlot s = 9 ∧ (csrGet s offCiphImpAddr).toNat = 0x10000000 ∧ csrFld s offCiphImpLen 6 0 = 56 ∧ slotBound s 9 = none ∧ s.ciph.kek = some (zeros 32))
  ∧ (let s := csrPut (keySlotPut State.reset 9 { KeySlot.reset with state := .loaded }) offCiphImpSlot 9; impSlot s ≤ 32767
   ∧ (keySlotGet s (impSlot s)).state = .loaded
   ∧ after .ciphImpErase s (fun t => csrGet t offCiphImpStat == 0x80000000 && keySlotGet t 9 == KeySlot.reset) = true
   ∧ after .ciphImpRetire s (fun t => (keySlotGet t 9).state == .retired) = true
   ∧ after .kekDerive s (fun t => t.ciph.deriving_) = true)
  ∧ (let s := putWords { State.reset with ciph := { CiphSt.reset with deriving_ := true } } offCiphKekpub pubWords;
   s.ciph.deriving_ = true ∧ onCurve (kekPub s) = true
   ∧ after .kekDeriveDone s (fun t => ! t.ciph.deriving_ && t.ciph.kek.isSome && csrGet t offCiphKekgen == 1 && csrGet t offCiphKekstat == 0x80000000) = true)
  ∧ (let s := { State.reset with ciph := { CiphSt.reset with deriving_ := true } }; onCurve (kekPub s) = false
   ∧ after .kekDeriveDone s (fun t => t.ciph.kek.isNone && csrGet t offCiphKekstat == 0x80000001) = true) := by
  refine ⟨?_, ?_, ?_, ?_, ?_, ?_, ?_, ?_, ?_⟩ <;> decide +kernel

/-- States and operands that meet the hypotheses of each clause of `CrucibleRequests`, and what stands after. -/
theorem witness_crucibleRequests :
  (let r : CrucReq := ⟨0x00060003, 0x80000120, 0x000004C9, 0x16000000, 0, 0, 0, none⟩; let s := crucCmd roomy r.w0 r.w2 r.w3;
   crucHeld s = false ∧ s.cruc.q.all crucKnown = true ∧ crucNext s = some r ∧ flagsOk r = true ∧ reqCode r = 3 ∧ ctxParamsOk (initCtx r) = true
   ∧ areaOk s true 0x16000000 8192 = true ∧ ctxSize (initCtx r).kind (initCtx r).wbits = 8192 ∧ (initCtx r).kind ≤ 2 ∧ fld r.w2 31 11 = 0
   ∧ after .crucInit s (fun t => t.cruc.q == [] && t.cruc.done == [⟨0x80000120, 0xE00, 0, 0⟩]) = true)
  ∧ (let r : CrucReq := ⟨0x00060004, 0x80000120, 0x16004000, 0x16000000, 0, 0, 0, none⟩;
   let s := crucCmd (memWrite roomy 0x16000000 (ctxHead 1 9)) r.w0 r.w2 r.w3; let ca := ctxOf (memBytes s 0x16000000 64);
   crucNext s = some r ∧ flagsOk r = true ∧ firstPoison s 0x16000000 8192 = none ∧ ca.magic = 0x4352 ∧ ctxParamsOk ca = true
   ∧ ctxSize ca.kind ca.wbits = 8192 ∧ areaOk s false 0x16004000 8192 = true ∧ disjoint 0x16000000 8192 0x16004000 8192 = true
   ∧ reqChan r = ca.owner)
  ∧ (let r : CrucReq := ⟨0x00060005, 0x80000120, 0x16004000, 0x16000000, 0, 0, 0, none⟩;
   let s := crucCmd (memWrite roomy 0x16004000 (ctxHead 1 9)) r.w0 r.w2 r.w3; let cd := ctxOf (memBytes s 0x16004000 64);
   crucNext s = some r ∧ flagsOk r = true ∧ firstPoison s 0x16004000 8192 = none ∧ cd.magic = 0x4352 ∧ ctxParamsOk cd = true
   ∧ cd.wfill ≤ ctxWindow cd ∧ reqChan r = cd.owner ∧ areaOk s true 0x16000000 8192 = true ∧ areaOk s false 0x16004000 8192 = true
   ∧ disjoint 0x16000000 8192 0x16004000 8192 = true)
  ∧ (let r : CrucReq := ⟨0x00060001, 0x80000120, 0x16008000, 0x16000000, 0, 0, 0, none⟩;
   let s := crucCmd (memWrite (memWrite roomy 0x16000000 (ctxHead 1 9)) 0x16008000 ([0, 0x10, 0, 0x16, 0, 0x40, 0, 0, 0, 0xC0, 0, 0x16, 0, 0x40, 0, 0])) r.w0 r.w2 r.w3;
   let ca := ctxOf (memBytes s 0x16000000 64); let x := dataOf s r;
   crucNext s = some r ∧ flagsOk r = true ∧ x.d = 0x16008000 ∧ areaOk s false x.d 32 = true ∧ firstPoison s 0x16000000 64 = none
   ∧ firstPoison s x.d 32 = none ∧ kindServes (reqCode r) ca.kind = true ∧ ca.sflags.testBit 0 = false ∧ reqChan r = ca.owner
   ∧ areasBad s { x with src := 0x16010000 } 0x16000000 8192 = false)
  ∧ (let r : CrucReq := ⟨0x00060001, 0x80000120, 0x16008000, 0x16000000, 0, 0, 0, none⟩;
   let s := crucCmd (memWrite (memWrite roomy 0x16000000 (ctxHead 1 9)) 0x16008000 ([0, 0, 1, 0x16, 4, 0, 0, 0, 0, 0xC0, 0, 0x16, 0, 0x40, 0, 0])) r.w0 r.w2 r.w3;
   let ca := ctxOf (memBytes s 0x16000000 64); let x := dataOf s r;
   crucNext s = some r ∧ flagsOk r = true ∧ areasBad s x 0x16000000 8192 = false ∧ firstPoison s x.src x.len = none
   ∧ ca.magic = 0x4352 ∧ ctxParamsOk ca = true ∧ kindServes (reqCode r) ca.kind = true ∧ ctxSize ca.kind ca.wbits = 8192)
  ∧ (let r : CrucReq := ⟨0x00060002, 0x80000120, 0x16008000, 0x16000000, 0, 0, 0, none⟩;
   let s := crucCmd (memWrite (memWrite roomy 0x16000000 (ctxHead 2 0)) 0x16008000 ([0, 0, 1, 0x16, 5, 0, 0, 0, 0, 0xC0, 0, 0x16, 4, 0, 0, 0])) r.w0 r.w2 r.w3;
   let s := memWrite s 0x16010000 [1, 0, 0, 0xFF, 0xFF]; let ca := ctxOf (memBytes s 0x16000000 64); let x := dataOf s r;
   crucNext s = some r ∧ flagsOk r = true ∧ areasBad s x 0x16000000 8192 = false ∧ firstPoison s x.src x.len = none
   ∧ ca.magic = 0x4352 ∧ ctxParamsOk ca = true ∧ kindServes (reqCode r) ca.kind = true
   ∧ after .crucDecompress s (fun t => t.cruc.q == []) = true)
  ∧ (let s := crucData 0x00060001 (ctxHead 1 9) [] []; let ca := ctxOf (memBytes s 0x16000000 64);
   let e := defRun s 0x16000000 ca (ctxEngine s 0x16000000) [] false false;
   areasBad s ⟨0x16008000, 0x16010000, 0, 0x1600C000, 0x4000⟩ 0x16000000 8192 = false
   ∧ firstPoison s 0x1600C000 0x4000 = none ∧ e.out.length ≤ 0x4000)
  ∧ (let s := crucData 0x00060001 [0x52, 0x43, 6, 0, 3, 0, 0, 0] [0, 1, 32, 1] []; let ca := ctxOf (memBytes s 0x16000000 64);
   let e := dictEncode s 0x16000000 ca false [] false; ca.kind ≠ 1 ∧ ctxParamsOk ca = true ∧ kindServes 1 ca.kind = true
   ∧ areasBad s ⟨0x16008000, 0x16010000, 0, 0x1600C000, 0x4000⟩ 0x16000000 20480 = false ∧ e.out.length ≤ 0x4000
   ∧ areasBad s ⟨0x16008000, 0x16010000, 0, 0x1600C000, 0x4000⟩ 0x16000000 (ctxSize ca.kind ca.wbits) = false)
  ∧ (let s := crucData 0x00060002 (ctxHead 2 0) [] [1, 0, 0, 0xFF, 0xFF]; let ck := ctxOf (memBytes s 0x16000000 64);
   let d0 := infLoad (ctxEngine s 0x16000000) (ctxHist s 0x16000000 ck ck.totout ck.wfill) (2 ^ ck.wbits) 0x4000 (memBytes s 0x16010000 5);
   ck.kind = 2 ∧ (infRun (infFuel d0) true d0).isLeft = true)
  ∧ (let s := crucData 0x00061002 [0x52, 0x43, 6, 0, 6, 0, 0, 0] [0, 2, 6, 0] [7, 8, 9]; let ca := ctxOf (memBytes s 0x16000000 64);
   ca.kind ≠ 2 ∧ ctxParamsOk ca = true ∧ kindServes 2 ca.kind = true ∧ reqFlag ⟨0x00061002, 0, 0, 0, 0, 0, 0, none⟩ 12 = true
   ∧ flagsOk ⟨0x00061002, 0, 0, 0, 0, 0, 0, none⟩ = true)
  ∧ (let s := crucData 0x00060002 [0x52, 0x43, 6, 0, 6, 0, 0, 0] [0, 2, 6, 0] [0x44, 0x44, 4]; let ca := ctxOf (memBytes s 0x16000000 64);
   (dictDecode s 0x16000000 ca false [0x44, 0x44, 4] 0x4000).isLeft = true)
  ∧ (let s := putWords State.reset offCrucHreq [0x00060005, 0xFFFFFFFF, 0x16004000, 0x16000000]; hostPend s = false
   ∧ 1 ≤ fld (csrGet s offCrucHreq) 7 0 ∧ fld (csrGet s offCrucHreq) 7 0 ≤ 5
   ∧ after .crucHostGo s (fun t => t.cruc.q == [⟨0x00060005, 0xFFFFFFFF, 0x16004000, 0x16000000, 2, 0, 0, none⟩]) = true
   ∧ hostPend { s with cruc := { CrucSt.reset with q := [⟨5, 0, 0, 0, 2, 0, 0, none⟩] } } = true) := by
  refine ⟨?_, ?_, ?_, ?_, ?_, ?_, ?_, ?_, ?_, ?_, ?_, ?_⟩ <;> decide +kernel

/-- RUN set, METER as it stands. -/
def onRun (s : State) : State := { s with dev := { s.dev with run := true, held := false } }

/-- A descriptor of channel 5 that meets every condition, with its flow entries, template 3 and RUN. -/
def goodChan : State :=
  memWrite { onRun (withTmpl State.reset) with pkt := { PktSt.reset with
      flow := [(12, [1, 0, 0, 0, 1, 0, 0, 0, 0, 0, 5, 0, 0, 0, 0, 0]), (13, [0x11, 0, 0, 0, 2, 0, 0, 0, 0, 0, 5, 0, 0, 0, 0, 0])] } }
    0x10005000 ([1, 0, 0, 0, 0x11, 0x11, 0x10, 0] ++ zeros 8 ++ [10, 0, 11, 0, 12, 0, 13, 0, 0, 3, 0, 0, 8, 0, 8, 0, 0, 4, 0, 0, 0, 1])

/-- A queue, enabled, with a limit and items. -/
def openQueue (limit : Nat) (items : List Item) : Queue := { Queue.reset with en := true, limit := limit, items := items }

/-- A UDP datagram of one byte over IPv4 from 10.0.0.1 port 1 to 10.0.0.2 port 5000. -/
def udpBytes : List Byte := zeros 12 ++ [8, 0, 0x45, 0, 0, 29, 0, 0, 0, 0, 0x40, 0x11, 0x66, 0xCE, 10, 0, 0, 1, 10, 0, 0, 2,
  0, 1, 0x13, 0x88, 0, 9, 0, 0, 0x5A]
def udpFrame : RxFrame := ⟨udpBytes, false, 0, 0, false, false⟩
def udpParts : Udp := ⟨false, 0, false, [10, 0, 0, 1], 1, 5000, [0x5A]⟩

/-- Port 3 with that datagram at the head of its FIFO. -/
def withFrame (n : Nat) (f : RxFrame) (s : State) : State := macPut s n { macGet s n with rx := [f] }

/-- A usable template without a tag, for IPv4, and one whose entry names it. -/
def plainTmpl : List Byte := zeros 12 ++ [8, 0, 0x45] ++ zeros 43 ++ [34, 0, 0, 0, 0, 0]

/-- States and operands that meet the hypotheses of each clause of `ChannelEnableAndClose`, and what stands after. -/
theorem witness_channelEnableAndClose :
  (let s := State.reset; (16383 : Nat) < min 16384 (chanCount s) ∧ isPoison s (chanAddr s 16383) = false
   ∧ isPoison s (chanAddr s 16383 + 0x20) = false ∧ bitOf (descWord s 16383 0) 0 = false
   ∧ after (.channelEnableWrite 16383 0) s (fun t => descWord t 16383 0 == 1 && bitOf (chanStat t 16383) 10
          && t.chan.checks == [(16383, 0)] && t.chan.bind == []) = true)
  ∧ (let s := bindPut (relPut (memWrite State.reset 0x10006000 [1]) 6 ⟨true, 0, 3, 0⟩) 6 (some (bound6 [] []));
   bitOf (descWord s 6 0) 0 = true ∧ checkWaits s 6 = false ∧ bindGet s 6 ≠ none
   ∧ after (.channelCloseWrite 6 0xFFFFFFFF) s (fun t => descWord t 6 0 == 0xFFFFFFFE && ! (relGet t 6).en && bitOf (chanStat t 6) 11) = true) := by
  refine ⟨?_, ?_⟩ <;> decide +kernel

/-- States and operands that meet the hypotheses of each clause of `ConsistencyCheckDecides`, and what stands after. -/
theorem witness_consistencyCheckDecides :
  (let s := { goodChan with chan := { ChanSt.reset with checks := [(5, 0)] } }; let s1 := goodChan;
   s.chan.checks = (5, 0) :: [] ∧ 5 ∉ s.chan.cleared ∧ checkCode s1 5 (descOf s1 5) = 0 ∧ bitOf (descOf s1 5).ctl 0 = true
   ∧ after .consistencyCheck s (fun t => csrGet t offDispChkLast == 0x80000005 && cntGet t offDispChkAcc == 1 && (bindGet t 5).isSome
          && (queueGet t 10).bound && (queueGet t 11).bound && relGet t 5 == ⟨true, 0, 3, 0⟩) = true)
  ∧ (let s := { State.reset with chan := { ChanSt.reset with checks := [(5, 0)] } };
   checkCode { s with chan := ChanSt.reset } 5 (descOf State.reset 5) = 1
   ∧ after .consistencyCheck s (fun t => csrGet t offDispChkLast == 0x80010005 && cntGet t offDispChkRef == 1 && t.chan.bind == []) = true) := by
  refine ⟨?_, ?_⟩ <;> decide +kernel

/-- The reset state with the host's windows answering. -/
def windows : State := { State.reset with host := { HostSt.reset with on := true, memEn := true } }

/-- States and operands that meet the hypotheses of each clause of `QueuesAndClearing`, and what stands after. -/
theorem witness_queuesAndClearing :
  (let s := csrPut (queuePut windows 65535 (openQueue 4 [⟨3, 2⟩, ⟨9, 1⟩])) (portalOff (some 33)) 0xFFFF;
   csrFld s offQmgrClrLowev 18 0 < freeCells s ∧ portalHere s (some 33) = true ∧ portalHere s none = true
   ∧ csrFld s (portalOff (some 33)) 15 0 = 65535 ∧ (queueGet s 65535).items = ⟨3, 2⟩ :: [⟨9, 1⟩]
   ∧ after (.queuePop (some 33)) s (fun t => (queueGet t 65535).items == [⟨9, 1⟩] && t.busRead == [3, 0, 8, 0] && cntGet t offQmgrPop == 1) = true)
  ∧ (let s := windows; (queueGet s (csrFld s (portalOff none) 15 0)).items = []
   ∧ after (.queuePop none) s (fun t => (queueGet t 0).under && t.busRead == [0, 0, 0, 0x80]) = true)
  ∧ (let s0 := cellItem (queuePut windows 7 (openQueue 1 [])) 5 [1]; let s := { s0 with qmgr := { s0.qmgr with staged := [(portalOff none, 0x00040005)] } };
   itemCode s 0x00040005 = 0 ∧ fld 7 15 0 = 7 ∧ (queueGet s 7).en = true ∧ 0 < (queueGet s 7).limit ∧ (queueGet s 7).items.length < (queueGet s 7).limit
   ∧ after (.queuePush none 7) s (fun t => (queueGet t 7).items == [⟨5, 1⟩] && csrGet t (portalOff none + 0x18) == 0 && cntGet t offQmgrPush == 1) = true)
  ∧ (let s0 := cellItem (cellItem (queuePut windows 7 (openQueue 1 [⟨4, 1⟩])) 4 [1]) 5 [1];
   let s := { s0 with qmgr := { s0.qmgr with staged := [(portalOff none, 0x00040005)] } };
   itemCode s 0x00040005 = 0 ∧ (queueGet s 7).limit ≤ (queueGet s 7).items.length
   ∧ after (.queuePush none 7) s (fun t => (queueGet t 7).items == [⟨5, 1⟩] && (queueGet t 7).lostFlag && cntGet t offQmgrOvwr == 1) = true)
  ∧ (portalHere windows none = true ∧ let s := windows; itemCode s 0 = 2 ∧ after (.queuePush none 7) s (fun t => csrGet t (portalOff none + 0x18) == 2) = true)
  ∧ (let s := queuePut windows 0 { openQueue 2 [⟨4, 1⟩] with en := false }; csrFld s offQmgrQsel 15 0 = 0 ∧ (queueGet s 0).bound = false
   ∧ bitOf 0x80000001 31 = true ∧ (queueGet s 0).items.length ≤ fld 0x80000001 11 0
   ∧ after (.queueConfigWrite 0x80000001) s (fun t => (queueGet t 0).en && (queueGet t 0).limit == 1 && (queueGet t 0).items == [⟨4, 1⟩]) = true
   ∧ bitOf 0x7FFFFFFF 31 = false
   ∧ after (.queueConfigWrite 0x7FFFFFFF) s (fun t => ! (queueGet t 0).en && (queueGet t 0).items == []) = true)
  ∧ (let s := windows; csrFld s offQmgrClrRes 18 0 < freeCells s ∧ csrFld s offQmgrClrLowev 18 0 < freeCells s ∧ s.qmgr.used = [])
  ∧ (let s := csrPut windows offQmgrClrRes 0x40000; freeCells s ≤ csrFld s offQmgrClrRes 18 0
   ∧ after (.cellAlloc (some 0)) s (fun t => t.busRead == [0, 0, 0, 0x80] && cntGet t offQmgrAllocf == 1) = true)
  ∧ (let s := cellItem windows 5 [1]; itemCode s 0x00040005 = 0
   ∧ after (.cellFree none 0x00040005) s (fun t => t.qmgr.used == [] && csrGet t (portalOff none + 0x18) == 0) = true)
  ∧ (let s := cellItem windows 5 [1]; s.dev.run = false ∧ s.dev.check = false
   ∧ (let u := { csrPut s offDevHwlCell (0xFFFFFFFF &&& 0xFFF0FFF#32) with qmgr := { s.qmgr with used := [] } }; csrFld u offQmgrClrLowev 18 0 < freeCells u)
   ∧ after (.hwlCellWrite 0xFFFFFFFF) s (fun t => csrGet t offDevHwlCell == 0x0FFF0FFF && t.qmgr.used == []) = true)
  ∧ (let s := queuePut windows 9 { openQueue 2 [] with ntype := 1, note := 0x80000120, notice := some ⟨5, 7⟩ };
   (queueGet s 9).notice = some ⟨5, 7⟩ ∧ (queueGet s 9).ntype = 1 ∧ isKind1 (queueGet s 9).note = true ∧ undeliverable s 0x80000120 = none
   ∧ (ctxGet s 5).sigq.length < 16 ∧ after (.noticeDeliver 9) s (fun t => (queueGet t 9).notice.isNone && (ctxGet t 5).sigq == [(0x98007, 0)]) = true)
  ∧ (let s := queuePut windows 9 { openQueue 2 [] with ntype := 2, note := 63, notice := some ⟨5, 7⟩ }; (queueGet s 9).ntype = 2
   ∧ after (.noticeDeliver 9) s (fun t => (queueGet t 9).notice.isNone && t.host.pend == [63]) = true)
  ∧ (let s := cellItem (queuePut windows 65535 (openQueue 2 [⟨5, 1⟩])) 5 [1]; (65535 : Nat) < 65536
   ∧ after (.queueDescError 65535) s (fun t => ! (queueGet t 65535).en && (queueGet t 65535).err && (queueGet t 65535).items == []
          && bitOf (csrGet t offDevFsum) 6) = true) := by
  refine ⟨?_, ?_, ?_, ?_, ?_, ?_, ?_, ?_, ?_, ?_, ?_, ?_, ?_⟩ <;> decide +kernel

/-- States and operands that meet the hypotheses of each clause of `PacketReceive`, and what stands after. -/
theorem witness_packetReceive :
  (let s := withFrame 3 udpFrame (queuePut { State.reset with pkt := { PktSt.reset with
          flow := [(65535, [6, 3, 0, 0, 0x88, 0x13, 0, 0, 0, 0, 9, 0, 0, 0, 0, 0])] } } 9 (openQueue 1 []));
   (takeRx s 3).isSome = true ∧ s.pkt.secure.length < 512 ∧ frameCells udpFrame ≤ freeCells s ∧ toPtpq s 3 udpFrame = false ∧ parseFrame udpFrame.bytes = .udp udpParts
   ∧ csrFld s offQmgrClrLowev 18 0 + 128 < freeCells s ∧ findFlow s ⟨3, false, 0, false, 5000⟩ = some 65535
   ∧ flowType (flowBytes s 65535) = 6 ∧ srcOk s (flowBytes s 65535) udpParts = true ∧ flowChan (flowBytes s 65535) = 9
   ∧ ((takeRx s 3).any fun x => let q := queueGet (bump (countRx x.2 3 x.1) offPktRxpkt) 9
          q.en && decide (q.items.length < q.limit)) = true)
  ∧ (let s := withFrame 0 udpFrame State.reset; findFlow s ⟨0, false, 0, false, 5000⟩ = none ∧ bitOf (csrGet s offPktCtl) 8 = false
   ∧ after (.pktReceive 0) s (fun t => cntGet t (offPktDrop + 8 * 4) == 1 && cntGet t offPktRxpkt == 1) = true) := by
  refine ⟨?_, ?_⟩ <;> decide +kernel

/-- States and operands that meet the hypotheses of each clause of `PacketDepartures`, and what stands after. -/
theorem witness_packetDepartures :
  (let s := csrPut (cellItem (queuePut State.reset 9 (openQueue 2 [⟨5, 1⟩])) 5 [1]) (offPktTxq + 4 * 7) 0x80000009;
   pendItems s < 65536 ∧ nextInput s s.pkt.txAt = some 7 ∧ csrFld s (offPktTxq + 4 * 7) 15 0 = 9 ∧ (queueGet s 9).items = ⟨5, 1⟩ :: []
   ∧ (itemBytes s ⟨5, 1⟩).length < 16 ∧ csrFld s offQmgrClrLowev 18 0 < freeCells s
   ∧ after .pktTxTake s (fun t => (queueGet t 9).items == [] && t.pkt.txAt == 0 && cntGet t (offPktDrop + 8 * 15) == 1) = true)
  ∧ (let s := csrPut (cellItem (queuePut State.reset 9 (openQueue 2 [⟨5, 1⟩])) 5 ([0, 0, 3, 1, 0, 0x7D, 0, 0, 3, 0, 0, 0, 0, 0, 0, 0] ++ zeros 14)) (offPktTxq + 4 * 7) 0x80000009;
   16 ≤ (itemBytes s ⟨5, 1⟩).length ∧ byteAt (itemBytes s ⟨5, 1⟩) 2 = 3 ∧ byteAt (itemBytes s ⟨5, 1⟩) 8 < 4
   ∧ (byteAt (itemBytes s ⟨5, 1⟩) 3).testBit 0 = true ∧ extend32 (nfnOf s) (leAt (itemBytes s ⟨5, 1⟩) 4 4) = 32000 ∧ (nfnOf s : Int) = 0
   ∧ nextInput s s.pkt.txAt = some 7
   ∧ after .pktTxTake s (fun t => t.pkt.held == [⟨32000, .item ⟨5, 1⟩⟩] && (queueGet t 9).items == []) = true)
  ∧ (let f : TxFrame := ⟨zeros 60, 0, false, 0, []⟩; let h : HeldItem := ⟨0, .frame 3 f⟩;
   let s := { State.reset with pkt := { PktSt.reset with held := [⟨7, .frame 2 f⟩, h] } };
   (takeDue (min s.pkt.seen (nfnOf s) : Nat) s.pkt.held = some (h, [⟨7, .frame 2 f⟩]))
   ∧ after .pktDeparture s (fun t => t.pkt.held == [⟨7, .frame 2 f⟩] && cntGet t offPktTxpkt == 1) = true)
  ∧ (let h : HeldItem := ⟨0, .item ⟨5, 1⟩⟩;
   let s := { cellItem State.reset 5 ([0, 0, 3, 1, 0, 0, 0, 0, 3, 0, 0, 0, 0, 0, 0, 0] ++ zeros 14) with pkt := { PktSt.reset with held := [h] } };
   takeDue (min s.pkt.seen (nfnOf s) : Nat) s.pkt.held = some (h, []) ∧ byteAt (itemBytes s ⟨5, 1⟩) 2 = 3
   ∧ byteAt (itemBytes s ⟨5, 1⟩) 8 < 4
   ∧ after .pktDeparture s (fun t => t.pkt.held == [] && cntGet t offPktTxpkt == 1) = true)
  ∧ (takeDue (min State.reset.pkt.seen (nfnOf State.reset) : Nat) State.reset.pkt.held = none
   ∧ after .pktDeparture State.reset (fun t => t == State.reset) = true)
  ∧ (let s := { timed (fun t => { t with nfn := 40 }) with pkt := { PktSt.reset with cesSeq := [(8, 65535)], tmpl := [(0, plainTmpl)], flow := [(8, [2, 0, 0, 0, 1, 0, 0, 0, 0, 0, 1, 1, 0, 0xFF, 0, 0])] } };
   flowType (flowBytes s 8) = 2 ∧ cesDue s 8 (flowBytes s 8) = some 40 ∧ tmplUsable (tmplBytes s (fTmpl (flowBytes s 8))) = true
   ∧ 40 ≤ nfnOf s ∧ after (.cesPacketBuild 8) s (fun t => smapGet 0 t.pkt.cesSeq 8 == 0 && smapGet [] t.pkt.cesSent 8 == [40]
          && cntGet t offPktTxpkt == 1) = true)
  ∧ (let s0 := cellItem (timed (fun t => { t with nfn := 41 })) 5 (zeros 56);
   let s := { s0 with pkt := { PktSt.reset with ces := [⟨8, 80, 0, 0, ⟨5, 1⟩⟩], tmpl := [(0, plainTmpl)], flow := [(8, [2, 0, 0, 0, 1, 0, 0, 0, 0, 0, 1, 1, 0, 0xFF, 0, 0])] } };
   cesDue s 8 (flowBytes s 8) = some 80 ∧ nfnOf s < 80
   ∧ after (.cesPacketBuild 8) s (fun t => smapGet 0 t.pkt.cesSeq 8 == 1 && t.pkt.ces == [] && t.pkt.held.map (fun h => h.dep) == [80]
          && smapGet [] t.pkt.cesSent 8 == [80]) = true)
  ∧ (let s := { timed (fun t => { t with nfn := 79 }) with pkt := { PktSt.reset with flow := [(8, [4, 0, 0, 0, 1, 0, 0, 0, 0, 0, 0, 0, 1, 0, 39, 0])] } };
   flowType (flowBytes s 8) = 4 ∧ nfnOf s % 40 = byteAt (flowBytes s 8) 14 ∧ smapGet 0 s.pkt.bunSent 8 ≠ nfnOf s + 1
   ∧ after (.bundleDeparture 8) s (fun t => smapGet 0 t.pkt.bunSent 8 == 80 && smapGet 0 t.pkt.bunSeq 8 == 0) = true)
  ∧ (let s0 := cellItem (timed (fun t => { t with nfn := 79 })) 5 (zeros 56);
   let x : BundleFrame := ⟨8, 79, 0, ⟨5, 1⟩⟩;
   let s := { s0 with pkt := { PktSt.reset with bundle := [x], bunSeq := [(8, 65535)], tmpl := [(0, plainTmpl)], flow := [(8, [4, 0, 0, 0, 1, 0, 0, 0, 0, 0, 0, 0, 1, 0, 39, 0])] } };
   (s.pkt.bundle.filter fun y => y.flow == 8 && decide (y.dep ≤ nfnOf s)) = [x] ∧ (memberData s x).length ≤ 1400
   ∧ tmplUsable (tmplBytes s (fTmpl (flowBytes s 8))) = true
   ∧ after (.bundleDeparture 8) s (fun t => t.pkt.bundle == [] && smapGet 0 t.pkt.bunSeq 8 == 0 && cntGet t offPktTxpkt == 1) = true) := by
  refine ⟨?_, ?_, ?_, ?_, ?_, ?_, ?_, ?_, ?_⟩ <;> decide +kernel

/-- States and operands that meet the hypotheses of each clause of `FlowAndTemplateTables`, and what stands after. -/
theorem witness_flowAndTemplateTables :
  (let s := csrPut (csrPut (csrPut (csrPut State.reset offPktFsel 0xFFFF) offPktFdata 0x306) (offPktFdata + 4) 0x1388) (offPktFdata + 8) 0x90000;
   flowSel s = 65535 ∧ stagedFlow s = [6, 3, 0, 0, 0x88, 0x13, 0, 0, 0, 0, 9, 0, 0, 0, 0, 0] ∧ flowBadForm (stagedFlow s) = false
   ∧ flowDup s 65535 (stagedFlow s) = false ∧ flowBound s 65535 = false ∧ flowBeyond 65535 (stagedFlow s) = false ∧ stagedFlow s ≠ zeros 16
   ∧ after .flowWrite s (fun t => csrGet t offPktFstat == 0x80000000 && flowBytes t 65535 == stagedFlow s) = true)
  ∧ (let s := csrPut State.reset offPktFdata 7; stagedFlow s ≠ zeros 16 ∧ flowBadForm (stagedFlow s) = true
   ∧ after .flowWrite s (fun t => csrGet t offPktFstat == 0x80000001) = true
   ∧ flowBound s 0 = false ∧ after .flowInvalidate s (fun t => csrGet t offPktFstat == 0x80000000) = true)
  ∧ (let s0 := csrPut (csrPut (csrPut (csrPut State.reset offPktFsel 0xFFFF) offPktFdata 0x306) (offPktFdata + 4) 0x1388) (offPktFdata + 8) 0x90000;
   let s := { s0 with pkt := { PktSt.reset with flow := [(8, stagedFlow s0)] } };
   flowDup s 65535 (stagedFlow s) = true ∧ flowBadForm (stagedFlow s) = false
   ∧ after .flowWrite s (fun t => csrGet t offPktFstat == 0x80000002 && t.pkt == s.pkt) = true)
  ∧ (let s0 := csrPut (csrPut (csrPut (csrPut State.reset offPktFsel 12) offPktFdata 0x306) (offPktFdata + 4) 0x1388) (offPktFdata + 8) 0x90000;
   let s := bindPut s0 5 (some { bound6 [] [] with fTrunk := 12 });
   flowBound s 12 = true ∧ flowDup s 12 (stagedFlow s) = false ∧ flowBadForm (stagedFlow s) = false
   ∧ after .flowWrite s (fun t => csrGet t offPktFstat == 0x80000003 && t.pkt == s.pkt) = true)
  ∧ (let s := putWords (csrPut State.reset offPktFsel 65535) offPktFdata [2, 0x88, 0x01010000, 0];
   flowBeyond 65535 (stagedFlow s) = true ∧ flowBadForm (stagedFlow s) = false ∧ flowDup s 65535 (stagedFlow s) = false
   ∧ flowBound s 65535 = false ∧ after .flowWrite s (fun t => csrGet t offPktFstat == 0x80000004) = true)
  ∧ (let s := csrPut (bindPut goodChan 5 (some { bound6 [] [] with fTrunk := 12 })) offPktFsel 12; flowBound s (flowSel s) = true
   ∧ after .flowInvalidate s (fun t => csrGet t offPktFstat == 0x80000003 && flowType (flowBytes t 12) == 1) = true
   ∧ after .flowRead s (fun t => csrGet t offPktFdata == 1 && csrGet t (offPktFdata + 8) == 0x50000) = true)
  ∧ (let s := putWords (csrPut State.reset offPktTsel 12287) offPktTdata ([0, 0, 0, 0x450008] ++ List.replicate 10 0 ++ [0x220000, 0]);
   hdrSel s < 12288 ∧ tmplUsable (stagedTmpl s) = true ∧ tmplBound s 12287 = false
   ∧ after .templateWrite s (fun t => csrGet t offPktTstat == 0x80000000 && tmplBytes t 12287 == plainTmpl) = true)
  ∧ (let s := putWords (bindPut goodChan 5 (some { bound6 [] [] with fTrunk := 12, fAccess := 13 })) offPktTdata
        ([0, 0, 0, 0x450008] ++ List.replicate 10 0 ++ [0x220000, 0]);
   hdrSel s = 0 ∧ tmplUsable (stagedTmpl s) = true ∧ tmplBound s 0 = true
   ∧ after .templateWrite s (fun t => csrGet t offPktTstat == 0x80000002 && t.pkt == s.pkt) = true)
  ∧ (let s := State.reset; tmplUsable (stagedTmpl s) = false
   ∧ after .templateWrite s (fun t => csrGet t offPktTstat == 0x80000001 && t.pkt == s.pkt) = true)
  ∧ (let s := csrPut State.reset offPktTsel 12288; 12288 ≤ hdrSel s
   ∧ after .templateWrite s (fun t => csrGet t offPktTstat == 0x80000001) = true
   ∧ after .templateRead s (fun t => csrGet t offPktTstat == 0x80000001) = true)
  ∧ (let s := csrPut { State.reset with pkt := { PktSt.reset with tmpl := [(1, plainTmpl)] } } offPktTsel 1; hdrSel s < 12288
   ∧ after .templateRead s (fun t => csrGet t (offPktTdata + 12) == 0x450008) = true
   ∧ after (.flowTableError true 1) s (fun t => tmplBytes t 1 == zeros 64) = true
   ∧ after (.flowTableError false 65535) goodChan (fun t => flowBytes t 65535 == zeros 16 && bitOf (csrGet t offDevFsum) 7) = true) := by
  refine ⟨?_, ?_, ?_, ?_, ?_, ?_, ?_, ?_, ?_, ?_, ?_⟩ <;> decide +kernel

/-- Port `n` with its control register and its state given, 2 s after reset. -/
def port (n : Nat) (ctl : Word) (m : MacSt) : State :=
  macPut (csrPut (timed fun t => { t with cyc := 3000000000 }) (offMacCtl + n * 0x10000) ctl) n m

/-- A port whose link is up. -/
def upPort (n : Nat) (m : MacSt) : State := port n 0xE0000000 { m with link := true, lock := true }

/-- A frame to send. -/
def txOf (bs : List Byte) : TxFrame := ⟨bs, 3, true, 0, []⟩

/-- States and operands that meet the hypotheses of each clause of `MacLinkAndPauses`, and what stands after. -/
theorem witness_macLinkAndPauses :
  (let s := port 4 0 MacSt.reset; (4 : Nat) < 5 ∧ after (.macEnable 4 0x80000000) s (fun t => bitOf (csrGet t (offMacCtl + 4 * 0x10000)) 31) = true)
  ∧ (let s := upPort 4 { MacSt.reset with cur := some ⟨txOf [1], 5, false, 0, 0, 0, false⟩ }; macEn s 4 = true ∧ (macGet s 4).link = true
   ∧ after (.macDisable 4 0) s (fun t => ! bitOf (csrGet t (offMacCtl + 4 * 0x10000)) 31 && ! (macGet t 4).link && ! (macGet t 4).lock
          && (macGet t 4).cur == none) = true
   ∧ after (.linkDown 4 true false false) s (fun t => ! (macGet t 4).link && ! (macGet t 4).lock) = true)
  ∧ (let s := port 0 0xE0000000 MacSt.reset; macEn s 0 = true ∧ (macGet s 0).lock = false
   ∧ after (.pcsBlockLock 0) s (fun t => (macGet t 0).lock && (macGet t 0).lockSince == 2000000000) = true)
  ∧ (let s := port 0 0xE0000000 { MacSt.reset with lock := true, lockSince := 1999000000 }; macEn s 0 = true ∧ (macGet s 0).link = false
   ∧ (macGet s 0).lock = true ∧ (macGet s 0).localFault = false ∧ (macGet s 0).remoteFault = false
   ∧ (macGet s 0).lockSince + 1000000 ≤ elapsed s.time ∧ after (.linkUp 0) s (fun t => (macGet t 0).link) = true)
  ∧ (let s := port 0 0 { MacSt.reset with gated := true, ungate := true }; (macGet s 0).ungate = true ∧ (macGet s 0).cur = none
   ∧ after (.macUngate 0) s (fun t => ! (macGet t 0).gated) = true)
  ∧ (let s := csrPut (upPort 1 { MacSt.reset with verify := .initial }) (offMacPreempt + 0x10000) 0x80000000; preEn s 1 = true
   ∧ (macGet s 1).link = true ∧ (macGet s 1).verify = .initial ∧ macLoop s 1 ≠ 1
   ∧ after (.preemptVerify 1) s (fun t => (macGet t 1).verify == .verifying && (macGet t 1).vSent == 1) = true)
  ∧ (let s := csrPut (port 1 0xE1000000 { MacSt.reset with link := true, lock := true, verify := .initial }) (offMacPreempt + 0x10000) 0x80000000;
   preEn s 1 = true ∧ macLoop s 1 = 1 ∧ macRxEn s 1 = true
   ∧ after (.preemptVerify 1) s (fun t => (macGet t 1).verify == .succeeded && (macGet t 1).responds == 1) = true)
  ∧ (let s := csrPut (upPort 1 { MacSt.reset with verify := .verifying, vSent := 3 }) (offMacPreempt + 0x10000) 0x80000000;
   3 ≤ (macGet s 1).vSent ∧ (macGet s 1).vAt + vtimeNs s 1 ≤ elapsed s.time ∧ (macGet s 1).verify = .verifying ∧ preEn s 1 = true
   ∧ after (.preemptVerify 1) s (fun t => (macGet t 1).verify == .failed) = true)
  ∧ (let s := port 4 0 { MacSt.reset with pause := [(7, 200000000000)] }; smapGet 0 (macGet s 4).pause 7 ≠ 0
   ∧ smapGet 0 (macGet s 4).pause 7 ≤ elapsed s.time * 100 ∧ after (.pfcPauseExpire 4 7) s (fun t => smapGet 0 (macGet t 4).pause 7 == 0) = true)
  ∧ (let s := port 4 0 { MacSt.reset with pause := [(3, 900000000000)], tx := [txOf [1]] };
   (macGet s 4).tx.find? (fun f => isPaused (macGet s 4) f && decide (f.since + holdNs s 4 ≤ elapsed s.time)) = some (txOf [1])
   ∧ after (.pfcHoldDiscard 4) s (fun t => (macGet t 4).tx == []) = true)
  ∧ (let s := csrPut (csrPut (upPort 0 MacSt.reset) offMacPfc 0x40000001) offMacPfcThr 0; bitOf (macReg s 0 offMacPfc) 30 = true
   ∧ (macGet s 0).xoff = false ∧ wantXoff s 0 = true ∧ macDown s 0 = false
   ∧ after (.pfcXoff 0) s (fun t => (macGet t 0).xoff && (macGet t 0).pfcAt == 2000000000 && (macGet t 0).tx == [⟨pfcFrame s 0 1, 8, true, 2000000000, []⟩]) = true)
  ∧ (let s := csrPut (port 0 0 { MacSt.reset with xoff := true, gated := true }) offMacPfc 0x40000001; (macGet s 0).xoff = true
   ∧ (macGet s 0).pfcAt * 200 + quanta s 0 * (if mac10g s 0 then 5120 else 2048) ≤ elapsed s.time * 200
   ∧ after (.pfcRepeat 0) s (fun t => (macGet t 0).xoff && (macGet t 0).tx == []) = true)
  ∧ (let s := csrPut (upPort 0 { MacSt.reset with xoff := true }) offMacPfcThr 0x00100020; rxFill (macGet s 0) ≤ xonAt s 0 ∧ clearingLow s = false
   ∧ wantXoff s 0 = false ∧ (macGet s 0).xoff = true
   ∧ after (.pfcXon 0) s (fun t => ! (macGet t 0).xoff && (macGet t 0).tx == [⟨pfcFrame s 0 0, 8, true, 2000000000, []⟩]) = true) := by
  refine ⟨?_, ?_, ?_, ?_, ?_, ?_, ?_, ?_, ?_, ?_, ?_, ?_, ?_⟩ <;> decide +kernel

/-- States and operands that meet the hypotheses of each clause of `MacFrames`, and what stands after. -/
theorem witness_macFrames :
  (let s := upPort 3 MacSt.reset; let f := zeros 60 ++ [0x08, 0x89, 0x12, 0x04]; macEn s 3 = true ∧ macRxEn s 3 = true ∧ (macGet s 3).lock = true ∧ macLoop s 3 ≠ 1
   ∧ f.length = 64 ∧ f.length ≤ maxLen s 3 ∧ leBytes 4 (crc32 (f.take 60)).toNat = f.drop 60 ∧ beAt f 12 2 ≠ 0x8808
   ∧ addrFilter s 3 f = true ∧ rxRoom (macGet s 3) 60 = true
   ∧ after (.macFrameReceive 3 .whole 0 0 0 f) s (fun t => ((macGet t 3).rx.map fun x => (x.bytes, x.trunc)) == [(zeros 60, false)]) = true)
  ∧ (let s := upPort 3 MacSt.reset; let f := zeros 64; leBytes 4 (crc32 (f.take 60)).toNat ≠ f.drop 60
   ∧ after (.macFrameReceive 3 .whole 0 0 0 f) s (fun t => cntGet t (offMacCntLo + 3 * 0x10000 + 8 * 2) == 1 && (macGet t 3).rx == []) = true
   ∧ (zeros 63).length < 64 ∧ after (.macFrameReceive 3 .whole 0 0 0 (zeros 63)) s
          (fun t => cntGet t (offMacCntLo + 3 * 0x10000 + 8 * 3) == 1 && (macGet t 3).rx == []) = true)
  ∧ (let s := upPort 3 MacSt.reset; let f := 0x02#8 :: zeros 59; let g := f ++ leBytes 4 (crc32 f).toNat; addrFilter s 3 g = false ∧ g.length = 64
   ∧ after (.macFrameReceive 3 .whole 0 0 0 g) s (fun t => cntGet t (offMacCntLo + 3 * 0x10000 + 8 * 5) == 1 && (macGet t 3).rx == []) = true)
  ∧ (let s := { State.reset with cnt := [(offMacCntLo + 8 * 24, 0x1200000003)] };
   after (.macCounterRead 0 24) s (fun t => t.busRead == [3, 0, 0, 0] && cntGet t (offMacCntLo + 8 * 24) == 0 && csrGet t (offMacCntLo + 8 * 24 + 4) == 0x12) = true)
  ∧ (let s := upPort 4 { MacSt.reset with tx := [txOf [1]] }; (macGet s 4).cur = none ∧ nextTx s 4 = some (txOf [1]) ∧ txRefused s 4 (txOf [1]) = none
   ∧ macLoop s 4 ≠ 1 ∧ after (.macFrameTransmit 4 0) s (fun t => (macGet t 4).wire.take 60 == 1 :: zeros 59
          && (macGet t 4).wire.drop 60 == leBytes 4 (crc32 (1 :: zeros 59)).toNat && (macGet t 4).tx == []
          && cntGet t (offMacCntLo + 4 * 0x10000 + 8 * 13) == 1) = true)
  ∧ (let s := port 4 0xE0000000 { MacSt.reset with tx := [txOf [1]] }; (macGet s 4).link = false ∧ nextTx s 4 = some (txOf [1])
   ∧ after (.macFrameTransmit 4 0) s (fun t => (macGet t 4).wire == [] && (macGet t 4).tx == []
          && cntGet t (offMacCntLo + 4 * 0x10000 + 8 * 20) == 1) = true) := by
  refine ⟨?_, ?_, ?_, ?_, ?_, ?_⟩ <;> decide +kernel

/-- Mounted flash of one target of 64 blocks, with partition 3 of 12 blocks and partition 4 of 4,
two blocks of each in reserve. -/
def tableBytes : List Byte := [3, 0, 8, 0, 12, 0, 2, 0] ++ zeros 8 ++ [4, 0, 20, 0, 4, 0, 2, 0] ++ zeros 8 ++ zeros 224
def flash (f : NandSt → NandSt) : State := { State.reset with nand := f { NandSt.reset with
  mounted := true, page16 := true, nop := 4, ppb := 64, blocks := [64, 0, 0, 0], table := some tableBytes } }

/-- A calendar in force in 1970, with one switch at midnight of every day. -/
def calendar : SMap (Word × Word) := [(2, (0x07B20101, 0)), (3, (0x07B20C1F, 0)), (11, (0x10000, 0))]

/-- That flash, and a meter that runs with valid time and that calendar. -/
def metered (f : MeterSt → MeterSt) : State := { flash id with meter := f { MeterSt.reset with
  valid := true, hasSet := true, committed := calendar, staged := calendar, cals := [(0, calendar)] } }

/-- A command at the head of the meter's queue, under CSEQ 7. -/
def meterCmd (w : List Word) (f : MeterSt → MeterSt) : State :=
  metered fun m => f { m with q := [⟨w, 7, m.time, m.ic, false, false, false, 0⟩] }

/-- The command's result, and what holds of the meter. -/
def meterLeft (i : Instr) (s : State) (code : Nat) (p : MeterSt → Bool) : Bool :=
  after i s fun t => t.meter.q == [] && csrGet t offMeterCres == wordOf (7 * 65536 + code) && p t.meter

/-- An open call of channel 9. -/
def call9 (m : MeterSt) : MeterSt := { m with open_ := [(9, some ⟨0x77, false, 0, 0, 0, 0⟩)] }

/-- The meter ready to be sealed. -/
def sealable (m : MeterSt) : MeterSt := { m with
  prog := true, armed := some 0, sealReg := [(offMeterOwnerLo, 5)] ++ pubWords.zipIdx.map fun x => (offMeterAuthpub + 4 * x.2, x.1) }

/-- States and operands that meet the hypotheses of each clause of `MeterCommands`, and what stands after. -/
theorem witness_meterCommands :
  (let s := meterCmd [0x00090001, 0x77, 0, 0, 0, 0, 0, 0] id; let c : MeterCmd := ⟨[0x00090001, 0x77, 0, 0, 0, 0, 0, 0], 7, 0, 0, false, false, false, 0⟩;
   (meterNow s).meter.power = true ∧ (meterNow s).meter.q = c :: [] ∧ meterWordsOk c = true ∧ s.mirr.adopts = [] ∧ mOpcode c = 1
   ∧ (meterNow s).meter.mode ≠ .fault ∧ smapGet none (meterNow s).meter.open_ 9 = none ∧ stampCode (meterNow s).meter c = 0
   ∧ meterLeft .callStart s 0 (fun m => smapGet none m.open_ 9 == some ⟨0x77, false, 0, 0, 0, 0⟩ && m.rseq == 1) = true)
  ∧ (let s := meterCmd [0x00090001, 0x77, 0, 0, 0, 0, 0, 0] call9; smapGet none (meterNow s).meter.open_ 9 ≠ none
   ∧ meterLeft .callStart s 0x88 (fun m => m.rseq == 0) = true)
  ∧ (let s := metered fun m => { m with q := [⟨[0x00090001, 0x77, 0, 0, 0, 0, 0, 0], 7, 0, 0, false, false, false, 0x82⟩] };
   stampCode (meterNow s).meter ⟨[0x00090001, 0x77, 0, 0, 0, 0, 0, 0], 7, 0, 0, false, false, false, 0x82⟩ = 0x82
   ∧ meterLeft .callStart s 0x82 (fun m => m.open_ == [] && m.rseq == 0) = true)
  ∧ (let s := meterCmd [0x00090003, 0x77, 0, 0, 0, 0, 0, 0] id; let c : MeterCmd := ⟨[0x00090003, 0x77, 0, 0, 0, 0, 0, 0], 7, 0, 0, false, false, false, 0⟩;
   meterWordsOk c = true ∧ mOpcode c = 3
   ∧ meterLeft .callAdopt s 0 (fun m => smapGet none m.open_ 9 == some ⟨0x77, true, 0, 0, 0, 0⟩ && m.rseq == 1) = true)
  ∧ (let s := meterCmd [0x00090002, 0x77, 0, 0, 0, 0, 0, 0] call9; smapGet none (meterNow s).meter.open_ 9 = some ⟨0x77, false, 0, 0, 0, 0⟩
   ∧ meterWordsOk ⟨[0x00090002, 0x77, 0, 0, 0, 0, 0, 0], 7, 0, 0, false, false, false, 0⟩ = true
   ∧ meterLeft .callEnd s 0 (fun m => smapGet none m.open_ 9 == none && m.totCalls == 1) = true)
  ∧ (let s := meterCmd [0x00090002, 0x77, 0, 0, 0, 0, 0, 0] id; smapGet none (meterNow s).meter.open_ 9 = none
   ∧ meterLeft .callEnd s 0x89 (fun m => m.totCalls == 0 && m.rseq == 0) = true)
  ∧ (let s := meterCmd [0xFFFF0010, 0, 0, 0, 6, 31, 0x3059F, 0] id; let c : MeterCmd := ⟨[0xFFFF0010, 0, 0, 0, 6, 31, 0x3059F, 0], 7, 0, 0, false, false, false, 0⟩;
   meterWordsOk c = true ∧ paramPlace 6 31 = some 42 ∧ paramCode 6 31 0x3059F 0 = 0
   ∧ meterLeft .param s 0 (fun m => paramGet m.staged 42 == (0x3059F, 0) && m.committed == calendar) = true)
  ∧ (let s := meterCmd [0xFFFF0011, 0, 0, 0, 0, 0, 0, 0] fun m => { m with cals := [] }; setOk (meterNow s).meter.staged = true ∧ (meterNow s).meter.sealed_ = false
   ∧ meterLeft .commit s 0 (fun m => m.committed == calendar && m.hasSet && m.cals == [(0, calendar)]) = true)
  ∧ (let s := meterCmd [0xFFFF0011, 0, 0, 0, 0, 0, 0, 0] fun m => { m with sealed_ := true }; setOk (meterNow s).meter.staged = true
   ∧ (meterNow s).meter.prog = false ∧ meterLeft .commit s 0x8D (fun m => m.committed == calendar && m.audit == []) = true)
  ∧ (let s := meterCmd [0xFFFF0012, 0, 0, 0, 0, 0, 0, 0] fun m => { m with staged := [] };
   meterWordsOk ⟨[0xFFFF0012, 0, 0, 0, 0, 0, 0, 0], 7, 0, 0, false, false, false, 0⟩ = true ∧ meterLeft .discard s 0 (fun m => m.staged == calendar) = true)
  ∧ (let s := meterCmd [0xFFFF0020, 0, 0, 0, 5, 0, 0, 0] fun m => { m with jrseq := 5, rseq := 5 }; (meterNow s).meter.jrel ≤ 5 ∧ 5 ≤ (meterNow s).meter.jrseq
   ∧ meterLeft .release s 0 (fun m => m.jrel == 5 && m.rseq == 6) = true)
  ∧ (let s := meterCmd [0xFFFF0020, 0, 0, 0, 6, 0, 0, 0] fun m => { m with jrseq := 5, rseq := 5 }; (meterNow s).meter.jrseq < 6
   ∧ meterLeft .release s 0x91 (fun m => m.jrel == 0) = true)
  ∧ (let s := meterCmd [0xFFFF0021, 0, 0, 0, 0, 0, 0, 0] fun m => { m with rseq := 1, buffer := [(0, zeros 8)] };
   handoverOpen (meterPut s { (meterNow s).meter with q := [] }) = true ∧ (meterNow s).meter.buffer ≠ [] ∧ (meterNow s).meter.buffer.length ≤ 32
   ∧ after .flush s (fun t => t.meter.buffer == [] && t.nand.hand == [[zeros 8]]) = true)
  ∧ (let s := meterCmd [0xFFFF0022, 0, 0, 0, 0, 0, 0, 0] id; mOpcode ⟨[0xFFFF0022], 7, 0, 0, false, false, false, 0⟩ = 0x22
   ∧ meterLeft (.selftest 0) s 0 (fun m => m.mode == .run) = true ∧ meterLeft (.selftest 1) s 0 (fun m => m.mode == .fault) = true) := by
  refine ⟨?_, ?_, ?_, ?_, ?_, ?_, ?_, ?_, ?_, ?_, ?_, ?_, ?_, ?_⟩ <;> decide +kernel

/-- States and operands that meet the hypotheses of each clause of `MeterQueueAndClock`, and what stands after. -/
theorem witness_meterQueueAndClock :
  (let s := csrPut (metered id) offMeterCmd 0x00090001; (meterNow s).meter.power = true ∧ (meterNow s).meter.q.length < 16 ∧ s.mirr.adopts = []
   ∧ meterOpcode (fld (csrGet s offMeterCmd) 7 0) = true
   ∧ after .meterCmdGo s (fun t => t.meter.q == [⟨[0x00090001, 0, 0, 0, 0, 0, 0, 0], 1, 0, 0, false, false, false, 0⟩] && csrGet t offMeterCsent == 1) = true)
  ∧ (let s := metered fun m => { m with q := List.replicate 16 ⟨[1, 0, 0, 0, 0, 0, 0, 0], 7, 0, 0, false, false, false, 0⟩ }; 16 ≤ (meterNow s).meter.q.length
   ∧ after .meterCmdGo s (fun t => t.meter.q.length == 16 && bitOf (csrGet t offMeterStat) 21) = true)
  ∧ ((meterNow (metered call9)).meter.power = true ∧ (metered call9).mirr.adopts = [])
  ∧ (let s := { metered (fun m => { m with present := true }) with time := { TimeSt.reset with cyc := 15000000 } }; s.meter.present = true
   ∧ s.meter.toldAt + 10000000 ≤ elapsed s.time ∧ after .meterLinkSilent s (fun t => ! t.meter.present && csrGet t offMeterNewcall == 0x80) = true)
  ∧ (let s := State.reset; tickValid (meterNow s).meter 8000 = true ∧ (meterNow s).meter.valid = false
   ∧ after (.meterTick 8000 ⟨0, 25⟩) s (fun t => t.meter.valid && t.meter.time == 1000000000 * nsT && t.meter.suspect && ! t.meter.noref) = true
   ∧ tickValid (meterNow s).meter 8001 = false ∧ after (.meterTick 8001 ⟨0, 25⟩) s (fun t => t.meter.time == 0 && t.meter.rseq == 0) = true)
  ∧ (let s := { metered id with time := { TimeSt.reset with cyc := 3000000000 } }; (meterNow s).meter.noref = false
   ∧ (meterNow s).meter.refIc + 2 * secT ≤ (meterNow s).meter.ic ∧ after .meterNoref s (fun t => t.meter.noref && t.meter.valid) = true)
  ∧ (let s := { metered call9 with time := { TimeSt.reset with cyc := 129600000000000 } };
   smapGet none (meterNow s).meter.open_ 9 = some ⟨0x77, false, 0, 0, 0, 0⟩ ∧ dayT ≤ (meterNow s).meter.ic
   ∧ after (.meterPartial 9) s (fun t => (smapGet none t.meter.open_ 9).any fun y => y.ic == dayT && y.ref == 0x77) = true)
  ∧ (let s := metered fun m => { m with rseq := 33, buffer := List.replicate 33 (0, [1]) }; handoverOpen (meterNow s) = true
   ∧ 32 ≤ (meterNow s).meter.buffer.length
   ∧ after .meterHandover s (fun t => t.meter.buffer == [(0, [1])] && t.nand.hand == [List.replicate 32 [1]]) = true)
  ∧ (let s := { metered id with time := { TimeSt.reset with cyc := 129600000000000 } }; (meterNow s).meter.testAt + dayT ≤ (meterNow s).meter.time
   ∧ after (.meterPeriodicSelftest 0) s (fun t => t.meter.mode == .run && t.meter.testAt == dayT) = true
   ∧ after (.meterPeriodicSelftest 3) s (fun t => t.meter.mode == .fault) = true)
  ∧ ((meterNow (metered id)).meter.told = MeterTold.reset
   ∧ after .meterTnsRead (metered id) (fun t => t.busRead == zeros 4 && csrGet t offMeterTsecLo == 0) = true)
  ∧ ((meterNow (metered fun m => { m with told := { MeterTold.reset with time := 5 } })).meter.told ≠ MeterTold.reset)
  ∧ (let s := metered fun m => { m with ofs := 7, resid := 7, goodRun := 3 }; tickValid (meterNow s).meter 0 = true ∧ (meterNow s).meter.valid = true
   ∧ (((0 : Nat) : Int) * 125000 * nsT - (meterNow s).meter.time).natAbs ≤ secT
   ∧ after (.meterTick 0 ⟨0, 25⟩) s (fun t => t.meter.valid && ! t.meter.noref && t.meter.time == 0 && t.meter.ofs == 0 && t.meter.resid == 0) = true) := by
  refine ⟨?_, ?_, ?_, ?_, ?_, ?_, ?_, ?_, ?_, ?_, ?_, ?_⟩ <;> decide +kernel

/-- States and operands that meet the hypotheses of each clause of `MeterPowerAndSealing`, and what stands after. -/
theorem witness_meterPowerAndSealing :
  (let s := metered fun m => { m with power := false }; (meterNow s).meter.power = false ∧ after .meterPowerFail s (fun t => t == s) = true)
  ∧ (let s := metered fun m => { m with power := false, mode := .run }; (meterNow s).meter.power = false
   ∧ after (.meterPowerReturn false true 2) s (fun t => t.meter.power && t.meter.pairId && t.meter.mode == .fault
          && t.meter.armed == none && t.meter.q == []) = true)
  ∧ (let s := metered fun m => { m with power := false, open_ := [(9, some ⟨0x77, false, 0, 0, 0, 0⟩)], rseq := 4, jrseq := 2 };
   (meterNow s).meter.power = false ∧ after (.meterPowerReturn false true 0) s (fun t => t.meter.power && t.meter.open_ == []
          && decide (4 < t.meter.rseq) && t.meter.mode == .run) = true
   ∧ after (.meterPowerReturn true true 0) s (fun t => t.meter.power && decide (2 < t.meter.rseq)) = true)
  ∧ ((meterNow (metered id)).meter.power = true ∧ after (.meterPowerReturn false true 0) (metered id) (fun t => t == metered id) = true)
  ∧ (let s := metered id; (meterNow s).meter.sealed_ = false ∧ after (.meterArm false) s (fun t => t.meter.armed == none && ! t.meter.prog) = true)
  ∧ (let s := metered call9; (meterNow s).meter.power = true
   ∧ after .meterPowerFail s (fun t => ! t.meter.power && t.meter.q == [] && t.meter.open_.length == 1) = true)
  ∧ (let s := metered fun m => { m with power := false, present := true }; (meterNow s).meter.power = false ∧ (meterNow s).meter.open_ = []
   ∧ (meterNow s).meter.half = none ∧ (meterNow s).meter.audit = [] ∧ after (.meterPowerReturn false true 0) s (fun t => t.meter.power && t.meter.mode == .run && t.meter.pairId
          && t.meter.open_ == [] && t.meter.committed == calendar) = true)
  ∧ (let s := metered id; (meterNow s).meter.sealed_ = false ∧ after (.meterArm true) s (fun t => t.meter.armed == some 0 && t.meter.prog) = true)
  ∧ (let s := { metered (fun m => { m with armed := some 0 }) with time := { TimeSt.reset with cyc := 1500000002 } }; (meterNow s).meter.armed.isSome = true
   ∧ armStands (meterNow s).meter = false ∧ after .meterArmExpire s (fun t => t.meter.armed == none) = true)
  ∧ (let s := metered sealable; let m := (meterNow s).meter; m.sealed_ = false ∧ armStands m = true ∧ sealOwner m ≠ 0 ∧ onCurve (pointOf (sealAuth m)) = true
   ∧ m.hasSet = true ∧ m.valid = true)
  ∧ (let s := metered fun m => { m with sealed_ := true }; (meterNow s).meter.sealed_ = true
   ∧ after (.meterSeal true) s (fun t => t.meter.sealed_ && t.meter.audit == []) = true
   ∧ after (.sealRegisterWrite offMeterOwnerLo 9) s (fun t => csrGet t offMeterOwnerLo == 0) = true)
  ∧ (let s := metered id; s.meter.sealed_ = false ∧ s.meter.power = true
   ∧ after (.sealRegisterWrite offMeterOwnerLo 9) s (fun t => csrGet t offMeterOwnerLo == 9 && sealReg t.meter offMeterOwnerLo == 9) = true) := by
  refine ⟨?_, ?_, ?_, ?_, ?_, ?_, ?_, ?_, ?_, ?_, ?_, ?_⟩ <;> decide +kernel

/-- A world in which every operation of the flash succeeds. -/
def calmWorld : FlashWorld := ⟨false, [], [], []⟩

/-- A unit that holds `d`. -/
def unitOf (d : List Byte) : FlashUnit := ⟨true, false, d, false, false, false⟩

/-- The storage controller with a command queued under CSEQ 7; its completion goes nowhere. -/
def nandOn (w : List Word) (f : NandSt → NandSt) : State := flash fun n => { f n with q := [⟨w, 7⟩] }

/-- Block 20 in use by partition 4, with one unit. -/
def oneUnit (u : FlashUnit) (n : NandSt) : NandSt := { n with
  blk := [(20, { Blk.reset with state := .used, part := 4, opened := true })], unit := [(20 * 2048, some u)]
  part := [(4, { PartSt.reset with next := 1 })] }

/-- The result of the command, and what holds of the controller. -/
def nandLeft (i : Instr) (s : State) (code : Nat) (p : NandSt → Bool) : Bool :=
  after i s fun t => t.nand.q == [] && csrGet t offNandCres == wordOf (7 * 65536 + code) && p t.nand

/-- Every free block of partition `p` can still be erased. -/
def fresh (s : State) (p : Nat) : Bool := (freeBlocks s p).all fun g => decide ((blkGet s g).erases < endurLimit s)

/-- Nothing goes before the command on its target. -/
def unheld (s : State) (c : NandCmd) : Bool := ! priorDue s (cmdClass c) (cmdTarget s c)

/-- A record whose RSEQ is `n`. -/
def recordOf (n : Nat) : List Byte := zeros 8 ++ leBytes 8 n ++ zeros 112

/-- A journal of two short slots, in logical blocks 2 and 3 of partition 3. -/
def journal (n : NandSt) : NandSt := { n with
  blk := [(8, { Blk.reset with state := .used, part := 3, lblk := 2, opened := true })]
  unit := [(8 * 2048, some (unitOf (recordOf 1))), (8 * 2048 + 1, some (unitOf (recordOf 2)))]
  part := [(3, { PartSt.reset with next := 2 })] }

/-- States and operands that meet the hypotheses of each clause of `StorageCommands`, and what stands after. -/
theorem witness_storageCommands :
  (let c : NandCmd := ⟨[0x00040001, 0xFFFFFFFF, 0x16000000, 4, 0, 0, 0, 0], 7⟩;
   let s0 := nandOn c.w id; let s := memWrite (csrPut s0 offDevHwlEc 0x02000400) 0x16000000 [9, 8, 7, 6]; s.nand.q[0]? = some c ∧ s.nand.mounted = true
   ∧ nandCheck s c = 0 ∧ nandArea s 0x16000000 4 = true ∧ resultOk s c = true ∧ readOnlyPart s 4 = false
   ∧ blocksNeeded s 4 0 ((8 + 4 + 4095) / 4096) ≤ freeOutside s 4 ∧ nCompress c = false ∧ unheld s c = true ∧ fresh s 4 = true
   ∧ nandLeft (.append 0 calmWorld) s 0 (fun n => smapGet none n.unit (20 * 2048) == some (unitOf [0x50, 0x41, 0, 0, 4, 0, 0, 0, 9, 8, 7, 6])
          && (smapGet PartSt.reset n.part 4).next == 1) = true)
  ∧ (let c : NandCmd := ⟨[0x00040101, 0xFFFFFFFF, 0x16000000, 4, 0, 0, 6, 0], 7⟩; let s := csrPut (nandOn c.w id) offDevHwlEc 0x02000400;
   nandCheck s c = 0 ∧ nCompress c = true ∧ appendCheck s c = 0 ∧ smapGet none s.nand.comp c.cseq = none ∧ chunksOf c = [(0x16000000, 4)]
   ∧ unheld s c = true ∧ fresh s 4 = true ∧ (s.cruc.q.filter fun r => r.queue == 1).length + (chunksOf c).length ≤ 32
   ∧ after (.append 0 calmWorld) s (fun t => t.nand.q == s.nand.q && (smapGet none t.nand.comp c.cseq).isSome) = true)
  ∧ (let c : NandCmd := ⟨[0x00040101, 0xFFFFFFFF, 0x16000000, 4, 0, 0, 6, 0], 7⟩;
   let s := csrPut (nandOn c.w fun n => { n with comp := [(7, some [(0, [0x63, 0, 0])])] }) offDevHwlEc 0x02000400;
   nandCheck s c = 0 ∧ nCompress c = true ∧ appendCheck s c = 0 ∧ smapGet none s.nand.comp c.cseq = some [(0, [0x63, 0, 0])]
   ∧ (chunksOf c).length = 1 ∧ unheld s c = true ∧ fresh s 4 = true ∧ compressFrames s c = some [4, 0, 3, 0, 1, 0, 0, 0, 0x63, 0, 0]
   ∧ nandLeft (.append 0 calmWorld) s 0 (fun n => smapGet none n.unit (20 * 2048) == some (unitOf [0x50, 0x41, 1, 0, 11, 0, 0, 0, 4, 0, 3, 0, 1, 0, 0, 0, 0x63, 0, 0])) = true)
  ∧ (let c : NandCmd := ⟨[0x00040001, 0xFFFFFFFF, 0, 4, 0, 0, 0, 0], 7⟩; let s := flash fun n => { n with q := [⟨[0x00040008, 0, 0, 0, 0, 0, 0, 0], 3⟩, c] };
   s.nand.q[1]? = some c ∧ (s.nand.q.take 1).any (fun d => nPart d == nPart c) = true
   ∧ after (.append 1 calmWorld) s (fun t => t.nand.q.length == 2) = true)
  ∧ (let s := nandOn [0x00050003, 0xFFFFFFFF, 0, 0, 0, 0, 0, 0] id; nandCheck s ⟨[0x00050003, 0xFFFFFFFF, 0, 0, 0, 0, 0, 0], 7⟩ = 0xC1
   ∧ nandLeft (.trim 0 calmWorld) s 0xC1 (fun n => n.unit == []) = true)
  ∧ (let c : NandCmd := ⟨[0x00040002, 0xFFFFFFFF, 0x16000000, 1, 0, 0, 0, 0], 7⟩; let s := csrPut (nandOn c.w (oneUnit (unitOf [1, 2, 3]))) offDevHwlEc 0x02000400;
   nandCheck s c = 0 ∧ nandArea s 0x16000000 4096 = true ∧ (partGet s 4).low ≤ 0 ∧ 0 + 1 ≤ (partGet s 4).next
   ∧ unitAt s 4 0 = some (20, 0) ∧ unitGet s 20 0 = some (unitOf [1, 2, 3]) ∧ s.nand.done = [])
  ∧ (let c : NandCmd := ⟨[0x00040002, 0xFFFFFFFF, 0x16000000, 1, 0, 0, 0, 0], 7⟩;
   let s := csrPut (nandOn c.w (oneUnit { unitOf [1, 2, 3] with lost := true })) offDevHwlEc 0x02000400; nandCheck s c = 0
   ∧ unitGet s 20 0 = some { unitOf [1, 2, 3] with lost := true } ∧ nandLeft (.read 0 calmWorld) s 0xC6 (fun _ => true) = true)
  ∧ (let s := nandOn [0x00040003, 0xFFFFFFFF, 0, 0, 1, 0, 0, 0] (oneUnit (unitOf [1])); nandCheck s ⟨[0x00040003, 0xFFFFFFFF, 0, 0, 1, 0, 0, 0], 7⟩ = 0
   ∧ (1 : Nat) ≤ (partGet s 4).next ∧ nandLeft (.trim 0 calmWorld) s 0 (fun n => (smapGet PartSt.reset n.part 4).low == 1) = true)
  ∧ (let s := nandOn [0x00040004, 0xFFFFFFFF, 0, 0, 0, 0, 0, 0] (oneUnit (unitOf [1])); nandCheck s ⟨[0x00040004, 0xFFFFFFFF, 0, 0, 0, 0, 0, 0], 7⟩ = 0
   ∧ nandLeft (.erasepart 0 calmWorld) s 0 (fun n => (smapGet PartSt.reset n.part 4).next == 0 && (smapGet Blk.reset n.blk 20).state == .free) = true)
  ∧ (let c : NandCmd := ⟨[0x00030005, 0xFFFFFFFF, 0x16000000, 512, 2, 0, 0, 0], 7⟩; let s0 := csrPut (nandOn c.w journal) offDevHwlEc 0x02000400;
   let s := { s0 with meter := { MeterSt.reset with jrseq := 2, rseq := 2 } };
   nandCheck s c = 0 ∧ nandArea s 0x16000000 (128 * 512) = true ∧ s.meter.jrel < 2 ∧ 2 ≤ s.meter.jrseq ∧ s.nand.done = [] ∧ s.poison = []
   ∧ nandLeft (.readrec 0 calmWorld) s 0 (fun _ => true) = true)
  ∧ (let c : NandCmd := ⟨[0x00000006, 0xFFFFFFFF, 0x16000000, 0, 0x003F0014, 0, 0, 0], 7⟩; let s := csrPut (nandOn c.w (oneUnit (unitOf [1, 2, 3]))) offDevHwlEc 0x02000400;
   nandCheck s c = 0 ∧ nandArea s 0x16000000 (4608 * unitsInPage s) = true ∧ resultOk s c = true ∧ 20 % 16384 < targetBlocks s 20 ∧ 63 < s.nand.ppb)
  ∧ (let s := nandOn [0x00040007, 0xFFFFFFFF, 0, 0, 0, 0, 0, 0] (oneUnit (unitOf [1])); nandCheck s ⟨[0x00040007, 0xFFFFFFFF, 0, 0, 0, 0, 0, 0], 7⟩ = 0
   ∧ nandLeft (.patrol 0) s 0 (fun n => n.patrol == [20 * 512] && n.patrolCmd && n.patrolAt == some 0) = true)
  ∧ (let s := nandOn [0x00040008, 0xFFFFFFFF, 0, 0, 0, 0, 0, 0] (oneUnit (unitOf [1])); nandCheck s ⟨[0x00040008, 0xFFFFFFFF, 0, 0, 0, 0, 0, 0], 7⟩ = 0
   ∧ s.nand.mounted = true ∧ unheld s ⟨[0x00040008, 0xFFFFFFFF, 0, 0, 0, 0, 0, 0], 7⟩ = true)
  ∧ (let c : NandCmd := ⟨[0x00000009, 0xFFFFFFFF, 0x16000000, 0, 0, 0, 0, 0], 7⟩;
   let s := memWrite (csrPut (nandOn c.w fun n => { n with table := none }) offDevHwlEc 0x02000400) 0x16000000 tableBytes;
   nandCheck s c = 0 ∧ nandArea s 0x16000000 256 = true ∧ s.dev.run = false ∧ s.meter.sealed_ = false
   ∧ tableOk s (memBytes s 0x16000000 256) = true ∧ nandLeft (.setpart 0 calmWorld) s 0 (fun n => n.table == some tableBytes) = true)
  ∧ (let c : NandCmd := ⟨[0x00000009, 0xFFFFFFFF, 0x16000000, 0, 0, 0, 0, 0], 7⟩;
   let s := memWrite (csrPut (nandOn c.w fun n => { n with table := none }) offDevHwlEc 0x02000400) 0x16000000 [3, 0, 7, 0, 12, 0, 2, 0];
   tableOk s (memBytes s 0x16000000 256) = false ∧ nandLeft (.setpart 0 calmWorld) s 0xCA (fun n => n.table.isNone) = true)
  ∧ (let c : NandCmd := ⟨[0x00000009, 0xFFFFFFFF, 0x16000000, 0, 0, 0, 0, 0], 7⟩; let s0 := csrPut (nandOn c.w id) offDevHwlEc 0x02000400; let s := { s0 with dev := { s0.dev with run := true } };
   nandCheck s c = 0 ∧ s.dev.run = true ∧ nandLeft (.setpart 0 calmWorld) s 0xCB (fun n => n.table == some tableBytes) = true)
  ∧ (let c : NandCmd := ⟨[0x00040004, 0xFFFFFFFF, 0, 0, 0, 0, 0, 0], 7⟩;
   let s := nandOn c.w fun n => { oneUnit (unitOf [1]) n with hand := [[recordOf 1]] };
   nandCheck s c = 0 ∧ nCompress c = false ∧ priorDue s (cmdClass c) (cmdTarget s c) = true
   ∧ after (.erasepart 0 calmWorld) s (fun t => t == s) = true) := by
  refine ⟨?_, ?_, ?_, ?_, ?_, ?_, ?_, ?_, ?_, ?_, ?_, ?_, ?_, ?_, ?_, ?_, ?_⟩ <;> decide +kernel

/-- States and operands that meet the hypotheses of each clause of `StorageWork`, and what stands after. -/
theorem witness_storageWork :
  (let s := flash fun n => { n with q := List.replicate 32 ⟨[1], 1⟩ }; 32 ≤ s.nand.q.length ∧ after .nandCmdGo s (fun t => t.nand.q.length == 32 && csrGet t offNandCsent == 0) = true)
  ∧ (let s := csrPut (flash id) offNandCmd 0x00040009; s.nand.q.length < 32
   ∧ (s.nand.q ++ [(⟨[0x00040009, 0, 0, 0, 0, 0, 0, 0], 1⟩ : NandCmd)]).all (fun d => nandOpcode (nOp d)) = true
   ∧ after .nandCmdGo s (fun t => t.nand.q == [⟨[0x00040009, 0, 0, 0, 0, 0, 0, 0], 1⟩] && csrGet t offNandCsent == 1) = true)
  ∧ (let s := csrPut (flash id) offNandCmd 0x0A; s.nand.q = [] ∧ s.nand.mounted = true ∧ nandOpcode (fld (csrGet s offNandCmd) 7 0) = false
   ∧ after .nandCmdGo s (fun t => t.nand.q == [] && csrGet t offNandCres == 0x000100C0) = true)
  ∧ (let x : NandTarget := ⟨true, 16, 2048, 3, 4, 512, 16384, []⟩; let s := State.reset; s.nand.mounted = false ∧ targetOk x = true
   ∧ after (.nandMount [some x, none, some x]) s (fun t => t.nand.mounted && t.nand.blank && t.nand.blocks.take 4 == [16384, 0, 16384, 0]
        && t.nand.timing.take 3 == [some 3, none, some 3] && t.nand.table.isNone) = true
   ∧ targetOk { x with pageKib := 4 } = false ∧ targetOk { x with spare := 2047 } = false
   ∧ after (.nandMount [some { x with crcOk := false }]) s (fun t => t.nand.mounted && (t.nand.blocks.getD 0 0) == 0) = true
   ∧ after (.nandMount []) s (fun t => t.nand.mounted && (t.nand.blocks.getD 0 0) == 0) = true)
  ∧ (let s := flash fun n => { n with hand := [[recordOf 1, recordOf 2]] }; s.nand.mounted = true ∧ (partEntry s 3).isSome = true ∧ readOnlyPart s 3 = false
   ∧ s.nand.hand = [recordOf 1, recordOf 2] :: [] ∧ 0 < freeOutside s 3 ∧ fresh s 3 = true
   ∧ after (.nandHandover calmWorld) s (fun t => t.nand.hand == [] && t.meter.jrseq == 2 && (partGet t 3).next == 1) = true)
  ∧ (let s := flash fun n => { n with images := [[1, 2]] }; findBlock s 3 (1 - s.nand.paramAt) = none ∧ readOnlyPart s 3 = false
   ∧ 0 < freeOutside s 3 ∧ (partEntry s 3).isSome = true ∧ fresh s 3 = true ∧ after (.nandParamImage calmWorld) s (fun t => t.nand.images == [] && t.nand.paramAt == 1) = true)
  ∧ (let s := flash fun n => { journal n with part := [(3, { PartSt.reset with next := 256 * 8 + 2 })], blk := ((List.range 9).map fun i => (8 + i, { Blk.reset with state := .used, part := 3, lblk := 2 + i })) };
   compactDue s = true ∧ priorDue s 3 (partTarget s 3) = false ∧ freeBlocks s 3 ≠ [] ∧ fresh s 3 = true
   ∧ (shortRuns (liveSlots s calmWorld)).map (fun r => r.length) = [2]
   ∧ ((shortRuns (liveSlots s calmWorld)).flatMap (mergedSlots s)).length = 1
   ∧ after (.nandCompact calmWorld) s (fun t => (partGet t 3).next == (partGet s 3).next + 1) = true)
  ∧ (let s0 := flash fun n => { oneUnit (unitOf [1]) n with blk := [(20, { Blk.reset with state := .used, part := 4 }), (21, { Blk.reset with erases := 9000 })] };
   let s := csrPut s0 offNandCtl 0x40000000; priorDue s 3 (partTarget s 4) = false ∧ bitOf (csrGet s offNandCtl) 30 = true ∧ (partGet s 4).wlAt = none
   ∧ lowestErases s (goodBlocks s 4) = some 20 ∧ highestErases s (goodBlocks s 4) = some 21 ∧ highestErases s (freeBlocks s 4) = some 21
   ∧ lowestErases s ((partBlocks s 4).filter fun b => (blkGet s b).state == .used) = some 20
   ∧ (blkGet s 20).erases + csrFld s offNandWl 15 0 < (blkGet s 21).erases
   ∧ after (.nandWlMove 4 calmWorld) s (fun t => (blkGet t 20).state == .free && (blkGet t 21).state == .used && (blkGet t 21).part == 4) = true)
  ∧ (let s := flash fun n => { oneUnit (unitOf [1]) n with blk := [(20, { Blk.reset with state := .used, part := 4, reads := 0x80000000 })] };
   (blkGet s 20).state = .used ∧ freeBlocks s 4 ≠ [] ∧ fresh s 4 = true ∧ refreshDue s 20 = true ∧ priorDue s 3 0 = false
   ∧ after (.nandRefresh 20 calmWorld) s (fun t => (blkGet t 20).state == .free && (blkGet t 21).state == .used
        && ((unitGet t 21 0).map fun u => u.reloc) == some true) = true)
  ∧ (let s := flash fun n => { oneUnit (unitOf [1]) n with patrol := [20 * 512], patrolLen := 1, patrolCmd := true, patrolAt := some 0 };
   s.nand.patrol = 20 * 512 :: [] ∧ (programmedPages s).contains (20 * 512) = true ∧ priorDue s 4 0 = false
   ∧ s.nand.patrolAt.getD 0 + (s.nand.patrolLen - s.nand.patrol.length) * patrolPeriod s / s.nand.patrolLen ≤ elapsed s.time
   ∧ after (.nandPatrolRead calmWorld) s (fun t => t.nand.patrol == [] && cntGet t offNandRead == cntGet s offNandRead + 1) = true) := by
  refine ⟨?_, ?_, ?_, ?_, ?_, ?_, ?_, ?_, ?_, ?_⟩ <;> decide +kernel

/-- The unit with MIRR_CTL.EN set, MAC4 ready, the peer's address given, NFN at `nfn` and `m` as the controller's state. -/
def mirror (nfn : Nat) (m : MirrSt) : State :=
  { macPut (csrPut (csrPut (csrPut (csrPut (timed fun t => { t with cyc := 187500 * (nfn + 10000), nfn := BitVec.ofNat 64 nfn, ticks := nfn + 10000 })
      offMirrCtl 0xD8000000) (offMacCtl + 4 * 0x10000) 0xE0000000) (offMacMaxlen + 4 * 0x10000) 2218) offMirrPeerLo 0x11)
      4 { MacSt.reset with link := true } with mirr := m }

/-- The controller in a role. -/
def roleOf (r : MirrRole) : MirrSt := { MirrSt.reset with role := r, peerRole := 1 }

/-- That a command completed with a value in MIRR_CMDSTAT. -/
def mirrLeft (i : Instr) (s : State) (v : Word) (p : State → Bool) : Bool :=
  after i s (fun t => csrGet t offMirrCmdstat == v && p t)

/-- The payload of a mirror frame, with its TYPE, FLAGS, role, epoch, SEQ and ACK, as MAC4 received it from the other unit. -/
def mirrFrame (type flags role epoch seq ack : Nat) (p : List Byte) : RxFrame :=
  ⟨zeros 12 ++ [0x88, 0xB5, 0x10] ++ beBytes 1 type ++ beBytes 1 flags ++ beBytes 1 (1 + 2 * role) ++ beBytes 4 epoch ++ beBytes 4 seq
    ++ beBytes 4 ack ++ zeros 4 ++ beBytes 2 p.length ++ zeros 2 ++ p, false, 0, 0, false, false⟩

/-- That frame read. -/
def mirrRead (type flags role epoch seq ack : Nat) (p : List Byte) : MirrRx :=
  ⟨type, flags.testBit 0, flags.testBit 2, flags.testBit 3, flags.testBit 4, role, epoch, seq, ack, p⟩

/-- The unit with one frame at the head of MAC4's FIFO. -/
def hearing (f : RxFrame) (s : State) : State := macPut s 4 { macGet s 4 with rx := [f] }

/-- That a command took the frame at the head of MAC4's FIFO. -/
def took (i : Instr) (s : State) (role : Nat) (p : State → Bool) : Bool :=
  after i s (fun t => (macGet t 4).rx == [] && t.mirr.peerRole == role && p t)

/-- The role commands. -/
def roleCmds : List Instr := [.startActive, .startStandby, .promote false, .promote true, .demote, .rejoin, .mirrSync]

/-- States and operands that meet the hypotheses of each clause of `MirrorRoleCommands`, and what stands after. -/
theorem witness_mirrorRoleCommands :
  (let s := mirror 100 { roleOf .init with cmd := some (.startActive 2 90) }; s.mirr.cmd ≠ none
   ∧ (roleCmds.all fun i => mirrLeft i s 0xC00000A9 (fun t => t.mirr == s.mirr)) = true)
  ∧ (let s := csrPut (mirror 100 (roleOf .init)) offMirrCtl 0x58000000; s.mirr.cmd = none ∧ mirrEn s = false
   ∧ (roleCmds.all fun i => mirrLeft i s 0x800000A0 (fun t => t.mirr == s.mirr)) = true)
  ∧ (let s := mirror 100 { roleOf .init with pairErr := true }; s.mirr.cmd = none ∧ mirrEn s = true ∧ s.mirr.pairErr = true
   ∧ (roleCmds.all fun i => mirrLeft i s 0x800000A7 (fun t => t.mirr == s.mirr)) = true)
  ∧ (let s := csrPut (mirror 100 (roleOf .init)) offMirrPeerLo 0; s.mirr.cmd = none ∧ mirrEn s = true ∧ s.mirr.pairErr = false ∧ linkReady s = false
   ∧ ([Instr.startActive, .startStandby, .rejoin, .mirrSync].all fun i => mirrLeft i s 0x800000A1 (fun t => t.mirr == s.mirr)) = true)
  ∧ (let s := mirror 100 (roleOf .init); s.mirr.cmd = none ∧ mirrEn s = true ∧ s.mirr.pairErr = false ∧ linkReady s = true ∧ s.mirr.role = .init
   ∧ after .startActive s (fun t => t.mirr.cmd == some (.startActive 3 100) && t.mirr.role == .init && bitOf (csrGet t offMirrCmdstat) 30) = true
   ∧ after .startStandby s (fun t => t.mirr.cmd == some (.startStandby 18100) && t.mirr.role == .init && bitOf (csrGet t offMirrCmdstat) 30) = true)
  ∧ (let s := macPut (csrPut (mirror 100 { roleOf .standby with actNow := true }) offMirrPeerEpoch 4294967294) 2 { MacSt.reset with gated := true };
   s.mirr.role = .standby ∧ max (mirrEpoch s) (csrGet s offMirrPeerEpoch).toNat < 4294967295 ∧ (macGet s 2).gated = true ∧ activeHeard s = true
   ∧ mirrLeft (.promote true) s 0x80000000 (fun t => t.mirr.role == .active && csrGet t offMirrEpoch == 0xFFFFFFFF && (macGet t 2).ungate) = true
   ∧ mirrLeft (.promote false) s 0x800000A2 (fun t => t.mirr.role == .standby) = true)
  ∧ (let s := mirror 100 (roleOf .standby); s.mirr.role = .standby ∧ activeHeard s = false
   ∧ mirrLeft (.promote false) s 0x80000000 (fun t => t.mirr.role == .active && csrGet t offMirrEpoch == 1) = true)
  ∧ (let s := mirror 100 (roleOf .fenced); s.mirr.role = .fenced
   ∧ mirrLeft (.promote true) s 0x800000A3 (fun t => t.mirr.role == .fenced) = true
   ∧ mirrLeft (.promote false) s 0x800000A3 (fun t => t.mirr.role == .fenced) = true)
  ∧ (let s := csrPut (mirror 100 { roleOf .active with peerInsync := true, linkOk := true }) (offMacCtl + 0x10000) 0x04000000;
   s.mirr.role = .active ∧ s.mirr.peerRole = 1 ∧ s.mirr.peerInsync = true ∧ s.mirr.linkOk = true ∧ bitOf (macReg s 1 offMacCtl) 26 = true
   ∧ mirrLeft .demote s 0x80000000 (fun t => t.mirr.role == .standby && csrGet t offMirrEpoch == 0 && (macGet t 1).gated
          && t.mirr.demote == some (0, 100)) = true)
  ∧ (let s := mirror 100 { roleOf .active with linkOk := true }; s.mirr.role = .active ∧ s.mirr.peerInsync = false
   ∧ mirrLeft .demote s 0x800000A6 (fun t => t.mirr.role == .active) = true)
  ∧ (let s := csrPut (mirror 100 { roleOf .fenced with actLink := true }) offMirrPeerEpoch 9; linkReady s = true ∧ s.mirr.role = .fenced
   ∧ activeOnLink s = true
   ∧ mirrLeft .rejoin s 0x80000000 (fun t => t.mirr.role == .standby && t.mirr.wantSync && csrGet t offMirrEpoch == 9) = true)
  ∧ (let s := mirror 100 { roleOf .fenced with actNow := true }; linkReady s = true ∧ s.mirr.role = .fenced ∧ activeOnLink s = false
   ∧ mirrLeft .rejoin s 0x800000A5 (fun t => t.mirr.role == .fenced) = true)
  ∧ (let s := mirror 100 (roleOf .active); linkReady s = true ∧ s.mirr.role = .active ∧ bindings s = [] ∧ s.meter.open_ = [] ∧ s.mirr.posts = []
   ∧ mirrHeld s = false ∧ s.mirr.win.length < 1024
   ∧ mirrLeft .mirrSync s 0x80000000 (fun t => t.mirr.win == [⟨0, 0x13, true, true, [], [], 1, 10100⟩]) = true)
  ∧ (let s := mirror 100 { roleOf .init with cmd := some (.startStandby 10100) }; s.mirr.cmd = some (.startStandby 10100) ∧ 10100 ≤ s.time.ticks
   ∧ mirrLeft .startStandbyTimeout s 0x800000AA (fun t => t.mirr.cmd == none && t.mirr.role == .init) = true)
  ∧ (let s := mirror 100 { roleOf .standby with demote := some (3, 8) }; s.mirr.demote = some (3, 8) ∧ (3 : Nat) ≤ 3
   ∧ after .demoteTimeout s (fun t => t.mirr.demote == none && t.mirr.role == .standby) = true)
  ∧ (let s := macPut (csrPut (mirror 100 (roleOf .standby)) offMirrEpoch 5) 3 { MacSt.reset with gated := true }; mirrEn s = true ∧ (macGet s 3).gated = true
   ∧ after (.mirrDisable 0xFFFFFFFF) s (fun t => ! mirrEn t && t.mirr.role == .init && t.mirr.cmd == none && csrGet t offMirrEpoch == 5
          && (macGet t 3).ungate) = true) := by
  refine ⟨?_, ?_, ?_, ?_, ?_, ?_, ?_, ?_, ?_, ?_, ?_, ?_, ?_, ?_, ?_, ?_⟩ <;> decide +kernel

/-- States and operands that meet the hypotheses of each clause of `MirrorBeatsAndDeath`, and what stands after. -/
theorem witness_mirrorBeatsAndDeath :
  (let s := mirror 80 (roleOf .active); mirrEn s = true ∧ nfnOf s % 80 = slotPhase s true ∧ s.mirr.beatAt ≠ nfnOf s + 1 ∧ mirrHeld s = false
   ∧ after .heartbeatSend s (fun t => t.mirr.beatAt == 81 && t.mirr.pulse == 4 && t.mirr.pulseAt == elapsed s.time
          && ((macGet t 4).tx.any fun f => isMirrType f 1) && cntGet t offMirrTxfrm == 1) = true)
  ∧ (let s := mirror 40 (roleOf .standby); mirrEn s = true ∧ pinSlot s = some 40
   ∧ after (.peerHbPulse 3500) s (fun t => t.mirr.peerRole == 2 && t.mirr.pinSlot == 41) = true
   ∧ after (.peerHbPulse 4519) s (fun t => t.mirr.peerRole == 2 && t.mirr.pinSlot == 41) = true
   ∧ after (.peerHbPulse 8500) s (fun t => t.mirr.peerRole == 3 && t.mirr.pinSlot == 41) = true
   ∧ ([1499, 2520, 3499, 4520, 7499, 8520].all fun w => after (.peerHbPulse w) s (fun t => t == s)) = true)
  ∧ (let s := mirror 48 { roleOf .standby with linkSlot := 41, linkRun := (2, 0), deadRun := 2 }; mirrEn s = true ∧ dueSlot s = some 40
   ∧ s.mirr.judged ≠ 41 ∧ s.mirr.cmd = none ∧ s.mirr.linkSlot = 41
   ∧ after .peerSlotJudge s (fun t => t.mirr.judged == 41 && t.mirr.deadRun == 0 && t.mirr.linkRun == (3, 0) && t.mirr.linkOk
          && t.mirr.role == .standby) = true)
  ∧ (let s := mirror 48 { roleOf .standby with linkRun := (0, 2), linkOk := true, deadRun := 1 }; dueSlot s = some 40 ∧ s.mirr.linkSlot ≠ 41
   ∧ s.mirr.pinSlot ≠ 41 ∧ s.mirr.deadRun ≠ 2
   ∧ after .peerSlotJudge s (fun t => t.mirr.judged == 41 && t.mirr.deadRun == 2 && ! t.mirr.linkOk && t.mirr.role == .standby) = true)
  ∧ (let s := mirror 48 { roleOf .standby with deadRun := 2 }; dueSlot s = some 40 ∧ s.mirr.linkSlot ≠ 41 ∧ s.mirr.pinSlot ≠ 41 ∧ s.mirr.deadRun = 2
   ∧ s.mirr.role = .standby ∧ bitOf (csrGet s offMirrCtl) 30 = true ∧ max (mirrEpoch s) (csrGet s offMirrPeerEpoch).toNat < 4294967295
   ∧ after .peerSlotJudge s (fun t => t.mirr.role == .active && t.mirr.peerRole == 7 && csrGet t offMirrEpoch == 1) = true)
  ∧ (let s := fun k a => mirror 48 { roleOf .init with linkSlot := 41, cmd := some (.startActive k a) }; dueSlot (s 3 40) = some 40
   ∧ after .peerSlotJudge (s 3 40) (fun t => t.mirr.cmd == some (.startActive 3 40) && t.mirr.role == .init) = true
   ∧ after .peerSlotJudge (s 3 39) (fun t => t.mirr.cmd == some (.startActive 2 39) && t.mirr.role == .init) = true
   ∧ after .peerSlotJudge (s 1 39) (fun t => t.mirr.cmd == none && t.mirr.role == .active && csrGet t offMirrEpoch == 1) = true)
  ∧ (let f : MirrFrame := ⟨5, 0x40, false, true, [1], [], 16, 0⟩; let s := mirror 48 { roleOf .standby with win := [f] };
   mirrEn s = true ∧ mirrHeld s = false ∧ f.since + retxTmo s ≤ s.time.ticks ∧ f.sent < retxMax s + 1
   ∧ after .retxTimeout s (fun t => t.mirr.win == [{ f with sent := 17, since := 10048 }]) = true)
  ∧ (let f : MirrFrame := ⟨5, 0x40, false, true, [1], [], 17, 0⟩; let s := mirror 48 { roleOf .standby with win := [f] };
   mirrHeld s = false ∧ f.since + retxTmo s ≤ s.time.ticks ∧ retxMax s + 1 ≤ f.sent ∧ s.mirr.role = .standby
   ∧ after .retxTimeout s (fun t => t.mirr.win == [] && t.mirr.restart && t.mirr.wantSync && ! t.mirr.insync) = true)
  ∧ (let s := mirror 48 { roleOf .standby with ackDue := some 1256000000 }; 1256000000 ≤ elapsed s.time ∧ mirrHeld s = false
   ∧ after .ackSend s (fun t => t.mirr.ackDue == none && ((macGet t 4).tx.any fun f => isMirrType f 2) && cntGet t offMirrTxfrm == 1) = true) := by
  refine ⟨?_, ?_, ?_, ?_, ?_, ?_, ?_, ?_, ?_⟩ <;> decide +kernel

/-- States and operands that meet the hypotheses of each clause of `MirrorFramesReceived`, and what stands after. -/
theorem witness_mirrorFramesReceived :
  (let s := hearing (mirrFrame 2 0 2 1 0 0 []) (mirror 48 (roleOf .active)); (macGet s 4).rx = [mirrFrame 2 0 2 1 0 0 []] ∧ mirrEn s = true
   ∧ mirrParse (mirrFrame 2 0 2 1 0 0 []) = some (mirrRead 2 0 2 1 0 0 [], ! s.dev.pairId) ∧ s.mirr.cmd = none
   ∧ mirrEpoch s < 1 ∧ s.mirr.role = .active
   ∧ took .mirrRxAck s 2 (fun t => t.mirr.role == .fenced && csrGet t offMirrPeerEpoch == 1) = true)
  ∧ (let s := hearing (mirrFrame 2 0 1 4 0 0 []) (csrPut (mirror 48 (roleOf .active)) offMirrEpoch 5);
   mirrParse (mirrFrame 2 0 1 4 0 0 []) = some (mirrRead 2 0 1 4 0 0 [], ! s.dev.pairId) ∧ 4 < mirrEpoch s
   ∧ took .mirrRxAck s 1 (fun t => t.mirr.role == .active && t.mirr.win == [] && cntGet t offMirrStale == 1) = true)
  ∧ (let g : MirrFrame := ⟨7, 0x40, false, true, [1], [], 1, 0⟩; let s := hearing (mirrFrame 2 0 2 0 0 6 []) (mirror 48 { roleOf .standby with
        win := [{ g with seq := 6 }, g] });
   mirrParse (mirrFrame 2 0 2 0 0 6 []) = some (mirrRead 2 0 2 0 0 6 [], ! s.dev.pairId) ∧ mirrEpoch s = 0 ∧ s.mirr.role = .standby
   ∧ s.mirr.posts = [] ∧ took .mirrRxAck s 2 (fun t => t.mirr.role == .standby && t.mirr.win == [g]) = true)
  ∧ (let p := beBytes 8 40 ++ [0xA] ++ zeros 7; let s := hearing (mirrFrame 1 0 2 0 0 0 p) (mirror 40 (roleOf .standby));
   mirrParse (mirrFrame 1 0 2 0 0 0 p) = some (mirrRead 1 0 2 0 0 0 p, ! s.dev.pairId) ∧ s.mirr.listen = none
   ∧ beAt p 0 8 % 80 = slotPhase s false ∧ beAt p 0 8 = nfnOf s
   ∧ took .mirrRxHeartbeat s 2 (fun t => t.mirr.role == .standby && t.mirr.peerSleep && t.mirr.peerInsync && t.mirr.linkSlot == 41) = true)
  ∧ (let p := zeros 600; let s := hearing (mirrFrame 0x20 0 2 0 0 0 p) (mirror 40 (roleOf .standby));
   mirrParse (mirrFrame 0x20 0 2 0 0 0 p) = some (mirrRead 0x20 0 2 0 0 0 p, ! s.dev.pairId) ∧ p.length = 600 ∧ s.mirr.win = []
   ∧ bindGet s (beAt p 8 2) = none ∧ s.mirr.syncEnd = false
   ∧ took .mirrRxState s 2 (fun t => cntGet t offMirrStdrop == 1 && t.mem == []) = true)
  ∧ (let p := zeros 9 ++ [6] ++ zeros 6 ++ [0x77] ++ zeros 583;
   let s := hearing (mirrFrame 0x20 0 2 0 0 0 p) (putDesc (bindPut (mirror 40 (roleOf .standby)) 6 (some (bound6 [] []))) 6 0x20 0x100);
   mirrParse (mirrFrame 0x20 0 2 0 0 0 p) = some (mirrRead 0x20 0 2 0 0 0 p, ! s.dev.pairId) ∧ p.length = 600 ∧ beAt p 8 2 = 6
   ∧ (bindGet s 6).isSome = true ∧ chanActive s 6 = true ∧ (chanStat s 6).getLsbD 9 = false
   ∧ (smapGet MirrKeep.reset s.mirr.keep 6).state = none ∧ s.poison = [] ∧ s.mirr.syncEnd = false
   ∧ took .mirrRxState s 2 (fun t => memBytes t (chanAddr s 6 + 0x40) 560 == [0x77] ++ zeros 559) = true)
  ∧ (let p := zeros 10 ++ [0xFF, 0xFF] ++ zeros 2052; let s := hearing (mirrFrame 0x21 0 2 0 0 0 p) (mirror 40 (roleOf .standby));
   mirrParse (mirrFrame 0x21 0 2 0 0 0 p) = some (mirrRead 0x21 0 2 0 0 0 p, ! s.dev.pairId) ∧ s.mirr.win = [] ∧ s.poison = []
   ∧ ecCount s ≤ beAt p 10 2 ∧ took .mirrRxEcrec s 2 (fun t => cntGet t offMirrEcdrop == 1 && t.mem == []) = true)
  ∧ (let p := zeros 8 ++ [0, 6] ++ zeros 22 ++ [0x77] ++ zeros 2031;
   let s := hearing (mirrFrame 0x21 0 2 0 0 0 p) (memWrite (mirror 40 (roleOf .standby)) (0x14000000 + 0xE00) [0x43, 0x45, 6, 0]);
   mirrParse (mirrFrame 0x21 0 2 0 0 0 p) = some (mirrRead 0x21 0 2 0 0 0 p, ! s.dev.pairId) ∧ beAt p 10 2 < ecCount s
   ∧ ecMagic s 0 = 0x4543 ∧ (ecRefOf s 0).owner = beAt p 8 2 ∧ (ecRefOf s 0).mode = leAt ((p.drop 16).take 2048) 0x604 4 % 8
   ∧ s.mirr.syncEnd = false)
  ∧ (let p := beBytes 8 8000 ++ zeros 16; let s := hearing (mirrFrame 0x30 0 2 0 0 0 p) (mirror 8003 { roleOf .standby with
        fingers := [(8000, zeros 16)], misRun := 2, cfgMis := true });
   mirrParse (mirrFrame 0x30 0 2 0 0 0 p) = some (mirrRead 0x30 0 2 0 0 0 p, ! s.dev.pairId) ∧ s.mirr.win = []
   ∧ s.mirr.fingers.find? (fun g => g.1 == beAt p 0 8) = some (8000, zeros 16) ∧ zeros 16 = p.drop 8
   ∧ took .mirrRxFinger s 2 (fun t => t.mirr.misRun == 0 && ! t.mirr.cfgMis) = true)
  ∧ (let p := beBytes 8 8000 ++ [1] ++ zeros 15; let s := hearing (mirrFrame 0x30 0 2 0 0 0 p) (mirror 8003 { roleOf .standby with
        fingers := [(8000, zeros 16)], misRun := 2 });
   mirrParse (mirrFrame 0x30 0 2 0 0 0 p) = some (mirrRead 0x30 0 2 0 0 0 p, ! s.dev.pairId)
   ∧ s.mirr.fingers.find? (fun g => g.1 == beAt p 0 8) = some (8000, zeros 16) ∧ zeros 16 ≠ p.drop 8
   ∧ took .mirrRxFinger s 2 (fun t => t.mirr.misRun == 3 && t.mirr.cfgMis) = true)
  ∧ (let p := [2] ++ zeros 7; let s := hearing (mirrFrame 3 1 2 0 9 0 p) (mirror 48 { roleOf .standby with expect := 9 });
   mirrParse (mirrFrame 3 1 2 0 9 0 p) = some (mirrRead 3 1 2 0 9 0 p, ! s.dev.pairId) ∧ s.mirr.expect = 9 ∧ s.mirr.win = []
   ∧ byteAt p 0 = 2 ∧ max (mirrEpoch s) (csrGet s offMirrPeerEpoch).toNat < 4294967295
   ∧ took .mirrRxRole s 2 (fun t => t.mirr.role == .active && csrGet t offMirrEpoch == 1) = true)
  ∧ (let p := [0xFF, 0xFF] ++ zeros 66; let s := hearing (mirrFrame 0x10 1 2 0 9 0 p) (mirror 48 { roleOf .standby with expect := 9 });
   mirrParse (mirrFrame 0x10 1 2 0 9 0 p) = some (mirrRead 0x10 1 2 0 9 0 p, ! s.dev.pairId) ∧ chanCount s ≤ beAt p 0 2
   ∧ took .mirrRxDesc s 2 (fun t => t.mirr.expect == 10 && t.mem == []) = true)
  ∧ (let p := [0, 6] ++ zeros 10 ++ [0x77] ++ zeros 55; let s := hearing (mirrFrame 0x10 1 2 0 9 0 p) (mirror 48 { roleOf .standby with expect := 9 });
   mirrParse (mirrFrame 0x10 1 2 0 9 0 p) = some (mirrRead 0x10 1 2 0 9 0 p, ! s.dev.pairId) ∧ beAt p 0 2 < chanCount s
   ∧ bindGet s 6 = none ∧ checkWaits s 6 = false ∧ s.poison = [] ∧ bitOf (descWord s 6 0) 0 = false ∧ byteAt p 4 % 2 = 0
   ∧ took .mirrRxDesc s 2 (fun t => t.mirr.expect == 10 && memBytes t (chanAddr s 6) 0x20 == zeros 8 ++ [0x77] ++ zeros 23) = true)
  ∧ (let p := zeros 4; let s := hearing (mirrFrame 0x11 1 2 0 4294967295 0 p) (mirror 48 { roleOf .standby with expect := 4294967295 });
   mirrParse (mirrFrame 0x11 1 2 0 4294967295 0 p) = some (mirrRead 0x11 1 2 0 4294967295 0 p, ! s.dev.pairId)
   ∧ took .mirrRxDescres s 2 (fun t => t.mirr.expect == 0 && t.mirr.ackDue == some (elapsed s.time + ackDelay s) && t.mem == []) = true)
  ∧ (let p := fun (c : Byte) => [0, 6, c, 0]; let f := fun c => mirrFrame 0x11 1 1 0 9 0 (p c);
   let s0 := mirror 48 { roleOf .active with expect := 9 };
   let s1 := fun c => hearing (f c) s0; let s2 := fun c => hearing (f c) (queuePut (csrPut s0 (offQmgrEvroute + 0x44) 0x80000007) 7 (openQueue 1 []));
   mirrParse (f 6) = some (mirrRead 0x11 1 1 0 9 0 (p 6), ! s0.dev.pairId) ∧ s0.mirr.win = [] ∧ mirrEpoch s0 = 0
   ∧ took .mirrRxDescres (s1 0) 1 (fun t => t.mirr.expect == 10 && t.qmgr == s0.qmgr) = true
   ∧ took .mirrRxDescres (s1 6) 1 (fun t => t.mirr.expect == 10 && cntGet t offQmgrEvdisc == 1) = true
   ∧ csrFld (s2 6) offQmgrClrLowev 18 0 + 128 < freeCells (s2 6)
   ∧ took .mirrRxDescres (s2 6) 1 (fun t => t.mirr.expect == 10 && (queueGet t 7).items.length == 1) = true)
  ∧ (let p := [0, 6, 1, 1, 0, 0, 0, 0x77] ++ zeros 12; let s := hearing (mirrFrame 0x12 1 2 0 9 0 p) (mirror 48 { roleOf .standby with expect := 9 });
   mirrParse (mirrFrame 0x12 1 2 0 9 0 p) = some (mirrRead 0x12 1 2 0 9 0 p, ! s.dev.pairId) ∧ byteAt p 2 ≠ 3
   ∧ took .mirrRxCall s 2 (fun t => t.mirr.expect == 10 && smapGet none t.mirr.calls 6 == some ⟨0x77, 1, zeros 10⟩) = true)
  ∧ (let p := [0, 6, 3, 1, 0, 0, 0, 0x77] ++ zeros 12; let s := hearing (mirrFrame 0x12 1 2 0 9 0 p) (mirror 48 { roleOf .standby with expect := 9, calls := [(6, some ⟨0x77, 1, zeros 10⟩)] });
   mirrParse (mirrFrame 0x12 1 2 0 9 0 p) = some (mirrRead 0x12 1 2 0 9 0 p, ! s.dev.pairId) ∧ byteAt p 2 = 3
   ∧ took .mirrRxCall s 2 (fun t => t.mirr.expect == 10 && t.mirr.calls == []) = true)
  ∧ (let s := hearing (mirrFrame 0x13 1 2 0 9 0 []) (mirror 48 { roleOf .standby with expect := 9, wantSync := true });
   mirrParse (mirrFrame 0x13 1 2 0 9 0 []) = some (mirrRead 0x13 1 2 0 9 0 [], ! s.dev.pairId) ∧ bindings s = []
   ∧ took .mirrRxSyncend s 2 (fun t => t.mirr.expect == 10 && t.mirr.syncEnd && ! t.mirr.wantSync && t.mirr.insync) = true)
  ∧ (let p := zeros 9 ++ [6, 1] ++ zeros 6 ++ [0x77] ++ zeros 14; let s := hearing (mirrFrame 0x22 1 2 0 9 0 p) (mirror 48 { roleOf .standby with expect := 9 });
   mirrParse (mirrFrame 0x22 1 2 0 9 0 p) = some (mirrRead 0x22 1 2 0 9 0 p, ! s.dev.pairId) ∧ p.length = 32 ∧ byteAt p 10 = 1
   ∧ took .mirrRxHorizon s 2 (fun t => t.mirr.expect == 10
          && (smapGet MirrKeep.reset t.mirr.keep 6).send == some (0, beAt p 12 6, beAt p 20 4)) = true)
  ∧ (let p := [(0x5A : Byte)]; let s0 := csrPut (mirror 48 { roleOf .standby with expect := 9 }) offMirrUserrx 0x80000007;
   let s := hearing (mirrFrame 0x40 1 2 0 9 0 p) (queuePut s0 7 (openQueue 1 []));
   mirrParse (mirrFrame 0x40 1 2 0 9 0 p) = some (mirrRead 0x40 1 2 0 9 0 p, ! s.dev.pairId) ∧ bitOf (csrGet s offMirrUserrx) 31 = true
   ∧ csrFld s offMirrUserrx 15 0 = 7 ∧ (queueGet s 7).en = true ∧ (queueGet s 7).items.length < (queueGet s 7).limit
   ∧ csrFld s offQmgrClrLowev 18 0 + 128 < freeCells s) := by
  refine ⟨?_, ?_, ?_, ?_, ?_, ?_, ?_, ?_, ?_, ?_, ?_, ?_, ?_, ?_, ?_, ?_, ?_, ?_, ?_, ?_⟩ <;> decide +kernel

/-- States and operands that meet the hypotheses of each clause of `MirrorSendingAndSleep`, and what stands after. -/
theorem witness_mirrorSendingAndSleep :
  (let s := putDesc (bindPut (mirror 192 (roleOf .active)) 4 (some (bound6 [] []))) 4 0x20 0x100; mirrActive s = true
   ∧ bitOf (csrGet s offMirrCtl) 27 = true ∧ s.mirr.peerSleep = false ∧ snapDue s 4 = true
   ∧ after (.stateSnapshot [4]) s (fun t => smapGet 0 t.mirr.snapAt 4 == 193
          && ((macGet t 4).tx.map fun f => isMirrType f 0x20) == [true] && t.mem == s.mem) = true)
  ∧ (let s := bindPut (mirror 192 { roleOf .active with ecAt := [(0, some (9000, false))] }) 6 (some (bound6 [0] [])); mirrActive s = true
   ∧ bitOf (csrGet s offMirrCtl) 28 = true ∧ s.mirr.peerRole = 1 ∧ s.mirr.peerSleep = false ∧ smapGet none s.mirr.ecAt 0 = some (9000, false)
   ∧ ecOldest s = some (0, 1192)
   ∧ (bindings s).find? (fun y => y.2.ec.head? == some 0) = some (6, bound6 [0] []) ∧ (bound6 [0] []).ec = [0])
  ∧ (let s := mirror 8000 (roleOf .active); mirrEn s = true ∧ nfnOf s % 8000 = 0 ∧ (s.mirr.fingers.head?.map fun f => f.1) ≠ some (nfnOf s)
   ∧ mirrHeld s = false)
  ∧ (let s := cellItem (queuePut (csrPut (mirror 48 (roleOf .standby)) offMirrUserq 0x80000007) 7 (openQueue 1 [⟨5, 1⟩])) 5 [0x5A];
   mirrEn s = true ∧ bitOf (csrGet s offMirrUserq) 31 = true ∧ csrFld s offMirrUserq 15 0 = 7 ∧ (queueGet s 7).items = ⟨5, 1⟩ :: []
   ∧ (itemBytes s ⟨5, 1⟩).length ≤ 2176 ∧ mirrHeld s = false ∧ s.mirr.posts = [] ∧ s.mirr.win.length < 1024
   ∧ csrFld s offQmgrClrLowev 18 0 < freeCells s
   ∧ after .mirrUserSend s (fun t => (queueGet t 7).items == [] && t.mirr.win == [⟨0, 0x40, false, true, [0x5A], [], 1, 10048⟩]) = true)
  ∧ (let s := csrPut (mirror 40 { roleOf .standby with asleep := true }) offMirrCtl 0xF8000000; sleeps s = true ∧ s.mirr.asleep = true
   ∧ wakeWindow s = some (20000, true, 40) ∧ s.mirr.wokeSlot ≠ 41
   ∧ after .sleepWake s (fun t => ! t.mirr.asleep && t.mirr.closeAt == elapsed s.time + 20000 && t.mirr.wakePeer && t.mirr.wokeSlot == 41) = true
   ∧ after .sleepWake { s with mirr := { s.mirr with wokeSlot := 41 } } (fun t => t.mirr.asleep) = true)
  ∧ (let s := csrPut (mirror 40 { roleOf .standby with wokeAt := elapsed (mirror 40 MirrSt.reset).time - 2000000 }) offMirrCtl 0xF8000000;
   sleeps s = true ∧ s.mirr.asleep = false ∧ s.mirr.listen = none ∧ s.mirr.wokeAt + 2000000 ≤ elapsed s.time
   ∧ after .sleepWake s (fun t => t.mirr.asleep) = true)
  ∧ (let s := csrPut (mirror 48 { roleOf .standby with wakePeer := true, closeAt := 5 }) offMirrCtl 0xF8000000; sleeps s = true
   ∧ s.mirr.listen = none ∧ s.mirr.asleep = false ∧ s.mirr.wakePeer = true ∧ s.mirr.heardWake = false ∧ s.mirr.closeAt < elapsed s.time
   ∧ after .sleepResync s (fun t => t.mirr.listen == some 10048 && ! t.mirr.sleepLost) = true)
  ∧ (let s := csrPut (mirror 48 { roleOf .standby with listen := some 2048 }) offMirrCtl 0xF8000000; sleeps s = true ∧ s.mirr.listen = some 2048
   ∧ 2048 + 8000 ≤ s.time.ticks ∧ s.mirr.sleepLost = false
   ∧ after .sleepResync s (fun t => t.mirr.sleepLost && t.mirr.listen == some 2048) = true) := by
  refine ⟨?_, ?_, ?_, ?_, ?_, ?_, ?_, ?_⟩ <;> decide +kernel

/-- The endpoint enabled, with its configuration space set, 2 s after reset. -/
def hosted (f : HostSt → HostSt) : State := { timed (fun t => { t with cyc := 3000000000 }) with host := f { HostSt.reset with
  on := true, memEn := true, busMaster := true, msixEn := true } }

/-- Ring 3 running with a CTL word, a base at host address 0x1000 and a number of descriptors posted from CONS 65535 on. -/
def ring3 (ctl : Word) (posted : Nat) (s : State) : State :=
  csrPut (csrPut (csrPut (csrPut s (ringReg offHostRingCtl 3) ctl) (ringReg offHostRingBaseLo 3) 0x1000)
    (ringReg offHostRingCons 3) 65535) (ringReg offHostRingProd 3) (wordOf ((65535 + posted) % 65536))

/-- A descriptor of a ring. -/
def desc3 (haddr len op flags addr : Nat) : List Byte :=
  leBytes 8 haddr ++ leBytes 4 len ++ leBytes 1 op ++ leBytes 1 flags ++ zeros 2 ++ leBytes 4 addr ++ zeros 12

/-- That a ring command ended ring 3's descriptor with a code, a byte count and what it wrote before. -/
def ended3 (i : Instr) (s : State) (code bytes : Nat) (out : List (Nat × List Byte)) (p : State → Bool) : Bool :=
  after i s (fun t => t.host.out == out ++ [(0x1000 + 15 * 32 + 24, leBytes 1 code ++ leBytes 3 bytes ++ [1, 0, 0, 0])]
    && ringCons t 3 == 0 && cntGet t offHostDesc == 1 && p t)

/-- That a ring command stopped ring 3 on an error of host memory. -/
def stopped3 (i : Instr) (s : State) : Bool :=
  after i s (fun t => ! ringRun t 3 && csrGet t (ringReg offHostRingStat 3) == 0x80000002 && ringCons t 3 == 65535
    && t.host.out == [(0x1000 + 15 * 32 + 24, leBytes 4 6)])

/-- States and operands that meet the hypotheses of each clause of `HostWindowsAndLink`, and what stands after. -/
theorem witness_hostWindowsAndLink :
  (let s := memWrite (hosted id) 0x19FFFFFE [5, 6]; barOn s = true ∧ (∀ i, i < 2 → isPoison s (hwBase + 0x9FFFFFE + i) = false)
   ∧ after (.bar2Read 0x9FFFFFE 2) s (fun t => t.mem == s.mem) = true)
  ∧ (let s := hosted id; barOn s = true ∧ (0xA000000 : Nat) ≤ 0xA000000
   ∧ after (.bar2Read 0xA000000 2) s (fun t => t.busRead == [0, 0] && bitOf (csrGet t offHostStat) 0 && t.mem == []) = true)
  ∧ (let s := hosted id; barOn s = true ∧ 0x9FFFFFE + ([5, 6] : List Byte).length ≤ 0xA000000 ∧ s.poison = []
   ∧ ctlTouched s (hwBase + 0x9FFFFFE) 2 = [] ∧ descTouched s (hwBase + 0x9FFFFFE) 2 = []
   ∧ after (.bar2Write 0x9FFFFFE [5, 6]) s (fun t => t.mem == [(0x19FFFFFE, 5), (0x19FFFFFF, 6)] && t.csr == s.csr) = true)
  ∧ (let s := hosted id; barOn s = true ∧ ([5] : List Byte) ≠ []
   ∧ after (.bar2Write 0xA000000 [5]) s (fun t => bitOf (csrGet t offHostStat) 0 && t.mem == []) = true
   ∧ after .bar0PartialWrite s (fun t => bitOf (csrGet t offHostStat) 1 && t.mem == []) = true)
  ∧ (let s := ring3 0x80000000 1 (hosted id); barOn s = true ∧ (3 : Nat) < 16 ∧ ringRun s 3 = true
   ∧ (fld 0xFFF0000F#32 15 0 + 65536 - ringCons s 3) % 65536 ≤ ringSize s 3
   ∧ after (.ringDoorbell 3 0xFFF0000F) s (fun t => ringProd t 3 == 15 && ringRun t 3 && t.host == s.host) = true)
  ∧ (let s := ring3 0x80000000 1 (hosted id); ringRun s 3 = true ∧ ringSize s 3 < (fld 16#32 15 0 + 65536 - ringCons s 3) % 65536
   ∧ after (.ringDoorbell 3 16) s (fun t => ! ringRun t 3 && csrGet t (ringReg offHostRingStat 3) == 0x80000001) = true)
  ∧ (let s := hosted id; ringRun s 15 = false ∧ ringSize s 15 = 16
   ∧ after (.ringDoorbell 15 16) s (fun t => ringProd t 15 == 16 && ! ringRun t 15 && csrGet t (ringReg offHostRingStat 15) == 0) = true
   ∧ after (.ringDoorbell 15 17) s (fun t => ! ringRun t 15 && csrGet t (ringReg offHostRingStat 15) == 0x80000001) = true)
  ∧ (let s := csrPut (hosted id) (offHostDbtgt + 4 * 63) 0xFFFFFFFF; barOn s = true ∧ smapGet none s.host.held 63 = none
   ∧ csrGet s (offHostDbtgt + 4 * 63) = 0xFFFFFFFF
   ∧ after (.signalDoorbell 63 9) s (fun t => t.core == s.core && cntGet t offHostDbdrop == 1) = true)
  ∧ (let s := csrPut (hosted id) (offHostDbtgt + 4 * 63) 0x80000120; smapGet none s.host.held 63 = none ∧ isKind1 0x80000120 = true
   ∧ undeliverable s 0x80000120 = none ∧ targetCtx 0x80000120 = 5 ∧ (ctxGet s 5).sigq.length < 16
   ∧ after (.signalDoorbell 63 9) s (fun t => (ctxGet t 5).sigq == [(0x003F8212, 9)]) = true)
  ∧ (let s := ctxPut (csrPut (hosted id) (offHostDbtgt + 4 * 63) 0x80000120) 5 { Ctx.reset 5 with sigq := fullQueue };
   undeliverable s 0x80000120 = none ∧ 16 ≤ (ctxGet s 5).sigq.length
   ∧ after (.signalDoorbell 63 9) s (fun t => smapGet none t.host.held 63 == some 9 && t.core == s.core) = true)
  ∧ (let s := hosted fun h => { h with pend := [2, 9], table := [(4 * 9 + 3, 0)] }; 9 ∈ s.host.pend ∧ bitOf (msixWord s (4 * 9 + 3)) 0 = false
   ∧ mastering s = true ∧ s.host.msixEn = true ∧ s.host.funMask = false ∧ smapGet 0 s.host.sentAt 9 = 0
   ∧ after (.msixSend 9) s (fun t => t.host.pend == [2] && t.host.sent == some 9 && smapGet 0 t.host.sentAt 9 == 2000000001) = true)
  ∧ (let s := csrPut (ring3 0x80000000 1 (hosted fun h => { h with table := [(3, 0)] })) offHostStat 0xFE000003; s.host.on = true
   ∧ ([Instr.pcieHotReset, .pcieLinkDown, .pcieFlr].all fun x => after x s (fun t => ! t.host.memEn
          && ! t.host.busMaster && ! t.host.msixEn && t.host.table == [] && ! ringRun t 3 && ringProd t 3 == 0 && ringCons t 3 == 65535
          && csrGet t offHostStat == 0 && ! t.host.d3)) = true)
  ∧ (let s := csrPut (hosted id) offHostStat 3; let c : PcieCfg := ⟨true, false, true, true, false, [], none⟩; s.host.on = true ∧ c.table = [] ∧ c.read = none
   ∧ after (.pcieLinkChange 4 1 c) s (fun t => t.host.memEn && ! t.host.busMaster && t.host.msixEn && csrGet t offHostStat == 0xC2000003) = true
   ∧ after (.pcieLinkChange 1 4 c) s (fun t => t.host.memEn && csrGet t offHostStat == 0x98000003) = true)
  ∧ (let s := { hosted (fun _ => HostSt.reset) with dev := { DevSt.reset with held := false, mode := 2 } }; s.host.on = false ∧ s.dev.held = false
   ∧ 20000000 ≤ elapsed s.time ∧ s.dev.mode = 2
   ∧ after .pcieEndpointEnable s (fun t => t.host.on && usbEn t && usbRegen t && csrGet t offUsbImgBase == 0x18000000) = true)
  ∧ (let s := csrPut (hosted id) offHostStat 3; let c := fun d r => PcieCfg.mk true true true true d [(4, 0xFEE00000)] r; let on := fun d r p => after (.pcieLinkChange 4 1 (c d r)) s p
   on true none (fun t => t.host.d3 && ! barOn t && ! mastering t) = true
   ∧ on false (some (.bar4 0x8010 4)) (fun t => barOn t && smapGet 0 t.host.table 4 == 0xFEE00000 && t.busRead == leBytes 4 0xFEE00000) = true
   ∧ on false (some .ident) (fun t => t.busRead == [0x3C, 0x1F, 0x60, 0x71]) = true
   ∧ on false (some .classCode) (fun t => t.busRead == [0, 0x80, 0x11]) = true
   ∧ on false (some .sizes) (fun t => t.busRead == [0, 1, 0, 2]) = true) := by
  refine ⟨?_, ?_, ?_, ?_, ?_, ?_, ?_, ?_, ?_, ?_, ?_, ?_, ?_, ?_, ?_⟩ <;> decide +kernel

/-- States and operands that meet the hypotheses of each clause of `HostRings`, and what stands after. -/
theorem witness_hostRings :
  (let s := ring3 0x80000000 1 (hosted id); ringJob s 3 = none ∧ ringServed s 3 false = true
   ∧ descCode s false (desc3 0 0 1 0 0) = some 0 ∧ descCode s false (desc3 0 5 0 0 0) = some 1 ∧ descCode s false (desc3 0 14337 1 0 0) = some 2
   ∧ ended3 (.ringH2dMsg 3 (desc3 0 5 0 0 0) [] true true) s 1 0 [] (fun t => t.mem == []) = true
   ∧ ended3 (.ringH2dMsg 3 (desc3 0 14337 1 0 0) [] true true) s 2 0 [] (fun t => t.mem == []) = true)
  ∧ (let s := ring3 0x80000000 1 (hosted id); dOp (desc3 0 1048577 2 0 0x10000000) = 2 ∧ descCode s false (desc3 0 1048577 2 0 0x10000000) = some 2
   ∧ ended3 (.ringH2dWrite 3 (desc3 0 1048577 2 0 0x10000000) [] true true) s 2 0 [] (fun t => t.mem == []) = true
   ∧ dOp (desc3 0 2 3 0 0x19FFFFFF) = 3 ∧ descCode s false (desc3 0 2 3 0 0x19FFFFFF) = some 3
   ∧ ended3 (.ringH2dRead 3 (desc3 0 2 3 0 0x19FFFFFF) true true) s 3 0 [] (fun t => t.mem == []) = true)
  ∧ (let d := desc3 0x80 3 1 0 0; let s := queuePut (ring3 0x80000007 1 (hosted id)) 7 (openQueue 1 []); ringServed s 3 false = true ∧ dOp d = 1
   ∧ descCode s false d = none ∧ stopped3 (.ringH2dMsg 3 d [1, 2, 3] true true) s = true ∧ fld (ringCtl s 3) 15 0 = 7
   ∧ (queueGet s 7).en = true ∧ (queueGet s 7).items.length < (queueGet s 7).limit ∧ csrFld s offQmgrClrLowev 18 0 + 128 < freeCells s)
  ∧ (let d := desc3 0x80 3 2 0 0x19FFFFFD; let s := ring3 0x80000000 16 (hosted id); ringServed s 3 false = true ∧ dOp d = 2
   ∧ descCode s false d = none ∧ stopped3 (.ringH2dWrite 3 d [1, 2, 3] true true) s = true ∧ s.poison = []
   ∧ ctlTouched s (dAddr d) 3 = [] ∧ descTouched s (dAddr d) 3 = []
   ∧ ended3 (.ringH2dWrite 3 d [1, 2, 3] false true) s 0 3 [] (fun t => memBytes t 0x19FFFFFD 3 == [1, 2, 3]) = true)
  ∧ (let d := desc3 0x80 3 3 0 0x19FFFFFD; let s := memWrite (ring3 0x80000000 1 (hosted id)) 0x19FFFFFD [1, 2, 3]; ringServed s 3 false = true
   ∧ dOp d = 3 ∧ descCode s false d = none ∧ stopped3 (.ringH2dRead 3 d true true) s = true ∧ anyPoison s (dAddr d) 3 = false
   ∧ ended3 (.ringH2dRead 3 d false true) s 0 3 [(0x80, [1, 2, 3])] (fun t => t.mem == s.mem) = true)
  ∧ (let d := desc3 0x80 3 3 0 0x19FFFFFC; let s := { ring3 0x80000000 1 (hosted id) with poison := [(0x19FFFFFC, true)] };
   ringServed s 3 false = true ∧ dOp d = 3 ∧ descCode s false d = none)
  ∧ (let s := ring3 0xC0000000 1 (hosted id); ringServed s 3 true = true ∧ descCode s true (desc3 0 4 2 0 0) = some 1
   ∧ descCode s true (desc3 0 0 1 0 0) = some 0 ∧ descCode s true (desc3 0 0xFFFFFFFF 1 0 0) = none
   ∧ ended3 (.ringD2hMsg 3 (desc3 0 4 2 0 0) true true) s 1 0 [] (fun t => t.mem == []) = true)
  ∧ (let d := desc3 0x80 3 1 0 0; let s := ring3 0xC0000007 1 (hosted id); ringServed s 3 true = true ∧ descCode s true d = none
   ∧ stopped3 (.ringD2hMsg 3 d true true) s = true ∧ (queueGet s 7).items = []
   ∧ after (.ringD2hMsg 3 d false true) s (fun t => t == s) = true)
  ∧ (let d := desc3 0x80 3 1 0 0; let s := cellItem (queuePut (ring3 0xC0000007 1 (hosted id)) 7 (openQueue 1 [⟨5, 1⟩])) 5 [1, 2, 3];
   ringServed s 3 true = true ∧ descCode s true d = none ∧ (queueGet s 7).items = ⟨5, 1⟩ :: [] ∧ itemBad s ⟨5, 1⟩ = false
   ∧ csrFld s offQmgrClrLowev 18 0 < freeCells s ∧ (itemBytes s ⟨5, 1⟩).length ≤ 3
   ∧ ended3 (.ringD2hMsg 3 d false true) s 0 3 [(0x80, [1, 2, 3])] (fun t => (queueGet t 7).items == []) = true) := by
  refine ⟨?_, ?_, ?_, ?_, ?_, ?_, ?_, ?_, ?_⟩ <;> decide +kernel

/-- The craft port attached, 2 s after reset. -/
def usbOn (ctl : Word) (f : UsbSt → UsbSt) : State :=
  csrPut { timed (fun t => { t with cyc := 3000000000 }) with usb := f { UsbSt.reset with vbus := true } } offUsbCtl ctl

/-- That a transfer was answered with those bytes. -/
def usbGives (i : Instr) (s : State) (bs : List Byte) (p : State → Bool) : Bool :=
  after i s (fun t => ! t.usb.stall && ! t.usb.nak && t.busRead == bs && p t)

/-- That a transfer was answered with STALL, and that it was held off with NAK. -/
def usbStalls (i : Instr) (s : State) : Bool := after i s (fun t => t.usb.stall && t.busRead == [] && t.mem == s.mem)
def usbNaks (i : Instr) (s : State) : Bool := after i s (fun t => t.usb.nak && t.busRead == [] && t.mem == s.mem)

/-- States and operands that meet the hypotheses of each clause of `UsbCommands`, and what stands after. -/
theorem witness_usbCommands :
  (let s := usbOn 0 fun u => { u with vbus := false, configured := true, suspended := true };
   after (.usbAttach true) s (fun t => t.usb.vbus) = true
   ∧ after (.usbAttach false) s (fun t => ! t.usb.vbus && ! t.usb.configured && t.usb.staged == none && ! t.usb.suspended) = true)
  ∧ (let s := csrPut (usbOn 0 fun u => { u with report := some [] }) (offUsbAlm + 4) 0x01020304;
   after .usbAlmgo s (fun t => t.usb.report == some (zeros 4 ++ [4, 3, 2, 1] ++ zeros 8) && cntGet t offUsbAlmovr == 1) = true)
  ∧ (let s := usbOn 0xA0000000 fun u => { u with configured := true, addr := 9, img := 1, staged := some (4, 5) }; usbAttached s = true
   ∧ after (.usbBusReset true) s (fun t => ! t.usb.configured && t.usb.addr == 0 && t.usb.img == 0 && t.usb.staged == none && ! t.usb.hs
          && cntGet t offUsbResets == 1) = true
   ∧ s.usb.suspended = false ∧ after .usbSuspend s (fun t => t.usb.suspended && t.usb.configured) = true)
  ∧ (let s := usbOn 0x80000000 fun u => { u with suspended := true, rwake := true, report := some [1], idleAt := 1995000000 };
   usbAttached s = true ∧ s.usb.suspended = true ∧ wakeWanted s = true ∧ s.usb.idleAt + 5000000 ≤ elapsed s.time
   ∧ after (.usbBusReset true) s (fun t => t.usb.hs && ! t.usb.suspended) = true
   ∧ after .usbResume s (fun t => ! t.usb.suspended && t.usb.report == some [1]) = true
   ∧ after (.usbRemoteWake true) s (fun t => ! t.usb.suspended && t.usb.report == some [1] && cntGet t offUsbWakecol == 1) = true
   ∧ after (.usbRemoteWake false) s (fun t => ! t.usb.suspended && t.usb.report == some [1] && cntGet t offUsbWakecol == 0) = true)
  ∧ (let s := usbOn 0x80000000 id; usbAttached s = true ∧ usbGives (.usbStandardRequest 0 9 0x101 0) s [] (fun t => t.usb.configured) = true
   ∧ usbGives (.usbStandardRequest 0 9 0x100 0) s [] (fun t => ! t.usb.configured) = true ∧ usbStalls (.usbStandardRequest 0 9 2 0) s = true
   ∧ usbGives (.usbStandardRequest 0 5 0x85 0) s [] (fun t => t.usb.addr == 5) = true
   ∧ usbStalls (.usbStandardRequest 0x40 9 0x101 0) s = true ∧ usbStalls (.usbStandardRequest 0xA0 9 0 0) s = true
   ∧ usbGives (.usbStandardRequest 0x80 6 0x600 3) s [10, 6, 0] (fun _ => true) = true
   ∧ usbGives (.usbStandardRequest 0 3 1 0) s [] (fun t => t.usb.rwake) = true)
  ∧ (let s := usbOn 0x80000000 id; usbAttached s = true ∧ usbStalls (.getInfo 31) s = true ∧ usbStalls (.imgBegin 3 4 9) s = true
   ∧ usbStalls (.imgBegin 2 3 9) s = true ∧ s.usb.img ≠ 1 ∧ usbStalls (.imgEnd ⟨0, calmWorld⟩) s = true ∧ usbStalls (.getStatus 7) s = true
   ∧ usbGives (.imgBegin 2 4 9) s [] (fun t => t.usb.img == 1 && t.usb.target == 2 && t.usb.len == 9 && t.usb.got == 0) = true)
  ∧ (let s := usbOn 0x80000000 fun u => { u with img := 1, got := 7, code := 3 }; usbAttached s = true ∧ s.usb.img = 1 ∧ bootReady s 2 = false ∧ usbStalls (.imgEnd ⟨1, calmWorld⟩) s = true
   ∧ usbGives (.imgEnd ⟨0, calmWorld⟩) s [] (fun t => t.usb.img == 2 && t.usb.got == 7 && t.usb.code == 3) = true
   ∧ usbGives (.getStatus 8) { s with usb := { s.usb with staged := some (4, 5) } } [1, 3, 0, 0, 7, 0, 0, 0]
          (fun t => t.usb.staged == none && cntGet t offUsbAbandon == 1) = true)
  ∧ (let s := { usbOn 0x80000000 (fun u => { u with img := 1, excess := true }) with dev := { DevSt.reset with bootRom := true, assayed := true, held := false, mode := 2 } };
   s.usb.img = 1 ∧ bootReady s 2 = true ∧ s.usb.excess = true
   ∧ usbGives (.imgEnd ⟨0, calmWorld⟩) s [] (fun t => t.usb.img == 2 && t.usb.code == 0x78 && t.dev.bootRom) = true)
  ∧ (let s := csrPut (usbOn 0xC0000000 fun u => { u with regAddr := offTimeFreq }) offTimeFreq 0x11223344; usbAttached s = true ∧ usbRegen s = true
   ∧ s.usb.staged = none ∧ usbGives (.regWrite 8 0x10 5) s [] (fun t => t.usb.staged == some (16, 5) && t.csr == s.csr) = true
   ∧ usbGives (.regAddr 4 0x20) s [] (fun t => t.usb.regAddr == 0x20) = true
   ∧ usbGives (.regRead 0 4) s [0x44, 0x33, 0x22, 0x11] (fun _ => true) = true ∧ usbStalls (.regWrite 7 0 0) s = true
   ∧ usbStalls (.regAddr 8 0) s = true ∧ usbStalls (.regRead 1 4) s = true ∧ usbStalls (.regRead 0 8) s = true)
  ∧ (let s := usbOn 0x80000000 id; usbAttached s = true ∧ usbRegen s = false ∧ usbStalls (.regWrite 8 0 0) s = true
   ∧ usbStalls (.regAddr 4 0) s = true ∧ usbStalls (.regRead 0 4) s = true)
  ∧ (let s := csrPut (csrPut (usbOn 0x80000000 fun u => { u with configured := true, img := 1, len := 9, got := 6 }) offUsbImgBase 0x19FFFFF7) offUsbImgSize 9;
   usbAttached s = true ∧ s.usb.configured = true ∧ s.usb.img = 1 ∧ s.usb.got + 3 ≤ min s.usb.len (imgSize s)
   ∧ hwBase ≤ 0x19FFFFF7 ∧ 0x19FFFFFD + 3 ≤ hwEnd ∧ s.poison = [] ∧ ctlTouched s 0x19FFFFFD 3 = [] ∧ descTouched s 0x19FFFFFD 3 = []
   ∧ usbGives (.usbImageData [1, 2, 3]) s [] (fun t => t.usb.got == 9 && memBytes t 0x19FFFFFD 3 == [1, 2, 3]) = true)
  ∧ (let s := usbOn 0x80000000 fun u => { u with configured := true }; usbAttached s = true ∧ s.usb.configured = true ∧ s.usb.img ≠ 1
   ∧ usbStalls (.usbImageData [1]) s = true)
  ∧ (let s := queuePut (csrPut (usbOn 0x80000000 fun u => { u with configured := true }) offUsbConrx 0x80000007) 7 (openQueue 1 []); usbLive s = true
   ∧ s.dev.bootRom = false ∧ bitOf (csrGet s offUsbConrx) 31 = true ∧ csrFld s offUsbConrx 15 0 = 7 ∧ (queueGet s 7).en = true
   ∧ (queueGet s 7).items.length < (queueGet s 7).limit ∧ ([1] : List Byte).length ≤ 14336
   ∧ csrFld s offQmgrClrLowev 18 0 + 128 < freeCells s)
  ∧ (let s := usbOn 0x80000000 fun u => { u with configured := true, report := some [1, 2] }; usbLive s = true ∧ s.dev.bootRom = false
   ∧ bitOf (csrGet s offUsbConrx) 31 = false ∧ usbNaks (.usbConsoleOut [1]) s = true ∧ bitOf (csrGet s offUsbContx) 31 = false
   ∧ usbNaks .usbConsoleIn s = true ∧ s.usb.report = some [1, 2] ∧ usbGives .usbAlarmIn s [1, 2] (fun t => t.usb.report == none) = true)
  ∧ (let s0 := csrPut (usbOn 0x80000000 fun u => { u with configured := true }) offUsbContx 0x80000007;
   let s := cellItem (queuePut s0 7 (openQueue 1 [⟨5, 1⟩])) 5 [1, 2, 3]; usbLive s = true ∧ s.dev.bootRom = false
   ∧ bitOf (csrGet s offUsbContx) 31 = true ∧ (queueGet s 7).items = ⟨5, 1⟩ :: [] ∧ csrFld s offQmgrClrLowev 18 0 < freeCells s
   ∧ usbGives .usbConsoleIn s [1, 2, 3] (fun t => (queueGet t 7).items == []) = true ∧ s.usb.report = none ∧ usbNaks .usbAlarmIn s = true) := by
  refine ⟨?_, ?_, ?_, ?_, ?_, ?_, ?_, ?_, ?_, ?_, ?_, ?_, ?_, ?_, ?_⟩ <;> decide +kernel

/-- The hash of a public key (the base point of P-256). -/
def keyHash : List Byte := beBytes 32 0xD875DB7DEF232236AEC738C6B0BB3E80142F5D0FD8F4DF24FED6EEF5CBB50D9F

/-- A boot package with one empty entry of data, signed under that key. -/
def bootPkg : List Byte :=
  beBytes 48 0x4B42504B01000100D000000045230100000000000000000000000000000000006B17D1F2E12C4247F8BCE6E563A440F2
    ++ beBytes 48 0x77037D812DEB33A0F4A13945D898C2964FE342E2FE1A7F9B8EE7EB4A7C0F9E162BCE33576B315ECECBB6406837BF51F5
    ++ beBytes 48 0x03000000700000000000000020000010D875DB7DEF232236AEC738C6B0BB3E80142F5D0FD8F4DF24FED6EEF5CBB50D9F
    ++ beBytes 48 0x96C298D84539A1F4A033EB2D817D0377F240A463E5E6BCF847422CE1F2D1176BDC49BF5DDFF1C38A57C267BD5144A7E6
    ++ beBytes 16 0x13343790E5E5646A18577CBD6121F90F

/-- A boot package with a supervisor image for S1 whose one template record fails, signed under that key. -/
def tmplPkg : List Byte :=
  beBytes 48 0x4B42504B010001008C01000045230000000000000000000000000000000000006B17D1F2E12C4247F8BCE6E563A440F2
    ++ beBytes 48 0x77037D812DEB33A0F4A13945D898C2964FE342E2FE1A7F9B8EE7EB4A7C0F9E162BCE33576B315ECECBB6406837BF51F5
    ++ beBytes 48 0x0102000070000000BC0000000000000044524E5301000100BC00000001000000FFFFFFFFFFFFFFFFFFFFFFFFFFFFFFFF
    ++ beBytes 48 0x00000000FFFFFFFF00000000000000000000000000000000000000000000000004000000000000000C00000050000000
    ++ beBytes 48 0x0001000011000000FFFF0000D875DB7DEF232236AEC738C6B0BB3E80142F5D0FD8F4DF24FED6EEF5CBB50D9F96C298D8
    ++ beBytes 48 0x4539A1F4A033EB2D817D0377F240A463E5E6BCF847422CE1F2D1176BF4E8C5E4D5A68E3C22EC2208F6A19E15A406B7A9
    ++ beBytes 48 0x250B281D03BD714B199846DFD875DB7DEF232236AEC738C6B0BB3E80142F5D0FD8F4DF24FED6EEF5CBB50D9F96C298D8
    ++ beBytes 48 0x4539A1F4A033EB2D817D0377F240A463E5E6BCF847422CE1F2D1176BB8C45E2F4DD5DFF618505C284550CBD31A616298
    ++ beBytes 12 0x53B88F6F9EBF8D4FAF40D2AB

/-- The Boot ROM at work in a mode, after the assay, with that key in OTP slot 2. -/
def booting (mode : Nat) (s : State) : State := { s with dev := { DevSt.reset with
  held := false, bootRom := true, assayed := true, mode := mode, otpKey := [(2, some keyHash)] } }

/-- A flash whose partition 1 holds one append of those bytes. -/
def bootFlash (d : List Byte) : State := flash fun n => { n with
  table := some ([1, 0, 40, 0, 4, 0, 2, 0] ++ zeros 8 ++ tableBytes.take 240)
  blk := [(40, { Blk.reset with state := .used, part := 1, opened := true })]
  unit := [(40 * 2048, some (unitOf ([0x50, 0x41, 0, 0] ++ leBytes 4 d.length ++ d)))]
  part := [(1, { PartSt.reset with next := 1 })] }

/-- That the package of `bootPkg` started, and that one was refused. -/
def started (i : Instr) (s : State) (source : Nat) : Bool := after i s fun t => ! t.dev.bootRom && csrFld t offDevBoot 31 28 == source
  && csrFld t offDevBoot 27 26 == 2 && csrFld t offDevBoot 15 0 == 0x2345
def refused (i : Instr) (s : State) (code : Nat) : Bool := after i s fun t => t.dev.bootRom && csrFld t offDevBoot 23 16 == code && t.core == s.core

/-- The device state changed by `f`, and the assay's, 20 s after reset. -/
def devOn (f : DevSt → DevSt) : State := { State.reset with dev := f { DevSt.reset with held := false } }
def assayOn (ctl : Word) (f : AssaySt → AssaySt) : State :=
  csrPut { timed (fun t => { t with cyc := 30000000000 }) with dev := { DevSt.reset with held := false, run := true }, assay := f AssaySt.reset } offAssayCtl ctl

/-- States and operands that meet the hypotheses of each clause of `BootRunAndOtp`, and what stands after. -/
theorem witness_bootRunAndOtp :
  (let s := booting 0 (flash id); bootReady s 0 = true ∧ s.nand.mounted = true ∧ s.dev.noBoot = false ∧ s.dev.bootOver = false ∧ (partitionPkg s calmWorld 2).head = none
   ∧ (partitionPkg s calmWorld 1).head = none ∧ after (.bootSelect calmWorld) s (fun t => t.dev.noBoot && t.dev.bootRom && t.core == s.core) = true)
  ∧ (let s := booting 0 (bootFlash bootPkg); bootReady s 0 = true ∧ s.nand.mounted = true ∧ s.dev.noBoot = false
   ∧ (partitionPkg s calmWorld 2).head = none ∧ (partitionPkg s calmWorld 1).head.isSome = true
   ∧ (verifyPkg s (partitionPkg s calmWorld 1)).1 = 0
   ∧ (startPkg s 0 (verifyPkg s (partitionPkg s calmWorld 1)).2.1 (verifyPkg s (partitionPkg s calmWorld 1)).2.2).2 = 0
   ∧ started (.bootSelect calmWorld) s 0 = true)
  ∧ (let s := booting 0 (bootFlash tmplPkg); let v := verifyPkg s (partitionPkg s calmWorld 1);
   let a := ctxPut s 516 { Ctx.reset 516 with state := .wait .fence }; let job := (129, (tmplPkg.drop 112).take 188);
   v.1 = 0 ∧ v.2.1 = tmplPkg ∧ pkgJobs s tmplPkg = [job] ∧ engineStopped (stopEngine s 129) 129 = true
   ∧ (startPkg (stopEngine s 129) 0 tmplPkg 2).2 = 0x77 ∧ engineStopped (stopEngine a 129) 129 = false
   ∧ after (.bootSelect calmWorld) s (fun t => t.dev.bootRom && t.dev.bootOver && ! t.dev.noBoot && csrFld t offDevBoot 23 16 == 0x77) = true
   ∧ after (.bootSelect calmWorld) a (fun t => t.dev.bootRom && t.dev.bootWait != [] && t.mem == a.mem) = true)
  ∧ (let s := booting 0 (bootFlash (bootPkg.take 207)); bootReady s 0 = true ∧ s.nand.mounted = true ∧ (partitionPkg s calmWorld 2).head = none
   ∧ (partitionPkg s calmWorld 1).head.isSome = true ∧ (verifyPkg s (partitionPkg s calmWorld 1)).1 = 0x71
   ∧ refused (.bootSelect calmWorld) s 0x71 = true)
  ∧ (let s := csrPut (memWrite (booting 1 State.reset) 0x19FFFF30 bootPkg) offDevBootaddr 0x19FFFF30; bootReady s 1 = true
   ∧ (verifyPkg s (heartwoodPkg s (csrGet s offDevBootaddr).toNat 0xA000000)).1 = 0
   ∧ (startPkg s 2 (verifyPkg s (heartwoodPkg s (csrGet s offDevBootaddr).toNat 0xA000000)).2.1
          (verifyPkg s (heartwoodPkg s (csrGet s offDevBootaddr).toNat 0xA000000)).2.2).2 = 0
   ∧ started .bootGo s 2 = true)
  ∧ (let s := csrPut (booting 1 State.reset) offDevBootaddr 0x19FFFF31; bootReady s 1 = true
   ∧ (verifyPkg s (heartwoodPkg s (csrGet s offDevBootaddr).toNat 0xA000000)).1 = 0x70 ∧ refused .bootGo s 0x70 = true)
  ∧ (let s := devOn id; s.dev.run = false ∧ s.dev.check = false ∧ after .runSet s (fun t => t.dev.check && ! t.dev.run) = true)
  ∧ (let s := devOn fun d => { d with check := true }; s.dev.check = true ∧ runCode s = 0
   ∧ after .runCheck s (fun t => csrFld t offDevStat 31 24 == 0 && t.dev.run && ! t.dev.check) = true)
  ∧ (let s := devOn fun d => { d with check := true, cfgBusy := true }; s.dev.check = true ∧ runCode s = 0x69
   ∧ after .runCheck s (fun t => csrFld t offDevStat 31 24 == 0x69 && ! t.dev.run && ! t.dev.check) = true)
  ∧ (let s := devOn fun d => { d with run := true }; s.dev.run = true ∧ s.dev.check = false ∧ bindings s = []
   ∧ after .runClear s (fun t => t.dev.clear && t.dev.run && t.csr == s.csr) = true)
  ∧ (let s := bindPut (devOn fun d => { d with run := true }) 16383 (some (bound6 [] [])); s.dev.run = true ∧ s.dev.check = false ∧ bindings s ≠ []
   ∧ after .runClear s (fun t => csrFld t offDevStat 31 24 == 0x68 && t.dev.run && ! t.dev.clear) = true)
  ∧ (let s := csrPut (devOn id) (offDevOtpdata + 28) 0x01020304; smapGet none s.dev.otpKey 3 = none
   ∧ after (.otpProgram 3) s (fun t => csrGet t offDevOtpstat == 0x80000000 && smapGet none t.dev.otpKey 3 == some (zeros 28 ++ [1, 2, 3, 4])
          && t.dev.otpRevoked == []) = true
   ∧ after (.otpRevoke 3) s (fun t => csrGet t offDevOtpstat == 0x80000002 && t.dev == s.dev) = true)
  ∧ (let s := devOn fun d => { d with otpKey := [(0, some keyHash)] }; (smapGet none s.dev.otpKey 0).isSome = true
   ∧ after (.otpProgram 0) s (fun t => csrGet t offDevOtpstat == 0x80000001 && t.dev == s.dev) = true
   ∧ after (.otpRevoke 0) s (fun t => csrGet t offDevOtpstat == 0x80000000 && t.dev.otpRevoked == [0] && t.dev.otpKey == s.dev.otpKey) = true)
  ∧ (let s := csrPut (devOn fun d => { d with otpMin := 4 }) offDevOtpdata 5; s.dev.otpMin < (csrGet s offDevOtpdata).toNat
   ∧ after .otpRaiseMin s (fun t => csrGet t offDevOtpstat == 0x80000000 && t.dev.otpMin == 5) = true)
  ∧ (let s := csrPut (devOn fun d => { d with otpMin := 5 }) offDevOtpdata 5; (csrGet s offDevOtpdata).toNat ≤ s.dev.otpMin
   ∧ after .otpRaiseMin s (fun t => csrGet t offDevOtpstat == 0x80000003 && t.dev == s.dev) = true)
  ∧ (let s := devOn fun d => { d with keyStage := [(0, 1), (1, 2), (2, 3), (3, 4)] }; s.dev.run = false ∧ s.dev.check = false
   ∧ after (.cfgkeyApply 9) s (fun t => t.dev.cfgBusy && t.dev.key == [1, 0, 0, 0, 2, 0, 0, 0, 3, 0, 0, 0, 9, 0, 0, 0]) = true)
  ∧ (let s := devOn fun d => { d with run := true }; s.dev.run = true ∧ after (.cfgkeyApply 9) s (fun t => t == s) = true)
  ∧ (let s := devOn fun d => { d with cfgBusy := true, cfgOld := [1, 2, 3, 4, 5, 6, 7, 8] }; s.dev.cfgBusy = true
   ∧ after .cfgRecomputeDone s (fun t => ! t.dev.cfgBusy && t.dev.key == s.dev.key) = true
   ∧ after .cfgdigRead s (fun t => t.busRead == [1, 2, 3, 4] && csrGet t (offDevCfgdig + 4) == 0x08070605 && t.mem == []) = true) := by
  refine ⟨?_, ?_, ?_, ?_, ?_, ?_, ?_, ?_, ?_, ?_, ?_, ?_, ?_, ?_, ?_, ?_, ?_, ?_⟩ <;> decide +kernel

/-- States and operands that meet the hypotheses of each clause of `AssayCommands`, and what stands after. -/
theorem witness_assayCommands :
  (let s := { memWrite (devOn id) 0x10000000 [1] with assay := { AssaySt.reset with busy := true } }; s.assay.busy = true ∧ s.dev.mode ≠ 3
   ∧ after (.quickAssay [] []) s (fun t => ! t.assay.busy && t.dev.assayed && t.mem == [] && t.qmgr == QmgrSt.reset) = true
   ∧ engPresent s 127 = true
   ∧ after (.quickAssay [(127, 4)] []) s (fun t => ! engPresent t 127 && ! t.assay.busy && cntGet t offAssayFailures == 1) = true)
  ∧ (let s := { memWrite (devOn fun d => { d with mode := 3 }) 0x10000000 [1] with assay := { AssaySt.reset with busy := true } };
   s.assay.busy = true ∧ s.dev.mode = 3
   ∧ after (.fullAssay [] []) s (fun t => ! t.assay.busy && t.dev.assayed && t.mem == [] && csrFld t offDevBoot 31 28 == 5) = true
   ∧ engPresent s 135 = true
   ∧ after (.fullAssay [(135, 4)] []) s (fun t => ! engPresent t 135 && ! t.assay.busy && cntGet t offAssayFailures == 1) = true)
  ∧ (let s := csrPut (assayOn 0x80000000 fun a => { a with engNext := 126 }) offAssayEngint 20; s.dev.run = true ∧ bitOf (csrGet s offAssayCtl) 31 = true ∧ s.assay.drain = none
   ∧ s.assay.engAt + assayPeriod s offAssayEngint ≤ elapsed s.time ∧ engineFrom s s.assay.engNext = some 126 ∧ holdsTask s 126 = false ∧ spareIdle s = true
   ∧ engineFrom s (126 + 1) = some 127
   ∧ after (.engineTest 0) s (fun t => cntGet t offAssayEngtests == 1 && t.assay.engAt == 20000000000 && t.core == s.core
          && t.assay.engNext == 127) = true
   ∧ after (.engineTest 3) s (fun t => ! engPresent t 126 && cntGet t offAssayFailures == 1) = true)
  ∧ (let s := ctxPut (csrPut (assayOn 0x80000000 id) offAssayEngint 0) 3 { Ctx.reset 3 with task := some ⟨9, 3, 0, 0, 0, false, 0⟩ }; s.assay.engAt + assayPeriod s offAssayEngint ≤ elapsed s.time ∧ engineFrom s s.assay.engNext = some 0 ∧ holdsTask s 0 = true
   ∧ after (.engineTest 3) s (fun t => t.assay.drain == some (0, 20000000000) && t.core == s.core) = true)
  ∧ (let s := ctxPut (assayOn 0x80000000 fun a => { a with drain := some (0, 19998000000) }) 3 { Ctx.reset 3 with task := some ⟨9, 3, 0, 0, 0, false, 0⟩ };
   s.assay.drain = some (0, 19998000000) ∧ holdsTask s 0 = true ∧ 19998000000 + 2000000 ≤ elapsed s.time
   ∧ after (.engineTest 3) s (fun t => cntGet t offAssaySkips == 1 && t.assay.drain == none && t.core == s.core) = true)
  ∧ (let s := assayOn 0x80000000 fun a => { a with drain := some (0, 19998000000) }; holdsTask s 0 = false ∧ spareIdle s = true
   ∧ after (.engineTest 0) s (fun t => cntGet t offAssayEngtests == 1 && t.assay.drain == none && t.core == s.core) = true)
  ∧ (let s := csrPut (assayOn 0x80000000 fun a => { a with drain := some (0, 19998000000), noSpare := List.range 16 }) offAssayEngint 0; spareIdle s = false
   ∧ after (.engineTest 0) s (fun t => t == s) = true ∧ after (.engineTest 3) s (fun t => t == s) = true
   ∧ after (.engineTest 3) { s with assay := { s.assay with drain := none } } (fun t => t.assay.drain == some (0, 20000000000) && t.core == s.core) = true)
  ∧ (after (.groveSliceTest 15 127) (assayOn 0x40000000 id) (fun t => t == assayOn 0x40000000 id) = true)
  ∧ (let s := assayOn 0 id; s.assay.busy = false ∧ s.assay.noSpare.contains 15 = false
   ∧ after (.bankMigrate (some ⟨15, 4, 1⟩) true) s (fun t => t == s) = true
   ∧ after (.bankMigrate (some ⟨15, 4, 2⟩) false) s (fun t => cntGet t offAssayMigrations == 1 && t.mem == s.mem) = true
   ∧ after (.bankMigrate (some ⟨15, 4, 2⟩) true) s (fun t => t.assay.noSpare == [15] && t.assay.failed == []) = true)
  ∧ (let s := assayOn 7 fun a => { a with noSpare := [15] }; csrFld s offAssayCtl 15 0 = 7 ∧ s.assay.noSpare.contains 15 = true ∧ s.assay.failed.contains (15, 4) = false
   ∧ after (.bankMigrate (some ⟨15, 4, 7⟩) true) s (fun t => t == s) = true
   ∧ after (.bankMigrate (some ⟨15, 4, 8⟩) true) s (fun t => t.assay.failed == [(15, 4)]) = true)
  ∧ (let s := csrPut (assayOn 0x20000000 fun a => { a with bankNext := 79 }) offAssayBgint 20; s.dev.run = true ∧ bitOf (csrGet s offAssayCtl) 29 = true
   ∧ s.assay.bankAt + assayPeriod s offAssayBgint ≤ elapsed s.time
   ∧ after (.bankMigrate none false) s (fun t => t.assay.bankNext == 0 && t.assay.bankAt == 20000000000) = true)
  ∧ (let s := assayOn 0 id; s.assay.keyAt = none
   ∧ after (.assayUnlock 0x4153554E) s (fun t => t.assay.keyAt == some 20000000000 && ! t.assay.unlocked) = true
   ∧ after (.assayUnlock 0) s (fun t => ! t.assay.unlocked) = true)
  ∧ (let s := assayOn 0 fun a => { a with keyAt := some 19999000000 }; s.assay.keyAt = some 19999000000 ∧ elapsed s.time ≤ 19999000000 + 1000000)
  ∧ (let s := assayOn 0 fun a => { a with unlocked := true, hostAt := 10000000000 }; s.assay.unlocked = true
   ∧ s.assay.hostAt + 10000000000 ≤ elapsed s.time ∧ after .assayUnlockExpire s (fun t => ! t.assay.unlocked) = true) := by
  refine ⟨?_, ?_, ?_, ?_, ?_, ?_, ?_, ?_, ?_, ?_, ?_, ?_, ?_, ?_⟩ <;> decide +kernel

/-- A UDP datagram over IPv4 from 10.0.0.1 port 1 to 10.0.0.2, with the header checksum `sum`. -/
def udpTo (port sum : Nat) (body : List Byte) : RxFrame :=
  ⟨zeros 12 ++ [8, 0, 0x45, 0] ++ beBytes 2 (28 + body.length) ++ [0, 0, 0, 0, 0x40, 0x11] ++ beBytes 2 sum
    ++ [10, 0, 0, 1, 10, 0, 0, 2, 0, 1] ++ beBytes 2 port ++ beBytes 2 (8 + body.length) ++ [0, 0] ++ body, false, 0, 0, false, false⟩

/-- Reflector mode at address 10.0.0.2, 20 s after reset, with the link of MAC0 up. -/
def reflBare : ReflSt := { ReflSt.enter 0 0 with dhcp := 1, ip := 0x0A000002 }
def reflOn (r : ReflSt) (f : UsbSt → UsbSt) : State :=
  macPut { csrPut (timed (fun t => { t with cyc := 30000000000 })) offMacCtl 0xE0000000 with dev := { DevSt.reset with held := false, bootRom := true, noBoot := true, refl := some r }, usb := f UsbSt.reset }
    0 { MacSt.reset with link := true }

/-- A channel of reflector mode, heard and told about at a time. -/
def reflChan (heard told : Nat) : ReflChan := 
  ⟨zeros 6, 0x0A000001, 1, 0, 1, heard, told, 0, 0, 0, 0, [], 0, Play.reset, 0, 0, 0, 0, none, 0, none⟩

/-- A DHCP message of a type to transaction 7, which offers or gives 10.0.0.2 for an hour. -/
def dhcpFrom (type : Byte) : RxFrame :=
  let f := udpTo 68 0x65CF ([2, 1, 6, 0, 0, 0, 0, 7] ++ zeros 8 ++ [10, 0, 0, 2] ++ zeros 216
    ++ [0x63, 0x82, 0x53, 0x63, 53, 1, type, 51, 4, 0, 0, 14, 16, 54, 4, 10, 0, 0, 1, 255])
  { f with bytes := putBytes f.bytes 34 [0, 67] }

/-- The client that waits for it. -/
def dhcpClient (asked : Option Nat) : DhcpClient := { DhcpClient.reset with xid := 7, asked := asked }

/-- What a command left of reflector mode. -/
def reflLeft (i : Instr) (s : State) (p : State → ReflSt → Bool) : Bool :=
  after i s fun t => match t.dev.refl with
    | none => false
    | some r => p t r

/-- That MAC0 has one frame more to send. -/
def reflSent (s t : State) : Bool := cntGet t offPktTxpkt == cntGet s offPktTxpkt + 1 && (macGet t 0).tx.length == (macGet s 0).tx.length + 1

/-- States and operands that meet the hypotheses of each clause of `ReflectorCommands`, and what stands after. -/
theorem witness_reflectorCommands :
  (let s := { State.reset with dev := { DevSt.reset with bootRom := true, noBoot := true } }; s.dev.bootRom = true ∧ s.dev.noBoot = true
   ∧ s.dev.refl = none ∧ s.dev.run = false ∧ s.dev.check = false)
  ∧ (let s := macPut (reflOn { reflBare with tryAt := 18000000000 } id) 0 MacSt.reset; s.dev.refl = some { reflBare with tryAt := 18000000000 }
   ∧ (macGet s 0).link = false ∧ 18000000000 + 2000000000 ≤ elapsed s.time
   ∧ reflLeft .reflectorLinkTry s (fun t r => r == { reflBare with slow := true, tryAt := 20000000000 } && bitOf (macReg t 0 offMacCtl) 19) = true)
  ∧ (let y := reflChan 0 0; let r := fun ip => { reflBare with ip := ip, client := dhcpClient none, chans := [(3, some y)] };
   let s := fun ip => withFrame 0 (dhcpFrom 5) (reflOn (r ip) id); let b := (dhcpFrom 5).bytes.drop 42;
   dhcpReply (s 5) (r 5) (dhcpFrom 5) = some b ∧ dhcpOption b.length 53 (b.drop 240) = some [5#8]
   ∧ reflLeft (.reflectorDhcp true) (s 5) (fun t x => (macGet t 0).rx == [] && x.dhcp == 1 && x.ip == 0x0A000002 && x.chans == []
          && x.client.len == 3600 && x.client.t1 == 1800 && x.client.server == 0x0A000001) = true
   ∧ reflLeft (.reflectorDhcp true) (s 0x0A000002) (fun _ x => x.ip == 0x0A000002 && x.chans == [(3, some y)]) = true
   ∧ after .twampReflect (s 5) (fun t => t == s 5) = true)
  ∧ (let r := fun (d : Nat) (a : Option Nat) => { reflBare with dhcp := d, client := dhcpClient a }; let b := (dhcpFrom 2).bytes.drop 42;
   let s := fun d a => withFrame 0 (dhcpFrom 2) (reflOn (r d a) id); dhcpReply (s 0 none) (r 0 none) (dhcpFrom 2) = some b
   ∧ dhcpOption b.length 53 (b.drop 240) = some [2#8]
   ∧ reflLeft (.reflectorDhcp true) (s 0 none) (fun t x => reflSent (s 0 none) t && (macGet t 0).rx == []
          && x.client.asked == some 0x0A000002 && x.sentAt == 20000000000) = true
   ∧ (dhcpReply (s 0 (some 9)) (r 0 (some 9)) (dhcpFrom 2)).isSome = true)
  ∧ (let r := fun d n t => { reflBare with dhcp := d, tries := n, sentAt := t }; let s := fun d n t => reflOn (r d n t) id;
   let due := fun d n t => (r d n t).sentAt + dhcpWait (r d n t) * 1000000000 ≤ elapsed (s d n t).time;
   due 0 3 4000000000 ∧ due 0 0 20000000000
   ∧ reflLeft (.reflectorDhcp false) (s 0 3 4000000000) (fun t x => reflSent (s 0 3 4000000000) t && x.sentAt == 20000000000 && x.tries == 4) = true
   ∧ reflLeft (.reflectorDhcp false) (s 0 3 4000000001) (fun _ x => x == r 0 3 4000000001) = true)
  ∧ (let r := fun p => { reflBare with dhcp := 0, tries := 4, ip := 0, probe := some p }; let s := fun p => reflOn (r p) id;
   reflLeft (.reflectorDhcp false) (s ⟨0xA9FE0105, 2, 20000000000⟩) (fun t x => reflSent (s ⟨0xA9FE0105, 2, 20000000000⟩) t && x.ip == 0
        && x.probe == some ⟨0xA9FE0105, 3, 22000000000⟩) = true
   ∧ reflLeft (.reflectorDhcp false) (s ⟨0xA9FE0105, 3, 0⟩) (fun t x => reflSent (s ⟨0xA9FE0105, 3, 0⟩) t && x.ip == 0xA9FE0105 && x.dhcp == 2) = true)
  ∧ (let r := { reflBare with dhcp := 0, tries := 4, sentAt := 0 }; let s := { reflOn r id with time := { State.reset.time with cyc := 48000000000 } };
   s.dev.refl = some r ∧ r.dhcp = 0 ∧ (macGet s 0).link = true ∧ r.sentAt + dhcpWait r * 1000000000 ≤ elapsed s.time ∧ r.tries = 4)
  ∧ (let f := udpTo 862 0x66C1 (zeros 14); let s := withFrame 0 f (reflOn reflBare id); s.dev.refl = some reflBare ∧ (macGet s 0).rx = f :: []
   ∧ (match reflHears reflBare f with | some u => u.dport == 862 && decide (14 ≤ u.body.length) | none => false) = true
   ∧ reflLeft .twampReflect s (fun t r => reflSent s t && (macGet t 0).rx == [] && r == { reflBare with twamp := 1 }) = true)
  ∧ (let b : List Byte := [0, 2, 0, 44, 24, 0, 0, 0] ++ zeros 12 ++ [1, 2, 3, 4, 5, 6, 7, 8, 0, 1, 0, 9, 0, 0, 0, 0, 0, 0, 0, 5, 0, 0, 0, 7];
   let f : RxFrame := ⟨zeros 12 ++ [0x88, 0xF7] ++ b, false, 0, 65536000, false, false⟩;
   let r := { reflBare with ptp := { PtpSlave.reset with master := [1, 2, 3, 4, 5, 6, 7, 8, 0, 1] } };
   let s := withFrame 0 f (reflOn r id); s.dev.refl = some r ∧ (macGet s 0).rx = f :: [] ∧ beAt f.bytes 12 2 = 0x88F7 ∧ f.trunc = false
   ∧ b = f.bytes.drop 14 ∧ b.length = 44 ∧ (byteAt b 6).testBit 1 = false ∧ slice b 20 10 = r.ptp.master ∧ ptpCorrection b = 0
   ∧ ptpTime b 34 = 5 * 1000000000 + 7
   ∧ reflLeft .twampReflect s (fun t x => reflSent s t && (macGet t 0).rx == [] && x.ptp.pair == some (ptpTime b 34, 65536000) && x.ptp.req == 1) = true)
  ∧ (let f := udpTo 40999 0x669B ([0x80, 0, 0, 1] ++ zeros 48); let s := withFrame 0 f (reflOn reflBare id); s.dev.refl = some reflBare
   ∧ (macGet s 0).rx = f :: [] ∧ (match reflHears reflBare f with
          | some u => u.dport == 40000 + 999 && ! reflRtcpIn reflBare u && reflPacket u.body == some (0, 1) | none => false) = true
   ∧ smapGet none reflBare.chans 999 = none
   ∧ reflLeft .reflectorChannelOpen s (fun t r => (macGet t 0).rx == [] && r.rtpRx == 1 && (smapGet none r.chans 999).isSome) = true)
  ∧ (let r := { reflBare with chans := [(3, some (reflChan 10000000000 15000000000))] }; let s := reflOn r id; s.dev.refl = some r
   ∧ smapGet none r.chans 3 = some (reflChan 10000000000 15000000000) ∧ 10000000000 + 10000000000 ≤ elapsed s.time
   ∧ reflLeft (.reflectorChannelClose 3) s (fun _ x => x == { r with chans := [] }) = true
   ∧ 15000000000 + 5000000000 ≤ elapsed s.time
   ∧ reflLeft (.reflectorRtcp 3) s (fun t x => reflSent s t && x.chans == [(3, some (reflChan 10000000000 20000000000))]) = true)
  ∧ (let r := { reflBare with lineAt := 10000000000 }; let s := reflOn r id; s.dev.refl = some r ∧ r.lineAt + 10000000000 ≤ elapsed s.time
   ∧ s.usb.configured = false
   ∧ reflLeft .reflectorStatusLine s (fun t x => x == { r with lineAt := 20000000000 } && t.usb == s.usb) = true)
  ∧ (let r := { reflBare with lineAt := 10000000000 }; let s := reflOn r fun u => { u with configured := true }; s.dev.refl = some r
   ∧ r.lineAt + 10000000000 ≤ elapsed s.time ∧ s.usb.configured = true
   ∧ reflLeft .reflectorStatusLine s (fun _ x => x == { r with lineAt := 20000000000 }) = true) := by
  refine ⟨?_, ?_, ?_, ?_, ?_, ?_, ?_, ?_, ?_, ?_, ?_, ?_, ?_⟩ <;> decide +kernel

/-- The island with its power and the link to the main die, 20 s after reset, with HVS_CTL. -/
def island (on : Bool) (ctl : Word) (f : HvsSt → HvsSt) : State :=
  csrPut (csrPut { timed (fun t => { t with cyc := 30000000000 }) with hvs := f { HvsSt.reset with power := true } } offHvsCtl ctl)
    offHvsStat (if on then 0x80000000 else 0)

/-- Output 2 in a state. -/
def output2 (o : OutSt) (h : HvsSt) : HvsSt := { h with out := [(2, o)] }

/-- States and operands that meet the hypotheses of each clause of `IslandCommands`, and what stands after. -/
theorem witness_islandCommands :
  (let s := island true 3 fun h => { h with feedA := { FeedSt.reset with samples := List.replicate 8 1900, state := 0, run := 1 } }; s.hvs.power = true
   ∧ feedLeaves (feedLimits s) 0 (feedValue { s.hvs.feedA with samples := (min 1900 4095 :: s.hvs.feedA.samples).take 8 }) = false
   ∧ after (.hvsFeedSample 1900 9000) s (fun t => t.hvs.feedA.state == 0 && t.hvs.feedB.samples == [4095]) = true)
  ∧ (let s := island true 1 fun h => { h with feedA := { FeedSt.reset with samples := List.replicate 8 300, state := 0 } }; s.hvs.power = true
   ∧ feedLeaves (feedLimits s) 0 (feedValue { s.hvs.feedA with samples := (min 300 4095 :: s.hvs.feedA.samples).take 8 }) = true
   ∧ hvsPersist s ≤ s.hvs.feedA.run + 1
   ∧ after (.hvsFeedSample 300 0) s (fun t => t.hvs.feedA.state == 3) = true)
  ∧ (let s := island true 0 fun h => { h with feedA := { FeedSt.reset with samples := List.replicate 8 1900, state := 0 }, news := [.recovered 1] };
   s.hvs.power = true
   ∧ after .hvsIslandFrame s (fun t => t.hvs.frameAt == 20000000000 && t.hvs.news == [] && islandOn t && csrGet t offHvsFeed == 1900
          && csrGet t (offHvsFeed + 4) == wordOf (FeedSt.reset.state * 0x40000000)) = true)
  ∧ (let s := csrPut (island false 0x80000000 fun h => { h with crit := true, almout := 0x101 }) offHvsAlmout 7; s.hvs.power = true ∧ islandOn s = false
   ∧ after .hvsLinkRestored s (fun t => islandOn t && t.hvs.frameAt == 20000000000 && t.hvs.almout == 7 && ! t.hvs.crit) = true
   ∧ bitOf (csrGet s offHvsCtl) 31 = true ∧ s.hvs.frameAt + 1000000000 ≤ elapsed s.time ∧ (outGet s.hvs 0).openAt = none
   ∧ after .hvsLossCrit s (fun t => t.hvs.crit && t.hvs.almout == 0x101 && t.csr == s.csr && ! (outGet t.hvs 0).closed) = true)
  ∧ (let s := island false 0x80000000 fun h => { h with frameAt := 19000000000 }; islandOn s = false ∧ bitOf (csrGet s offHvsCtl) 31 = true
   ∧ s.hvs.frameAt + 1000000000 ≤ elapsed s.time ∧ (outGet s.hvs 0).openAt = none
   ∧ after .hvsLossCrit s (fun t => t.hvs.crit && (outGet t.hvs 0).closed) = true)
  ∧ (let s := island true 0 fun h => { output2 { OutSt.reset with closed := true } h with almout := 4 }; (outGet s.hvs 2).closed = true ∧ (outGet s.hvs 2).limiting ≠ true
   ∧ outWanted s.hvs 2 = true
   ∧ after (.outputCurrentLimit 2 true) s (fun t => (outGet t.hvs 2).limiting && (outGet t.hvs 2).closed) = true
   ∧ after (.outputThermalShutdown 2) s (fun t => ! (outGet t.hvs 2).closed && (outGet t.hvs 2).thermal
          && (outGet t.hvs 2).openAt == some 20000000000) = true)
  ∧ (let s := island true 0 fun h => { output2 { OutSt.reset with closed := true, limiting := true, limitAt := some 19998000000 } h with almout := 4 };
   outWanted s.hvs 2 = true ∧ (outGet s.hvs 2).closed = true
   ∧ (outGet s.hvs 2).limiting = true ∧ (outGet s.hvs 2).limitAt = some 19998000000 ∧ (19998000000 : Int) + 2000000 ≤ elapsed s.time
   ∧ after (.outputLimitShutdown 2) s (fun t => ! (outGet t.hvs 2).closed && (outGet t.hvs 2).openAt == some 20000000000
          && (outGet t.hvs 2).episode) = true)
  ∧ (let s := island true 0 (output2 { OutSt.reset with closed := true, limiting := true, limitAt := some 19998000000 });
   outWanted s.hvs 2 = false ∧ bitOf s.hvs.almout 2 = bitOf s.hvs.almout 10
   ∧ after (.outputLimitShutdown 2) s (fun t => ! (outGet t.hvs 2).closed && (outGet t.hvs 2).openAt == none && ! (outGet t.hvs 2).episode) = true)
  ∧ (let s := island true 0 (output2 { OutSt.reset with thermal := true });
   after (.thermalLimitCleared 2) s (fun t => ! (outGet t.hvs 2).thermal && ! (outGet t.hvs 2).closed) = true)
  ∧ (let s := island true 0 fun h => { output2 { OutSt.reset with openAt := some 19900000000, episode := true } h with almout := 4 };
   (outGet s.hvs 2).openAt = some 19900000000 ∧ (outGet s.hvs 2).thermal = false ∧ outWanted s.hvs 2 = true
   ∧ 19900000000 + 100000000 ≤ elapsed s.time
   ∧ after (.outputRetry 2) s (fun t => (outGet t.hvs 2).closed && (outGet t.hvs 2).retryAt == some 20000000000
          && (outGet t.hvs 2).openAt == none) = true)
  ∧ (let s := island true 0 fun h => { output2 { OutSt.reset with closed := true, retryAt := some 19998000000, episode := true } h with almout := 4 };
   (outGet s.hvs 2).openAt = none ∧
   (outGet s.hvs 2).retryAt = some 19998000000 ∧ retryLimited (outGet s.hvs 2) = false ∧ 19998000000 + 2000000 ≤ elapsed s.time
   ∧ after (.outputRecovered 2) s (fun t => ! (outGet t.hvs 2).episode && (outGet t.hvs 2).retryAt == none && (outGet t.hvs 2).closed) = true)
  ∧ (let s := csrPut (island true 0 id) offHvsAincfg 20; (1 : Nat) < 2 ∧ max 1 (csrFld s offHvsAincfg 7 0) ≤ 20 ∧ s.hvs.ain.testBit 1 ≠ true
   ∧ islandOn s = true ∧ after (.alarmInputChange 1 true 20) s (fun t => t.hvs.ain.testBit 1 && csrFld t offHvsAin 1 0 == 2) = true)
  ∧ (let s := island true 0 (output2 { OutSt.reset with closed := true });
   after (.islandPower false) s (fun t => ! t.hvs.power && t.hvs.out == [] && t.csr == s.csr) = true)
  ∧ (let s := fun on => csrPut (island on 0 fun h => { h with power := false }) offHvsAlmout 0x204;
   after (.islandPower true) (s false) (fun t => t.hvs == { (s false).hvs with power := true } && t.csr == (s false).csr) = true
   ∧ after (.islandPower true) (s true) (fun t => t.hvs.power && t.hvs.almout == 0x204 && (outGet t.hvs 1).closed && (outGet t.hvs 2).closed
          && ! (outGet t.hvs 0).closed && t.csr == (s true).csr) = true
   ∧ after (.islandPower false) (s true) (fun t => t == s true) = true
   ∧ after (.hvsAlmoutWrite 7) (s true) (fun t => csrGet t offHvsAlmout == 7 && t.hvs == (s true).hvs) = true)
  ∧ (let s := island true 0 (output2 { OutSt.reset with closed := true, retryAt := some 19998500000 });
   retryEnding (outGet s.hvs 2) (elapsed s.time) = true ∧ s.hvs.power = true
   ∧ after (.hvsAlmoutWrite 4) s (fun t => t.hvs.almout == 4 && outGet t.hvs 2 == outGet s.hvs 2) = true)
  ∧ (let s := island true 0 fun h => { h with frameAt := 19995000000 }; islandOn s = true ∧ s.hvs.frameAt + 5000000 ≤ elapsed s.time
   ∧ after .hvsLinkLost s (fun t => ! islandOn t && bitOf (csrGet t offHvsStat) 30 && cntGet t offHvsLinkdrop == 1 && t.hvs == s.hvs) = true)
  ∧ (let s := island true 0 (output2 { OutSt.reset with openAt := some 5 }); islandOn s = true
   ∧ after (.hvsAlmoutWrite 0xFFFFFFFD) s (fun t => csrGet t offHvsAlmout == 0x705 && t.hvs.almout == 0x705 && ! (outGet t.hvs 0).closed
          && (outGet t.hvs 1).closed && ! (outGet t.hvs 2).closed) = true)
  ∧ (let s := island false 0 id; islandOn s = false
   ∧ after (.hvsAlmoutWrite 0xFFFFFFFF) s (fun t => csrGet t offHvsAlmout == 0x707 && t.hvs == s.hvs) = true) := by
  refine ⟨?_, ?_, ?_, ?_, ?_, ?_, ?_, ?_, ?_, ?_, ?_, ?_, ?_, ?_, ?_, ?_, ?_, ?_⟩ <;> decide +kernel

/-- States and operands that meet the hypotheses of each clause of `RegisterAccess`, and what stands after. -/
theorem witness_registerAccess :
  (let s := hosted id; barOn s = true ∧ csrRow s 0xFFFFC = none ∧ after (.registerWrite true 0xFFFFC 5) s (fun t => t == s) = true
   ∧ after (.registerWrite false 0xFFFFC 5) s (fun t => t == s) = true)
  ∧ (let s := csrPut (hosted id) offMirrRetx 0x10640008; offMirrRetx / 0x10000 = 0x11 ∧ offMirrRetx ≠ offMirrCtl ∧ offMirrRetx ≠ offMirrCmd
   ∧ (csrRow s offMirrRetx).isSome = true
   ∧ after (.registerWrite true offMirrRetx 0xFFFFFFFF) s (fun t => csrGet t offMirrRetx == 0xFFFFFFFF && t.mem == [] && t.core == s.core) = true)
  ∧ (let s := hosted id; offPktFsel / 0x10000 = 7 ∧ offPktFsel ≠ offPktFcmd ∧ offPktFsel ≠ offPktTcmd ∧ (csrRow s offPktFsel).isSome = true
   ∧ after (.registerWrite false offPktFsel 0x00010007) s (fun t => csrFld t offPktFsel 15 0 == 7 && t.mem == []) = true)
  ∧ (let s := State.reset; barOn s = false ∧ after (.registerWrite true offTimeFreq 5) s (fun t => t == s) = true)
  ∧ (let s := hosted id; barOn s = true ∧ after (.registerWrite true offHvsAlmout 0x707) s (fun t => csrGet t offHvsAlmout == 0x707) = true
   ∧ after (.registerWrite true offDevCtl 1) s (fun t => t.dev.check) = true
   ∧ after (.registerWrite false offUsbAlmgo 1) s (fun t => t.usb.report == some (zeros 16)) = true)
  ∧ (let s := csrPut State.reset 0x40020 9; (csrRow s 0x40020).any (fun r => r.rc != 0 && ! r.cnt64) = true ∧ portalAt 0x40020 = none
   ∧ macCountAt 0x40020 = none ∧ (0x40020 : Nat) ≠ offTimeNfnLo ∧ (0x40020 : Nat) ≠ offDevCfgdig ∧ (0x40020 : Nat) ≠ offMeterTns
   ∧ (0x40020 : Nat) ≠ offHvsFeedMm ∧ (0x40020 : Nat) ≠ offHvsFeedMm + 4 ∧ (0x40020 : Nat) ≠ offQmgrQlost
   ∧ after (.rcRegisterRead ⟨false, 0, 0x40020⟩) s (fun t => csrGet t 0x40020 == 0 && t.mem == []) = true
   ∧ barOn s = false ∧ after (.rcRegisterRead ⟨true, 15, 0x40020⟩) s (fun t => t == s) = true
   ∧ after (.counterLoRead ⟨true, 15, 0x40020⟩) s (fun t => t == s) = true)
  ∧ (let s := csrPut (hosted id) 0x40020 9; let x := fun o be => after (.rcRegisterRead ⟨true, be, o⟩) s;
   x 0x40020 15 (fun t => csrGet t 0x40020 == 0 && t.busRead.length == 4) = true ∧ x 0x40020 4 (fun t => csrGet t 0x40020 == 0) = true
   ∧ csrRow s 0xFFFFC = none ∧ x 0xFFFFC 5 (fun t => t.busRead == enabledBytes 5 0 && t.csr == s.csr) = true
   ∧ enabledBytes 6 0x44332211 ≠ enabledBytes 15 0x44332211)
  ∧ (let s := cntAdd State.reset offMirrTxfrm 0x123456789; (csrRow s offMirrTxfrm).any (fun r => r.cnt64 && (offMirrTxfrm % 0x10000 - r.off) % (max r.stride 8) == 0) = true
   ∧ portalAt offMirrTxfrm = none ∧ macCountAt offMirrTxfrm = none ∧ offMirrTxfrm ≠ offTimeNfnLo ∧ offMirrTxfrm ≠ offDevCfgdig
   ∧ offMirrTxfrm ≠ offMeterTns
   ∧ after (.counterLoRead ⟨false, 15, offMirrTxfrm⟩) s (fun t => t.busRead == [0x89, 0x67, 0x45, 0x23] && csrGet t (offMirrTxfrm + 4) == 1 && t.cnt == s.cnt) = true)
  ∧ (let s := usbOn 0xC0000000 fun u => { u with staged := some (0xFFFFC, 5) }; s.usb.staged = some (0xFFFFC, 5) ∧ csrRow s 0xFFFFC = none
   ∧ after .regWriteCommit s (fun t => t.usb.staged == none && t.csr == s.csr) = true)
  ∧ (let s := usbOn 0xC0000000 fun u => { u with staged := some (offMirrRetx, 5) }; s.usb.staged = some (offMirrRetx, 5)
   ∧ (csrRow s offMirrRetx).isSome = true ∧ offMirrRetx / 0x10000 = 0x11 ∧ offMirrRetx ≠ offMirrCtl ∧ offMirrRetx ≠ offMirrCmd
   ∧ after .regWriteCommit s (fun t => t.usb.staged == none && csrGet t offMirrRetx == 5) = true) := by
  refine ⟨?_, ?_, ?_, ?_, ?_, ?_, ?_, ?_, ?_, ?_⟩ <;> decide +kernel

/-- States and operands that meet the hypotheses of each clause of `AluFrame`, and what stands after. -/
theorem witness_aluFrame :
  (let s := running fun c => { c with g := [(1, 5), (2, 3), (4, 9)], p := [(2, 7)], sp := [(7, 0x44)] }; issuesB s 0 0 = true ∧ settledB (ctxGet s 0) = true
   ∧ ([Instr.adds 0 3 1 2, .abs 0 3 1, .mul 0 3 1 2, .addi 0 3 1 7, .shli 0 3 1 31, .movhi 0 3 0 7, .mov 0 3 0 1 0].all fun i =>
          after i s (fun t => gGet (ctxGet t 0) 1 == 5 && gGet (ctxGet t 0) 4 == 9 && pGet (ctxGet t 0) 2 == 7 && spGet (ctxGet t 0) 7 == 0x44
            && (ctxGet t 0).infl == [] && (ctxGet t 0).state == .running && t.mem == s.mem && t.csr == s.csr)) = true
   ∧ ([Instr.cmp 0 1 2, .tst 0 1 2, .cmpi 0 1 7].all fun i => after i s (fun t => (ctxGet t 0).g == (ctxGet s 0).g && (ctxGet t 0).infl == [])) = true) := by decide +kernel

/-- States and operands that meet the hypotheses of each clause of `LocalAccessFrame`, and what stands after. -/
theorem witness_localAccessFrame :
  (let s := memWrite (running fun c => { c with p := [(1, 0x10008)], m := [(1, 8)], g := [(2, 0x89ABCDEF)] }) 0x200010004 [1, 2, 3, 4, 5, 6, 7, 8, 9, 10, 11, 12, 13, 14];
   issuesB s 0 0 = true ∧ settledB (ctxGet s 0) = true ∧ isLocal 0x200010008 = true
   ∧ namesB s 0 1 true 0 2 0x200010008 0x10008 = true ∧ namesB s 0 1 true 0 4 0x200010008 0x10008 = true
   ∧ namesB s 0 1 true 0 8 0x200010008 0x10008 = true ∧ anyPoison s 0x200010008 8 = false ∧ localKind (0 / 4) 0x200010008 ≠ 0
   ∧ ([Instr.ldh 0 3 1 true 0, .ldhu 0 3 1 true 0, .ldw 0 3 0 1 true 0, .lda 0 3 1 true 0].all fun i =>
          after i s (fun t => pGet (ctxGet t 0) 1 == 0x10010 && gGet (ctxGet t 0) 2 == 0x89ABCDEF && gGet (ctxGet t 0) 3 == 0 && t.mem == s.mem)) = true
   ∧ ([(Instr.sth 0 2 0 false 1 true 0, 2), (.sth 0 2 3 true 1 true 0, 2), (.stw 0 2 0 1 true 0, 4), (.stw 0 2 3 1 true 0, 4), (.sta 0 2 1 true 0, 8)].all
          fun (x : Instr × Nat) => after x.1 s (fun t => pGet (ctxGet t 0) 1 == 0x10010 && memBytes t 0x200010004 4 == [1, 2, 3, 4]
            && memBytes t (0x200010008 + x.2) 6 == memBytes s (0x200010008 + x.2) 6)) = true) := by decide +kernel

/-- States and operands that meet the hypotheses of each clause of `PeripheralFrames`, and what stands after. -/
theorem witness_peripheralFrames :
  (let s := usbOn 0xC0000000 fun u => { u with report := some [] };
   ([Instr.timeFreqWrite 5, .timePhaseAdjWrite 5, .phaseClr, .step, .modeCmdLocking, .watchdogExpiry, .fsrcWrite 1, .timeNfnLoRead, .ppsRise].all fun i =>
          after i s (fun t => t.core == s.core && t.mirr == s.mirr && t.usb == s.usb && t.hvs == s.hvs)) = true
   ∧ ([Instr.usbAttach false, .usbBusReset true, .usbSuspend, .imgBegin 1 4 9, .getStatus 8, .regWrite 8 1 1, .usbConsoleOut [1], .usbAlmgo].all fun i =>
          after i s (fun t => t.core == s.core && t.mirr == s.mirr && t.time == s.time && t.hvs == s.hvs)) = true)
  ∧ (let s := island true 0 (output2 { OutSt.reset with closed := true });
   ([Instr.hvsFeedSample 1 2, .hvsIslandFrame, .hvsLinkLost, .hvsAlmoutWrite 7, .outputCurrentLimit 2 true, .outputThermalShutdown 2,
          .alarmInputChange 1 true 255, .islandPower false].all fun i =>
        after i s (fun t => t.core == s.core && t.mirr == s.mirr && t.time == s.time && t.usb == s.usb)) = true) := by
  refine ⟨?_, ?_⟩ <;> decide +kernel

/-- States and operands that meet the hypotheses of each clause of `ResetState`, and what stands after. -/
theorem witness_resetState :
  (Memory.wf State.reset.mem = true ∧ smapWf csrDefault State.reset.csr = true ∧ smapWf (fun _ => 0) State.reset.cnt = true
   ∧ State.reset.pending = [] ∧ csrGet State.reset offDevHwlEc = csrDefault offDevHwlEc ∧ (queueGet State.reset 65535).en = false) := by decide +kernel

/-- States and operands that meet the hypotheses of each clause of `StepKeepsCanonicalForm`, and what stands after. -/
theorem witness_stepKeepsCanonicalForm :
  (let s := { memWrite (csrPut State.reset offTimeFreq 5) 0x10000000 [1, 0, 2] with pending := [.timeFreqWrite 0, .tick] };
   Memory.wf s.mem = true ∧ smapWf csrDefault s.csr = true ∧ smapWf (fun _ => 0) s.cnt = true
   ∧ (match step s with
         | .next t => Memory.wf t.mem && smapWf csrDefault t.csr && smapWf (fun _ => 0) t.cnt && csrGet t offTimeFreq == 0
         | _ => false) = true) := by decide +kernel

/-- States and operands that meet the hypotheses of each clause of `StepTakesOneCommand`, and what stands after. -/
theorem witness_stepTakesOneCommand :
  (let s := { State.reset with pending := [.usbAlmgo, .tick] };
   (match step s with | .next t => t.pending == [Instr.tick] && t.variantH == s.variantH | _ => false) = true) := by decide +kernel

/-! ## Ill-formed commands -/

/-- Every check of WellFormed, with a term that breaks that check alone. -/
theorem test_wellFormed_refuses_offsets_and_numbers : ([.registerWrite true 0x1000000 0, .registerWrite false 2 0,
    .rcRegisterRead ⟨true, 15, 0x1000000⟩, .rcRegisterRead ⟨true, 15, 1⟩,
    .counterLoRead ⟨false, 15, 0x1000000⟩, .counterLoRead ⟨false, 15, 3⟩, .tsInCapture 4 true 0,
    .add 136 0 0 0, .farLoadReturn 544, .farStorePerformed 544, .fenceComplete 136 0, .fenceComplete 0 4, .contextStart 136 0,
    .contextStart 0 4, .contextStop 136 0, .contextStop 0 4, .pcWrite 136 0 0, .pcWrite 0 4 0, .loadUnitGo 17 0,
    .loadUnitDone 17, .operandPlace 544, .instanceList 65536, .doneComplete 544, .timerFire 32, .waitevtWake 544,
    .waitevtTimeout 544, .matchingStoreError 65536, .channelPurge 16384, .channelEnableWrite 16384 0, .channelCloseWrite 16384 0]
    : List Instr).all (fun i => ! wellFormed i) = true := by decide +kernel

theorem test_wellFormed_refuses_queues_ports_and_flash : ([.queuePop (some 544), .cellAlloc (some 544), .cellFree (some 544) 0,
    .queuePush (some 544) 0, .noticeDeliver 65536, .queueDescError 65536, .pktReceive 4, .cesPacketBuild 65536,
    .bundleDeparture 65536, .flowTableError true 65536, .macEnable 5 0, .macDisable 5 0, .linkUp 5, .linkDown 5 true false false,
    .macFrameReceive 5 .whole 0 0 0 [], .pfcPauseExpire 5 0, .pfcPauseExpire 0 8, .pfcHoldDiscard 5, .pfcXoff 5, .pfcRepeat 5,
    .pfcXon 5, .macFrameTransmit 5 0, .preemptVerify 5, .macCounterRead 5 0, .macCounterRead 0 25, .macUngate 5, .pcsBlockLock 5,
    .meterTick (2 ^ 64) ⟨0, 0⟩, .meterPartial 16384, .sealRegisterWrite 0xEFFFC 0, .sealRegisterWrite 0x100000 0,
    .sealRegisterWrite 0xF0001 0, .append 32 calmWorld, .read 32 calmWorld, .trim 32 calmWorld, .erasepart 32 calmWorld,
    .readrec 32 calmWorld, .rawread 32 calmWorld, .patrol 32, .sync 32, .setpart 32 calmWorld,
    .nandMount [none, none, none, none, none], .nandWlMove 16 calmWorld, .nandRefresh 65536 calmWorld]
    : List Instr).all (fun i => ! wellFormed i) = true := by decide +kernel

theorem test_wellFormed_refuses_links_and_tests : ([.stateSnapshot [0, 1, 2, 3], .stateSnapshot [16384], .mirrEcrecSend 65536,
    .bar2Read 0x10000000 1, .bar2Write 0x10000000 [0], .ringDoorbell 16 0, .ringH2dMsg 16 (zeros 32) [] true true,
    .ringH2dMsg 0 (zeros 31) [] true true, .ringH2dWrite 16 (zeros 32) [] true true, .ringH2dWrite 0 (zeros 33) [] true true,
    .ringH2dRead 16 (zeros 32) true true, .ringH2dRead 0 [] true true, .ringD2hMsg 16 (zeros 32) true true,
    .ringD2hMsg 0 [] true true, .signalDoorbell 64 0, .msixSend 64, .pcieLinkChange 8 0 ⟨true, true, true, true, false, [], none⟩,
    .pcieLinkChange 0 8 ⟨true, true, true, true, false, [], none⟩,
    .pcieLinkChange 4 4 ⟨true, true, true, true, false, [], some (.bar4 0xFFFF 2)⟩, .imgEnd ⟨65536, calmWorld⟩, .usbStandardRequest 256 0 0 0, .usbStandardRequest 0 256 0 0,
    .usbStandardRequest 0 0 65536 0, .usbStandardRequest 0 0 0 65536, .getInfo 65536, .imgBegin 65536 0 0, .imgBegin 0 65536 0,
    .imgBegin 0 0 (2 ^ 32), .getStatus 65536, .regWrite 65536 0 0, .regRead 65536 0, .regRead 0 65536, .regAddr 65536 0, .quickAssay [(136, 0)] [], .quickAssay [] [(16, 0)], .fullAssay [(136, 0)] [], .fullAssay [] [(0, 5)],
    .reflectorChannelClose 1000, .reflectorRtcp 1000, .engineTest 5, .groveSliceTest 16 0, .groveSliceTest 0 128,
    .bankMigrate (some ⟨16, 0, 9⟩) true, .bankMigrate (some ⟨0, 5, 9⟩) true, .hvsFeedSample 4096 0, .hvsFeedSample 0 4096,
    .outputCurrentLimit 3 true, .outputLimitShutdown 3, .outputThermalShutdown 3, .thermalLimitCleared 3, .outputRetry 3,
    .outputRecovered 3, .alarmInputChange 2 true 0] : List Instr).all (fun i => ! wellFormed i) = true := by decide +kernel

/-- Terms at the ends of their ranges that the checks let pass. -/
theorem test_wellFormed_accepts : ([.registerWrite true 0xFFFFFC 0, .add 135 0 0 0, .farLoadReturn 543, .queuePop none,
    .queuePop (some 543), .pfcPauseExpire 4 7, .sealRegisterWrite 0xFFFFC 0, .bar2Read 0 0x10000000, .stateSnapshot [0, 1, 16383],
    .ringH2dRead 15 (zeros 32) true true, .engineTest 4, .alarmInputChange 1 true 0]
    : List Instr).all wellFormed = true := by decide +kernel

/-! ## Worked examples of the spec, and known values of the codecs -/

/-- The worked words of R121, and a word whose zero field is not zero (R119). -/
theorem test_lemgilOf_worked_words : ([0xB000A150, 0xC000A150, 0x8114A150, 0x48007A00, 0x2807C000, 0x12040450, 0x12080004, 0x24820000,
    0x2A860000, 0x50000002, 0x50010002] : List Word).map (lemgilOf 3)
    = [.aclr 3 0 (some ⟨4, 0⟩) (some ⟨5, 0⟩), .fet 3 (some ⟨4, 0⟩) (some ⟨5, 0⟩),
      .mac 3 0 4 5 false false (some ⟨4, 0⟩) (some ⟨5, 0⟩), .loopImmediate 3 61 0, .sth 3 0 3 true 1 true 0, .movi 3 0 1 0x450,
      .movi 3 0 2 4, .ldw 3 4 0 0 true 0, .stw 3 4 0 1 true 0, .hold 3, .undefinedInstruction 3 0x50010002] := by decide +kernel

/-- A-law and mu-law codes of G.711 at the ends of their ranges, at the bits of R282. -/
theorem test_g711_known_values : [g711Decode false 0xD5, g711Decode false 0xAA, g711Decode false 0x2A, g711Decode true 0xFF,
    g711Decode true 0x80, g711Decode true 0] = [8, 32256, -32256, 0, 32124, -32124] ∧ g711Encode false 8 = 0xD5 ∧ g711Encode true 32767 = 0x80 := by
  decide +kernel

/-- The RFC 1951 stream of no bytes, and of three, under FINAL. -/
theorem test_deflate_known_streams : (deflateBits (fun _ => []) 6 32768 [] [] ⟨[], []⟩ [] false true).1
      = natBits 0x3 16 ∧ (deflateBits (fun _ => []) 6 32768 [] [] ⟨[], []⟩ [0x61, 0x62, 0x63] false true).1 = natBits 0x00064A4C4B 40 := by
  decide +kernel

/-- A packet engine in which `n` contributions wait. -/
def manyParts (n : Nat) : State := { State.reset with pkt := { PktSt.reset with ces := List.replicate n ⟨0, 0, 0, 0, ⟨0, 1⟩⟩ } }

theorem pendItems_manyParts (n : Nat) : pendItems (manyParts n) = n := by
  simp [pendItems, manyParts, PktSt.reset]

/-- 65,536 contributions wait: the packet engine takes no further item (R314). -/
theorem witness_packetDepartures_full (n : Nat) (h : 65536 ≤ n) : 65536 ≤ pendItems (manyParts n)
    ∧ exec .pktTxTake (manyParts n) = .next (manyParts n) := by
  have h1 : 65536 ≤ pendItems (manyParts n) := (pendItems_manyParts n).symm ▸ h
  exact ⟨h1, by simp only [exec, execPktTxTake, if_pos h1]⟩

end Sys2Proof.Tests
end

section
/-! The MAC class (R82, R83, R86, R127, R128).  Every word of the class appends its accumulator
results and those of its two fetches to the results in flight; at the end of the slot the
pointers are written and the rest stay in flight. -/

namespace Sys2Proof.Machine

/-! ## The marks of an issue -/

/-- The marks of an issue touch the engines and the counters alone. -/
theorem issueMarks_rest (s : State) (k : Nat) :
    issueMarks s k = { s with core := (issueMarks s k).core, cnt := (issueMarks s k).cnt } := by
  by_cases h : (engGet s (k / 4)).last = k % 4
  · simp only [issueMarks, if_pos h]
    rfl
  · simp only [issueMarks, if_neg h]
    rfl

@[simp] theorem issueMarks_mem (s : State) (k : Nat) : (issueMarks s k).mem = s.mem := by
  rw [issueMarks_rest]

@[simp] theorem issueMarks_soft (s : State) (k : Nat) : (issueMarks s k).soft = s.soft := by
  rw [issueMarks_rest]

@[simp] theorem isPoison_issueMarks (s : State) (k a : Nat) : isPoison (issueMarks s k) a = isPoison s a := by
  rw [issueMarks_rest]
  rfl

/-- A number in memory depends on memory alone. -/
theorem memNat_congr {s t : State} (h : t.mem = s.mem) (a n : Nat) : memNat t a n = memNat s a n := by
  have hb : memBytes t a n = memBytes s a n := by
    induction n generalizing a with
    | zero => rfl
    | succ n ih => simp only [memBytes, memByte, h, ih]
  simp only [memNat, hb]

/-- The context as the instruction finds it after the marks of its issue. -/
def issuing (c : Ctx) : Ctx :=
  { c with lastPc := c.pc, holdCnt := if stHold c then c.holdCnt + 1 else 0 }

theorem ctxGet_issueMarks_issuing (s : State) (k : Nat) : ctxGet (issueMarks s k) k = issuing (ctxGet s k) :=
  ctxGet_issueMarks s k

/-! ## Results left in flight -/

/-- The results `l` in flight after those already there. -/
def leave (c : Ctx) (l : List InFlight) : Ctx := { c with infl := c.infl ++ l }

@[simp] theorem leave_infl (c : Ctx) (l : List InFlight) : (leave c l).infl = c.infl ++ l := rfl

@[simp] theorem leave_slot (c : Ctx) (l : List InFlight) : (leave c l).slot = c.slot := rfl

theorem leave_nil (c : Ctx) : leave c [] = c := by simp only [leave, List.append_nil]

theorem leave_leave (c : Ctx) (l m : List InFlight) : leave (leave c l) m = leave c (l ++ m) := by
  simp only [leave, List.append_assoc]

/-- An instruction's end keeps in flight what is due after the next slot. -/
theorem finish_infl (c : Ctx) : (finish c).infl = c.infl.filter fun f => ! decide (f.due ≤ c.slot + 1) := by
  simp only [finish, retire_infl, advance_infl, advance_slot]

/-- A result for another register leaves a P register alone. -/
theorem pGet_regWrite_other (c : Ctx) (r : RegId) (v : BitVec 40) (n : Nat) (h : r ≠ .p n) :
    pGet (regWrite c r v) n = pGet c n := by
  cases r with
  | p j => exact smapGet_put_other _ _ _ _ fun hn => h (hn ▸ rfl)
  | sp j => simp only [regWrite]; split <;> rfl
  | _ => rfl

/-- Results for other registers leave a P register alone. -/
theorem pGet_foldl_regWrite (l : List InFlight) (c : Ctx) (n : Nat) (h : ∀ f ∈ l, f.reg ≠ .p n) :
    pGet (l.foldl (fun c f => regWrite c f.reg f.val) c) n = pGet c n := by
  induction l generalizing c with
  | nil => rfl
  | cons f l ih =>
    rw [List.foldl_cons, ih _ fun g hg => h g (List.mem_cons_of_mem _ hg),
      pGet_regWrite_other _ _ _ _ (h f List.mem_cons_self)]

/-- Of the results due, the one issued last for a P register is what it reads (R87, R88). -/
theorem pGet_finish_of_last (c : Ctx) (l m : List InFlight) (f : InFlight) (n : Nat)
    (hc : c.infl = l ++ f :: m) (hd : f.due ≤ c.slot + 1) (hr : f.reg = .p n)
    (hm : ∀ g ∈ m, g.reg ≠ .p n) : pGet (finish c) n = f.val.truncate 32 := by
  simp only [finish, retire, advance_infl, advance_slot, hc, List.filter_append, List.filter_cons,
    decide_eq_true hd, if_true, List.foldl_append, List.foldl_cons]
  rw [pGet_foldl_regWrite _ _ _ fun g hg => hm g (List.mem_filter.1 hg).1, hr]
  exact smapGet_put_same _ _ _ _

/-! ## Accumulator results -/

/-- The accumulator rule of the model is that of the statement (R83). -/
theorem macResult_accum (c : Ctx) (n : Nat) (x : Int) :
    macResult c n (accum (stAsat c) x) = leave c (accLeaves c n true x) := by
  by_cases hx : -549755813888 ≤ x ∧ x < 549755813888
  · have hf : fits40 x = true := by simpa [fits40] using hx
    simp [macResult, accum, accLeaves, sendFlag, sendMac, leave, dueIn, hf, hx]
  · have hf : fits40 x = false := by simpa [fits40] using hx
    cases ha : stAsat c <;>
      simp [macResult, accum, accLeaves, sendFlag, sendMac, send, leave, dueIn, hf, hx, ha]

/-- Every accumulator result is due two slots on (R86). -/
theorem accLeaves_due {c : Ctx} {n : Nat} {mac : Bool} {x : Int} :
    ∀ f ∈ accLeaves c n mac x, f.due = c.slot + 2 := by
  unfold accLeaves
  split <;> simp [dueIn]

/-- The half read is the register's own bits, whether or not the higher ones are cut off (R82). -/
theorem halfOf_eq (w : Word) (h : Bool) :
    halfOf w h = signed 16 (if h then w.toNat / 65536 else w.toNat) := by
  cases h with
  | true => rfl
  | false =>
    have hm : BitVec.ofNat 16 (w.toNat % 65536) = BitVec.ofNat 16 w.toNat :=
      BitVec.eq_of_toNat_eq (by simp)
    simp [halfOf, signed, hm]

/-- The product of R82 in the words of the statement. -/
theorem macProduct_eq (c : Ctx) (gs gt : BitVec 4) (hs ht : Bool) :
    macProduct c gs gt hs ht =
      (let half := fun (w : Word) (h : Bool) => signed 16 (if h then w.toNat / 65536 else w.toNat)
       let xy := half (gGet c gs.toNat) hs * half (gGet c gt.toNat) ht
       if stFrac c then 2 * xy else xy) := by
  simp only [macProduct, product, halfOf_eq]

/-! ## Parallel fetches -/

/-- The half a fetch reads, sign-extended. -/
def fetchedWord (s : State) (k base : Nat) (x : Fetch) : Word :=
  wordOfInt (signed 16 (memNat s (localBase (k / 4) + (pGet (ctxGet s k) (base + x.p.toNat)).toNat) 2))

/-- What a fetch that may be made brings: its pointer, its register and the value read. -/
def fetched (s : State) (k base : Nat) (f : Option Fetch) : Option (Nat × Nat × Word) :=
  f.map fun x => (base + x.p.toNat, x.rd.toNat, fetchedWord s k base x)

/-- A fetch that may be made is made, on the state as its issue marks it. -/
theorem fetchAt_issueMarks {s : State} {k mem base : Nat} {f : Option Fetch} (h : FetchOk s k mem base f) :
    fetchAt (issueMarks s k) k mem f base = .ok (fetched s k base f) := by
  cases f with
  | none => rfl
  | some x =>
    obtain ⟨heven, hlow, hhigh, hclean⟩ := h x rfl _ rfl
    have hp : pGet (issuing (ctxGet s k)) = pGet (ctxGet s k) := rfl
    have hin : ¬ ((pGet (ctxGet s k) (base + x.p.toNat)).toNat % 2 ≠ 0
        ∨ (pGet (ctxGet s k) (base + x.p.toNat)).toNat < mem * 0x10000
        ∨ (mem + 1) * 0x10000 ≤ (pGet (ctxGet s k) (base + x.p.toNat)).toNat) := by omega
    simp only [fetchAt, ctxGet_issueMarks_issuing, hp, if_neg hin, isPoison_issueMarks, hclean,
      memNat_congr (issueMarks_mem s k), Bool.false_eq_true, if_false]
    rfl

/-- With no error to correct a fetch corrects none. -/
theorem fetchCorrect_sound (s : State) (k base : Nat) (f : Option Fetch) (h : s.soft = []) :
    fetchCorrect s k f base = s := by
  cases f with
  | none => rfl
  | some x => exact correct_sound _ _ _ h

/-- The results of a fetch: the register, and after it the pointer (R86). -/
def fetchSends (c : Ctx) (f : Option (Nat × Nat × Word)) : List InFlight :=
  match f with
  | none => []
  | some (n, rd, v) => [dueIn c 3 (.g rd) (v.zeroExtend 40) false,
      dueIn c 1 (.p n) ((pGet c n + mGet c n).zeroExtend 40) false]

theorem fetchEnd_eq (c : Ctx) (f : Option (Nat × Nat × Word)) : fetchEnd c f = leave c (fetchSends c f) := by
  cases f with
  | none => exact (leave_nil c).symm
  | some x => exact leave_leave c _ _

@[simp] theorem fetchSends_leave (c : Ctx) (l : List InFlight) (f : Option (Nat × Nat × Word)) :
    fetchSends (leave c l) f = fetchSends c f := by
  cases f <;> rfl

@[simp] theorem fetchSends_issuing (c : Ctx) (f : Option (Nat × Nat × Word)) :
    fetchSends (issuing c) f = fetchSends c f := by
  cases f <;> rfl

/-- Of a fetch's results the register stays in flight past its slot, the pointer does not. -/
theorem fetchSends_later (s : State) (k base : Nat) (f : Option Fetch) :
    ((fetchSends (ctxGet s k) (fetched s k base f)).filter fun g => ! decide (g.due ≤ (ctxGet s k).slot + 1))
      = fetchLeaves s k base f := by
  cases f <;> simp [fetchSends, fetched, fetchedWord, fetchLeaves, dueIn]

/-- A fetch writes no P register but its pointer. -/
theorem fetchSends_reg_ne {s : State} {k base n : Nat} {f : Option Fetch}
    (h : ∀ x, f = some x → n ≠ base + x.p.toNat) :
    ∀ g ∈ fetchSends (ctxGet s k) (fetched s k base f), g.reg ≠ .p n := by
  cases f with
  | none => simp [fetchSends, fetched]
  | some x => simpa [fetchSends, fetched, dueIn] using (h x rfl).symm

/-! ## A word of the class -/

/-- Everything a MAC-class word sends in context `k`: `acc`, then its X fetch, then its Y fetch. -/
def macSends (s : State) (k : Nat) (x y : Option Fetch) (acc : List InFlight) : List InFlight :=
  acc ++ fetchSends (ctxGet s k) (fetched s k 0 x) ++ fetchSends (ctxGet s k) (fetched s k 4 y)

/-- A MAC-class word that may make its fetches ends with `macSends` sent. -/
theorem macOp_eq {s : State} {e k : Nat} {x y : Option Fetch} {op : Ctx → Ctx} {acc : List InFlight}
    (h : Issues s e k) (hx : FetchOk s k 1 0 x) (hy : FetchOk s k 2 4 y)
    (hop : op (issuing (ctxGet s k)) = leave (issuing (ctxGet s k)) acc) :
    macOp s e x y op
      = endInstr (issueMarks s k) k (leave (issuing (ctxGet s k)) (macSends s k x y acc)) := by
  have hs : (issueMarks s k).soft = [] := (issueMarks_soft s k).trans h.sound
  unfold macOp
  rw [issue_eq s e k _ h]
  simp only [fetchAt_issueMarks hx, fetchAt_issueMarks hy, fetchCorrect_sound _ _ _ _ hs,
    ctxGet_issueMarks_issuing, hop, fetchEnd_eq, fetchSends_leave, fetchSends_issuing, leave_leave, macSends]

/-- A fetch's pointer has moved on at the end of the slot, where nothing sent after it is for that
register. -/
theorem pGet_finish_of_fetch {s : State} {k base : Nat} (f : Fetch) (l m : List InFlight)
    (hm : ∀ g ∈ m, g.reg ≠ .p (base + f.p.toNat)) :
    pGet (finish (leave (issuing (ctxGet s k)) (l ++ fetchSends (ctxGet s k) (fetched s k base (some f)) ++ m)))
        (base + f.p.toNat)
      = pGet (ctxGet s k) (base + f.p.toNat) + mGet (ctxGet s k) (base + f.p.toNat) := by
  let c := ctxGet s k
  let n := base + f.p.toNat
  have hsplit : (leave (issuing c) (l ++ fetchSends c (fetched s k base (some f)) ++ m)).infl
      = (c.infl ++ l ++ [dueIn c 3 (.g f.rd.toNat) ((fetchedWord s k base f).zeroExtend 40) false])
        ++ dueIn c 1 (.p n) ((pGet c n + mGet c n).zeroExtend 40) false :: m := by
    simp [fetchSends, fetched, issuing, n]
  rw [pGet_finish_of_last _ _ m _ n hsplit (Nat.le_refl _) rfl hm]
  simp [dueIn, c, n]

/-- The X pointer moves on: the Y fetch sends nothing for P0 to P3 (R127). -/
theorem pGet_finish_macSends_x (s : State) (k : Nat) (f : Fetch) (y : Option Fetch) (acc : List InFlight) :
    pGet (finish (leave (issuing (ctxGet s k)) (macSends s k (some f) y acc))) f.p.toNat
      = pGet (ctxGet s k) f.p.toNat + mGet (ctxGet s k) f.p.toNat := by
  have hy := fetchSends_reg_ne (s := s) (k := k) (base := 4) (f := y) (n := 0 + f.p.toNat) fun g _ => by omega
  simpa only [macSends, Nat.zero_add] using pGet_finish_of_fetch (base := 0) f acc _ hy

/-- The Y pointer moves on: nothing is sent after it. -/
theorem pGet_finish_macSends_y (s : State) (k : Nat) (x : Option Fetch) (f : Fetch) (acc : List InFlight) :
    pGet (finish (leave (issuing (ctxGet s k)) (macSends s k x (some f) acc))) (4 + f.p.toNat)
      = pGet (ctxGet s k) (4 + f.p.toNat) + mGet (ctxGet s k) (4 + f.p.toNat) := by
  simpa only [macSends, List.append_nil] using
    pGet_finish_of_fetch (base := 4) f (acc ++ fetchSends (ctxGet s k) (fetched s k 0 x)) [] (by simp)

/-- A command that is a MAC-class word with accumulator results `acc`, none due in the next slot,
gives them and its fetches. -/
theorem givesMac_of_macOp {i : Instr} {s : State} {e k : Nat} {x y : Option Fetch} {op : Ctx → Ctx}
    {acc : List InFlight} (h : Issues s e k) (hx : FetchOk s k 1 0 x) (hy : FetchOk s k 2 4 y)
    (hi : exec i s = .next (macOp s e x y op))
    (hop : op (issuing (ctxGet s k)) = leave (issuing (ctxGet s k)) acc)
    (hacc : ∀ f ∈ acc, f.due = (ctxGet s k).slot + 2) : GivesMac i s k x y acc := by
  have hlate : acc.filter (fun f => ! decide (f.due ≤ (ctxGet s k).slot + 1)) = acc :=
    List.filter_eq_self.2 fun f hf => by simp [hacc f hf]
  rw [macOp_eq h hx hy hop] at hi
  refine ⟨_, hi, ⟨(ctxGet s k).infl.filter fun f => ! decide (f.due ≤ (ctxGet s k).slot + 1), ?_⟩, ?_, ?_, ?_⟩
  · rw [ctxGet_endInstr, finish_infl]
    simp [macSends, issuing, fetchSends_later, hlate]
  · rintro f rfl
    rw [ctxGet_endInstr, pGet_finish_macSends_x]
  · rintro f rfl
    rw [ctxGet_endInstr, pGet_finish_macSends_y]
  · simp [endInstr]

/-! ## The accumulate input -/

/-- The accumulate input takes the latest MAC-class result due in the next slot (R86). -/
theorem aMacGet_of_last (c : Ctx) (n : Nat) (l : List InFlight) (v : BitVec 40)
    (h : c.infl = l ++ [⟨c.slot + 1, .a n, v, true⟩]) : aMacGet c n = v := by
  simp [aMacGet, h]

/-- Without a MAC-class result for the accumulator in flight the input is the register (R86). -/
theorem aMacGet_of_no_mac (c : Ctx) (n : Nat) (h : ∀ f ∈ c.infl, f.reg = .a n → f.mac = false) :
    aMacGet c n = aGet c n := by
  have hnone : c.infl.filter (fun f => f.reg == .a n && f.mac && decide (f.due ≤ c.slot + 1)) = [] :=
    List.filter_eq_nil_iff.2 fun f hf => by
      by_cases hr : f.reg = .a n
      · simp [h f hf hr]
      · simp [hr]
  simp only [aMacGet, hnone, List.foldl_nil]

/-- Settles O11: each word of the class is one `macOp`, which appends its results in flight. -/
theorem macClassResults : Obligations.MacClassResults := by
  intro s e k ad gs gt hs ht x y h hx hy c half xy p acc
  rw [show p = macProduct c gs gt hs ht from (macProduct_eq c gs gt hs ht).symm]
  refine ⟨?_, ?_, ?_, ?_, ?_, aMacGet_of_last c ad.toNat, aMacGet_of_no_mac c ad.toNat⟩
  · exact givesMac_of_macOp h hx hy rfl (macResult_accum _ _ _) accLeaves_due
  · exact givesMac_of_macOp h hx hy rfl (macResult_accum _ _ _) accLeaves_due
  · exact givesMac_of_macOp h hx hy rfl rfl (by simp [dueIn, c])
  · exact givesMac_of_macOp h hx hy rfl rfl (by simp [dueIn, c])
  · exact givesMac_of_macOp h hx hy rfl (leave_nil _).symm (by simp)

end Sys2Proof.Machine
end

section
/-! The end of an instruction with results of latency 1 (R86, R87): the register it sends last reads
its value, and with nothing in flight before, the flags stand and the next word follows. -/

namespace Sys2Proof.Machine

/-! ## Flags and fields of ST -/

/-- A field reads alike in words that agree from its lowest bit on. -/
theorem fld_congr {v w : Word} {hi lo : Nat} (h : ∀ j, lo ≤ j → v.getLsbD j = w.getLsbD j) :
    fld v hi lo = fld w hi lo := by
  refine Nat.eq_of_testBit_eq fun j => ?_
  have hj := h (j + lo) (Nat.le_add_left lo j)
  simp only [BitVec.getLsbD] at hj
  simp only [fld, Nat.testBit_mod_two_pow, Nat.testBit_div_two_pow, hj]

/-- Setting a bit leaves every other bit alone. -/
theorem getLsbD_setBit_other (w : Word) (b : Bool) {i j : Nat} (h : j ≠ i) :
    (setBit w i b).getLsbD j = w.getLsbD j := by
  have hmask : (2 ^ i).testBit j = false := Nat.testBit_two_pow_of_ne h.symm
  have hval : (b.toNat % 2 * 2 ^ i).testBit j = false := by cases b <;> simp [hmask]
  have hwidth : i + 1 - i = 1 := Nat.add_sub_cancel_left i 1
  by_cases hj : j < 32
  · simp only [setBit, setFld, maskOf, hwidth, BitVec.getLsbD_or, BitVec.getLsbD_and, BitVec.getLsbD_not,
      BitVec.getLsbD_ofNat, Nat.pow_one, Nat.add_one_sub_one, Nat.one_mul, hmask, hval, hj, decide_true,
      Bool.and_false, Bool.not_false, Bool.and_true, Bool.or_false]
  · rw [BitVec.getLsbD_of_ge _ _ (Nat.le_of_not_lt hj), BitVec.getLsbD_of_ge _ _ (Nat.le_of_not_lt hj)]

/-- A flag written leaves the bits above it alone. -/
theorem getLsbD_putFlag_above (w : Word) (f : Option Bool) {i j : Nat} (h : i < j) :
    (putFlag w i f).getLsbD j = w.getLsbD j := by
  cases f with
  | none => rfl
  | some b => exact getLsbD_setBit_other w b (Nat.ne_of_gt h)

/-- Flags leave the loop depth alone (R80). -/
theorem ldepth_setFlags (c : Ctx) (f : FlagWrite) : ldepth (setFlags c f) = ldepth c := by
  have hfld : fld (putFlags c.st f) 23 22 = fld c.st 23 22 := fld_congr fun j hj => by
    simp (disch := omega) only [putFlags, getLsbD_putFlag_above]
  simp only [ldepth, setFlags, hfld]

theorem Settled.setFlags {c : Ctx} (h : Settled c) (f : FlagWrite) : Settled (setFlags c f) :=
  ⟨h.infl, h.pend, (ldepth_setFlags c f).trans h.depth⟩

theorem Settled.issuing {c : Ctx} (h : Settled c) : Settled (issuing c) := ⟨h.infl, h.pend, h.depth⟩

/-! ## What the marks of an issue leave of a context -/

@[simp] theorem issuing_pc (c : Ctx) : (issuing c).pc = c.pc := rfl

@[simp] theorem issuing_st (c : Ctx) : (issuing c).st = c.st := rfl

@[simp] theorem gGet_issuing (c : Ctx) (n : Nat) : gGet (issuing c) n = gGet c n := rfl

@[simp] theorem branchBarred_issuing (c : Ctx) : branchBarred (issuing c) = branchBarred c := rfl

/-! ## The G, P and M registers -/

/-- A G, P or M register. -/
def RegId.isGpm : RegId → Prop
  | .g _ | .p _ | .m _ => True
  | _ => False

/-- The class codes 0 to 2 name the G, P and M registers (R120). -/
theorem isGpm_of_gpmReg {cl n : Nat} {r : RegId} (h : gpmReg cl n = some r) : r.isGpm := by
  unfold gpmReg at h
  split at h
  · obtain ⟨-, ⟨⟩⟩ := Option.ite_none_right_eq_some.1 h
    trivial
  · obtain ⟨-, ⟨⟩⟩ := Option.ite_none_right_eq_some.1 h
    trivial
  · obtain ⟨-, ⟨⟩⟩ := Option.ite_none_right_eq_some.1 h
    trivial
  · cases h

/-- A G, P or M register reads the word written to it. -/
theorem regRead_regWrite {r : RegId} (hr : r.isGpm) (c : Ctx) (v : Word) :
    regRead (regWrite c r (v.zeroExtend 40)) r = v := by
  have hv : (v.zeroExtend 40).truncate 32 = v := by simp
  cases r with
  | g n => exact (smapGet_put_same _ _ _ _).trans hv
  | p n => exact (smapGet_put_same _ _ _ _).trans hv
  | m n => exact (smapGet_put_same _ _ _ _).trans hv
  | _ => exact hr.elim

/-- A write of a G, P or M register leaves ST alone. -/
theorem regWrite_st {r : RegId} (hr : r.isGpm) (c : Ctx) (v : BitVec 40) : (regWrite c r v).st = c.st := by
  cases r with
  | g n => rfl
  | p n => rfl
  | m n => rfl
  | _ => exact hr.elim

@[simp] theorem regWrite_pc (c : Ctx) (r : RegId) (v : BitVec 40) : (regWrite c r v).pc = c.pc := by
  cases r with
  | sp n => simp only [regWrite]; split <;> rfl
  | _ => rfl

@[simp] theorem regWrite_pend (c : Ctx) (r : RegId) (v : BitVec 40) : (regWrite c r v).pend = c.pend := by
  cases r with
  | sp n => simp only [regWrite]; split <;> rfl
  | _ => rfl

/-! ## Results of latency 1 -/

/-- Results that become due leave the PC alone. -/
@[simp] theorem retire_pc (c : Ctx) (n : Nat) : (retire c n).pc = c.pc :=
  List.foldlRecOn (motive := fun d : Ctx => d.pc = c.pc) _ _ rfl
    fun _ hd f _ => (regWrite_pc _ f.reg f.val).trans hd

/-- Results that become due leave the pending branch alone. -/
@[simp] theorem retire_pend (c : Ctx) (n : Nat) : (retire c n).pend = c.pend :=
  List.foldlRecOn (motive := fun d : Ctx => d.pend = c.pend) _ _ rfl
    fun _ hd f _ => (regWrite_pend _ f.reg f.val).trans hd

/-- The register that an instruction sends last with latency 1 reads its value at the end. -/
theorem regRead_finish_sendW {r : RegId} (hr : r.isGpm) (c : Ctx) (v : Word) :
    regRead (finish (sendW c 1 r v)) r = v := by
  obtain ⟨d, hd⟩ := finish_sendW c r v
  rw [hd, regRead_regWrite hr]

/-- Outside delay slots and loops the next word follows. -/
theorem advance_flat (c : Ctx) (hpend : c.pend = none) (hdepth : ldepth c = 0) :
    advance c = { c with pc := c.pc + 4 } := by
  simp only [advance, hpend, hdepth, loopAdvance]

/-- With nothing in flight before it a result of latency 1 is the one write of the instruction's end. -/
theorem finish_sendW_settled {c : Ctx} (h : Settled c) (r : RegId) (v : Word) :
    finish (sendW c 1 r v) = regWrite { c with pc := c.pc + 4, slot := c.slot + 1 } r (v.zeroExtend 40) := by
  have hadvance : advance (sendW c 1 r v) = { sendW c 1 r v with pc := c.pc + 4 } := advance_flat _ h.pend h.depth
  simp only [finish, hadvance]
  simp [retire, sendW, send, h.infl]

theorem finish_sendW_settled_st {c : Ctx} (h : Settled c) {r : RegId} (hr : r.isGpm) (v : Word) :
    (finish (sendW c 1 r v)).st = c.st := by
  rw [finish_sendW_settled h, regWrite_st hr]

theorem finish_sendW_settled_pc {c : Ctx} (h : Settled c) (r : RegId) (v : Word) :
    (finish (sendW c 1 r v)).pc = c.pc + 4 := by
  rw [finish_sendW_settled h, regWrite_pc]

/-! ## ALU instructions and moves -/

/-- A command that is one ALU instruction with result `v` and flags `f` gives them. -/
theorem givesG_of_aluOp {i : Instr} {s : State} {e k rd : Nat} {op : Ctx → Word × FlagWrite} {v : Word} {f : FlagWrite}
    (h : Issues s e k) (hi : exec i s = .next (aluOp s e (some rd) op))
    (hop : op (issuing (ctxGet s k)) = (v, f)) : GivesG i s k rd v f := by
  rw [aluOp, issue_eq s e k _ h] at hi
  simp only [ctxGet_issueMarks_issuing, hop] at hi
  refine ⟨_, hi, ?_, fun hset => ⟨?_, ?_⟩⟩
  · rw [ctxGet_endInstr]
    exact regRead_finish_sendW (r := .g rd) trivial _ v
  · rw [ctxGet_endInstr]
    exact finish_sendW_settled_st (hset.issuing.setFlags f) (r := .g rd) trivial v
  · rw [ctxGet_endInstr]
    exact finish_sendW_settled_pc (hset.issuing.setFlags f) _ v

/-- A command that is one ALU instruction without a destination gives its flags. -/
theorem givesFlags_of_aluOp {i : Instr} {s : State} {e k : Nat} {op : Ctx → Word × FlagWrite} {v : Word} {f : FlagWrite}
    (h : Issues s e k) (hi : exec i s = .next (aluOp s e none op))
    (hop : op (issuing (ctxGet s k)) = (v, f)) : GivesFlags i s k f := by
  rw [aluOp, issue_eq s e k _ h] at hi
  simp only [ctxGet_issueMarks_issuing, hop] at hi
  refine ⟨_, hi, fun hset => ?_⟩
  obtain ⟨hinfl, hpend, hdepth⟩ := hset.issuing.setFlags f
  rw [ctxGet_endInstr, finish_settled _ hinfl hpend hdepth]
  exact ⟨rfl, rfl, fun _ => rfl⟩

/-- A command that is one move of `v` to a G, P or M register gives it. -/
theorem givesReg_of_move {i : Instr} {s : State} {e k : Nat} {op : Nat → Ctx → Option Ctx} {r : RegId} {v : Word}
    (h : Issues s e k) (hi : exec i s = .next (issue s e fun s k => orIllegal s k (op k (ctxGet s k)))) (hr : r.isGpm)
    (hop : op k (issuing (ctxGet s k)) = some (sendW (issuing (ctxGet s k)) 1 r v)) : GivesReg i s k r v := by
  rw [issue_eq s e k _ h] at hi
  simp only [ctxGet_issueMarks_issuing, hop, orIllegal] at hi
  refine ⟨_, hi, ?_, fun hset => ⟨?_, ?_⟩⟩
  · rw [ctxGet_endInstr, regRead_finish_sendW hr]
  · rw [ctxGet_endInstr, finish_sendW_settled_st hset.issuing hr, issuing_st]
  · rw [ctxGet_endInstr, finish_sendW_settled_pc hset.issuing, issuing_pc]

/-- A G register moved to keeps every flag. -/
theorem GivesReg.givesG {i : Instr} {s : State} {k n : Nat} {v : Word} (h : GivesReg i s k (.g n) v) :
    GivesG i s k n v noFlags := h

/-! ## The immediate group and the moves (R122, R123, R124) -/

/-- Overflow in the words of R80. -/
theorem not_fits32 (x : Int) : (! fits32 x) = decide (x < -2147483648 ∨ 2147483647 < x) := by
  rw [Bool.eq_iff_iff]
  simp only [fits32, Bool.not_eq_true', Bool.and_eq_false_iff, decide_eq_false_iff_not, decide_eq_true_eq]
  omega

/-- Sign extension keeps the value of an immediate. -/
theorem toInt_immS (imm : BitVec 16) : (immS imm).toInt = imm.toInt := BitVec.toInt_signExtend_of_le (by decide)

/-- Addition of a sign-extended immediate, with its flags (R122). -/
theorem aluAdd_immS (a : Word) (imm : BitVec 16) :
    aluAdd false a (immS imm) = (a + immS imm, flagsZNCV (a + immS imm)
      (decide (4294967296 ≤ a.toNat + (immS imm).toNat))
      (decide (a.toInt + imm.toInt < -2147483648 ∨ 2147483647 < a.toInt + imm.toInt))) := by
  simp only [aluAdd, Bool.false_and, Bool.false_eq_true, if_false, not_fits32, toInt_immS, ge_iff_le]

/-- Subtraction of a sign-extended immediate, with its flags (R122). -/
theorem aluSub_immS (a : Word) (imm : BitVec 16) :
    aluSub false a (immS imm) = (a - immS imm, flagsZNCV (a - immS imm)
      (decide ((immS imm).toNat ≤ a.toNat))
      (decide (a.toInt - imm.toInt < -2147483648 ∨ 2147483647 < a.toInt - imm.toInt))) := by
  simp only [aluSub, Bool.false_and, Bool.false_eq_true, if_false, not_fits32, toInt_immS]

/-- A shift count of five bits shifts by less than the width (R122). -/
theorem shiftLeft_five (a : Word) (sh : BitVec 5) : shiftLeft a sh.toNat = a <<< sh.toNat :=
  if_neg (by omega)

theorem shiftRight_five (a : Word) (sh : BitVec 5) : shiftRight a sh.toNat = a >>> sh.toNat :=
  if_neg (by omega)

theorem shiftArith_five (a : Word) (sh : BitVec 5) : shiftArith a sh.toNat = a.sshiftRight sh.toNat := by
  rw [shiftArith, Nat.min_eq_left (by omega)]

/-- Class code 0 names the G registers. -/
theorem gpmReg_zero (rd : BitVec 4) : gpmReg (0 : BitVec 3).toNat rd.toNat = some (.g rd.toNat) := if_pos rd.isLt

section
variable {s : State} {e k : Nat} {rd rs : BitVec 4} {d r : RegId}

/-- MOVI writes its zero-extended immediate (R123). -/
theorem movi_givesReg (h : Issues s e k) {cl : BitVec 3} (imm : BitVec 16) (hd : gpmReg cl.toNat rd.toNat = some d) :
    GivesReg (.movi e rd cl imm) s k d (imm.zeroExtend 32) :=
  givesReg_of_move (op := fun _ c => (gpmReg cl.toNat rd.toNat).map fun r => sendW c 1 r (immZ imm))
    h rfl (isGpm_of_gpmReg hd) (by rw [hd]; rfl)

/-- MOVHI writes bits 31:16 and keeps bits 15:0 (R123). -/
theorem movhi_givesReg (h : Issues s e k) {cl : BitVec 3} (imm : BitVec 16) (hd : gpmReg cl.toNat rd.toNat = some d) :
    GivesReg (.movhi e rd cl imm) s k d ((regRead (ctxGet s k) d &&& 0xFFFF#32) ||| (imm.zeroExtend 32 <<< 16)) :=
  givesReg_of_move (op := fun _ c => (gpmReg cl.toNat rd.toNat).map fun r =>
      sendW c 1 r ((regRead c r &&& 0xFFFF#32) ||| (immZ imm <<< 16)))
    h rfl (isGpm_of_gpmReg hd) (by rw [hd]; cases d <;> rfl)

/-- MOV between G, P and M registers copies the word (R124). -/
theorem mov_givesReg (h : Issues s e k) {dcl scl : BitVec 3} (hd : gpmReg dcl.toNat rd.toNat = some d)
    (hr : gpmReg scl.toNat rs.toNat = some r) :
    GivesReg (.mov e rd dcl rs scl) s k d (regRead (ctxGet s k) r) :=
  givesReg_of_move (op := fun k c => movEffect k c rd.toNat dcl.toNat rs.toNat scl.toNat)
    h rfl (isGpm_of_gpmReg hd) (by rw [movEffect, hd, hr]; cases r <;> rfl)

end

/-- Settles O8: the immediate group is one `aluOp` each, the moves one result sent each. -/
theorem immediateAndMoveResults : Obligations.ImmediateAndMoveResults := by
  intro s e k rd rs imm sh h a si zi cmpF
  refine ⟨?addi, ?andi, ?ori, ?xori, ?shli, ?shri, ?sari, ?cmpi, ?moviG, ?movhiG, ?movG,
    fun cl d hd => ⟨movi_givesReg h imm hd, movhi_givesReg h imm hd⟩,
    fun dcl scl d r hd hr => mov_givesReg h hd hr⟩
  case addi => exact givesG_of_aluOp h rfl (aluAdd_immS a imm)
  case andi => exact givesG_of_aluOp h rfl rfl
  case ori => exact givesG_of_aluOp h rfl rfl
  case xori => exact givesG_of_aluOp h rfl rfl
  case shli => exact givesG_of_aluOp h rfl (congrArg aluZN (shiftLeft_five a sh))
  case shri => exact givesG_of_aluOp h rfl (congrArg aluZN (shiftRight_five a sh))
  case sari => exact givesG_of_aluOp h rfl (congrArg aluZN (shiftArith_five a sh))
  case cmpi => exact givesFlags_of_aluOp h rfl (aluSub_immS a imm)
  case moviG => exact (movi_givesReg h imm (gpmReg_zero rd)).givesG
  case movhiG => exact (movhi_givesReg h imm (gpmReg_zero rd)).givesG
  case movG => exact (mov_givesReg h (gpmReg_zero rd) (gpmReg_zero rs)).givesG

end Sys2Proof.Machine
end

section
/-! Branches (R91, R132, R133): one that issues records its target and link and ends with two delay
slots to come. -/

namespace Sys2Proof.Machine

/-! ## The end of a branch -/

@[simp] theorem endWithDelay_pend (s : State) (k : Nat) (c : Ctx) (target : Nat) (taken annul : Bool) :
    (ctxGet (endWithDelay s k c target taken annul) k).pend = some ⟨2, target, taken, annul⟩ := by
  rw [endWithDelay, ctxGet_ctxPut, retire_pend]

@[simp] theorem endWithDelay_pc (s : State) (k : Nat) (c : Ctx) (target : Nat) (taken annul : Bool) :
    (ctxGet (endWithDelay s k c target taken annul) k).pc = c.pc + 4 := by
  rw [endWithDelay, ctxGet_ctxPut, retire_pc]

@[simp] theorem endWithDelay_mem (s : State) (k : Nat) (c : Ctx) (target : Nat) (taken annul : Bool) :
    (endWithDelay s k c target taken annul).mem = s.mem := rfl

/-- The link of CALL and CALLR reads the address after the delay slots at the end of the slot (R91). -/
theorem gGet_endWithDelay_link (s : State) (k : Nat) (c : Ctx) (target : Nat) (taken annul : Bool) :
    gGet (ctxGet (endWithDelay s k (linkTo c) target taken annul) k) 15 = wordOf (c.pc + 12) := by
  have hlast := retire_append { linkTo c with pc := c.pc + 4, pend := some ⟨2, target, taken, annul⟩, slot := c.slot + 1 }
    c.infl ⟨c.slot + 1, .g 15, (wordOf (c.pc + 12)).zeroExtend 40, false⟩ (c.slot + 1) (Nat.le_refl _) rfl
  rw [endWithDelay, ctxGet_ctxPut]
  refine (congrArg (gGet · 15) hlast).trans ?_
  exact regRead_regWrite (r := .g 15) trivial _ _

/-! ## Which way a branch goes -/

/-- With no loop active a branch out of a body closes no level (R93). -/
theorem closeIfOut_of_no_loop {c : Ctx} (target : Nat) (h : ldepth c = 0) : closeIfOut c target = c := by
  rw [closeIfOut, h]

section
variable {c : Ctx} {cond : Nat} (s : State) (k : Nat) (an inLoop : Bool) (target : Nat)

/-- A branch whose condition holds, outside any loop, is taken after its two delay slots. -/
theorem branchOp_taken (hbar : branchBarred c = false) (hdepth : ldepth c = 0) (hc : condHolds cond c.st = some true) :
    branchOp s k c cond an inLoop target = endWithDelay s k c target true false := by
  simp only [branchOp, hbar, hc, closeIfOut_of_no_loop target hdepth, Bool.false_eq_true, if_false, ite_self]

/-- A branch whose condition does not hold goes on after its delay slots, annulled under AN. -/
theorem branchOp_untaken (hbar : branchBarred c = false) (hc : condHolds cond c.st = some false) :
    branchOp s k c cond an inLoop target = endWithDelay s k c (c.pc + 12) false an := by
  simp only [branchOp, hbar, hc, Bool.false_eq_true, if_false]

end

/-- A branch through a register that holds an aligned address and whose condition is defined. -/
theorem regBranch_eq {s : State} {e k cond rs : Nat} (an inLoop link : Bool) (h : Issues s e k)
    (hbar : branchBarred (ctxGet s k) = false) (hc : (condHolds cond (ctxGet s k).st).isSome)
    (halign : (gGet (ctxGet s k) rs).toNat % 4 = 0) :
    regBranch s e cond an inLoop link rs = branchOp (issueMarks s k) k
      (if link then linkTo (issuing (ctxGet s k)) else issuing (ctxGet s k)) cond an inLoop (gGet (ctxGet s k) rs).toNat := by
  rw [regBranch, issue_eq s e k _ h]
  simp only [ctxGet_issueMarks_issuing, branchBarred_issuing, hbar, issuing_st, Option.isNone_eq_false_iff.2 hc,
    gGet_issuing, halign, Bool.or_self, Bool.false_eq_true, if_false, ne_eq, not_true_eq_false]

/-! ## What a branch leaves -/

/-- `i`, issued in context `k`, leads to `t`: the branch `p` is pending, the PC is at the next word, and
memory is as before. -/
def BranchLeaves (i : Instr) (s : State) (k : Nat) (p : Pend) (t : State) : Prop :=
  exec i s = .next t ∧ (ctxGet t k).pend = some p ∧ (ctxGet t k).pc = (ctxGet s k).pc + 4 ∧ t.mem = s.mem

section
variable {i : Instr} {s : State} {k cond target : Nat} {c : Ctx} {an inLoop : Bool}

/-- A command that ends with delay slots leaves its branch pending. -/
theorem branchLeaves_of_endWithDelay {taken annul : Bool}
    (hi : exec i s = .next (endWithDelay (issueMarks s k) k c target taken annul)) (hpc : c.pc = (ctxGet s k).pc) :
    BranchLeaves i s k ⟨2, target, taken, annul⟩ (endWithDelay (issueMarks s k) k c target taken annul) :=
  ⟨hi, endWithDelay_pend .., hpc ▸ endWithDelay_pc .., (endWithDelay_mem ..).trans (issueMarks_mem s k)⟩

/-- A command that is one taken branch leaves its target pending. -/
theorem branchLeaves_taken (hi : exec i s = .next (branchOp (issueMarks s k) k c cond an inLoop target))
    (hbar : branchBarred c = false) (hdepth : ldepth c = 0) (hc : condHolds cond c.st = some true)
    (hpc : c.pc = (ctxGet s k).pc) :
    BranchLeaves i s k ⟨2, target, true, false⟩ (endWithDelay (issueMarks s k) k c target true false) := by
  rw [branchOp_taken _ _ _ _ _ hbar hdepth hc] at hi
  exact branchLeaves_of_endWithDelay hi hpc

/-- A command that is one untaken branch leaves the address after its delay slots pending, which AN annuls. -/
theorem branchLeaves_untaken (hi : exec i s = .next (branchOp (issueMarks s k) k c cond an inLoop target))
    (hbar : branchBarred c = false) (hc : condHolds cond c.st = some false) (hpc : c.pc = (ctxGet s k).pc) :
    BranchLeaves i s k ⟨2, (ctxGet s k).pc + 12, false, an⟩
      (endWithDelay (issueMarks s k) k c ((ctxGet s k).pc + 12) false an) := by
  rw [branchOp_untaken _ _ _ _ _ hbar hc, hpc] at hi
  exact branchLeaves_of_endWithDelay hi hpc

end

/-! ## The branch instructions -/

/-- B that issues is one branch to its PC-relative target (R133). -/
theorem exec_b_eq {s : State} {e k : Nat} (cond : BitVec 4) (an : Bool) (ofs : BitVec 20) (h : Issues s e k) :
    exec (.b e cond an ofs) s = .next (branchOp (issueMarks s k) k (issuing (ctxGet s k)) cond.toNat an true
      (relTarget (ctxGet s k).pc ofs)) := by
  refine congrArg Host.Outcome.next ((issue_eq s e k _ h).trans ?_)
  simp only [ctxGet_issueMarks_issuing, issuing_pc]

/-- CALL that issues is one branch to its PC-relative target, with the link sent (R91, R133). -/
theorem exec_call_eq {s : State} {e k : Nat} (an : Bool) (ofs : BitVec 20) (h : Issues s e k)
    (hbar : branchBarred (ctxGet s k) = false) :
    exec (.call e an ofs) s = .next (branchOp (issueMarks s k) k (linkTo (issuing (ctxGet s k))) 0 an false
      (relTarget (ctxGet s k).pc ofs)) := by
  refine congrArg Host.Outcome.next ((issue_eq s e k _ h).trans ?_)
  simp only [ctxGet_issueMarks_issuing, issuing_pc, branchBarred_issuing, hbar, Bool.false_eq_true, if_false]

/-- Settles O15: every branch is one `branchOp`, which ends with the delay slots to come. -/
theorem branchResults : Obligations.BranchResults := by
  intro s e k cond rs an ofs h hbar hset c rel t goes
  have jr (v : Bool) (hc : condHolds cond.toNat c.st = some v) (ht : t % 4 = 0) :=
    regBranch_eq an (! (cond == 0 && rs == 15)) false h hbar (Option.isSome_of_eq_some hc) ht
  refine ⟨?bTaken, ?bUntaken, ?call, ?jrTaken, ?jrUntaken, ?ret, ?callr, ?conditions⟩
  case bTaken => exact fun hc => ⟨_, branchLeaves_taken (exec_b_eq cond an ofs h) hbar hset.depth hc rfl⟩
  case bUntaken => exact fun hc => ⟨_, branchLeaves_untaken (exec_b_eq cond an ofs h) hbar hc rfl⟩
  case call => exact ⟨_, branchLeaves_taken (exec_call_eq an ofs h hbar) hbar hset.depth rfl rfl, gGet_endWithDelay_link ..⟩
  case jrTaken =>
    exact fun hc ht => ⟨_, branchLeaves_taken (congrArg _ (jr true hc ht)) hbar hset.depth hc rfl⟩
  case jrUntaken =>
    exact fun hc ht => ⟨_, branchLeaves_untaken (congrArg _ (jr false hc ht)) hbar hc rfl⟩
  case ret =>
    exact fun ht => ⟨_, branchLeaves_taken (congrArg _ (regBranch_eq an false false h hbar rfl ht)) hbar hset.depth rfl rfl⟩
  case callr =>
    exact fun ht => ⟨_, branchLeaves_taken (congrArg _ (regBranch_eq an false true h hbar rfl ht)) hbar hset.depth rfl rfl,
      gGet_endWithDelay_link ..⟩
  case conditions => exact fun st => rfl

end Sys2Proof.Machine
end
